-- ==== Sys2Proof/Word.lean ====
section
/-! DEFINITION. The word types of the machine and the sparse table in which State holds every large
collection. Only types and the plainest arithmetic stand here; every operation over them stands under Machine/. -/

namespace Sys2Proof

/-- A byte of memory (R2). -/
abbrev Byte := BitVec 8
/-- A 32-bit register word (R13). -/
abbrev Word := BitVec 32
/-- A 64-bit word: the X file and the 64-bit registers of region 3 (R13, R321). -/
abbrev Dword := BitVec 64
/-- A vector register: 128 lanes of 32 bits, lane 0 first (R260). -/
abbrev Lanes := List Word
/-- A lane mask: bit L is lane L of a vector predicate (R15). -/
abbrev Mask := BitVec 128

/-- A table from numbers to values, held as a list with strictly rising keys in which no entry equals
what an unlisted key reads as. -/
abbrev Sparse (α : Type) := List (Nat × α)

/-- The field of `w` that starts at bit `lo` and has `n` bits (R2). -/
def field (w lo n : Nat) : Nat := w / 2 ^ lo % 2 ^ n

/-- The value of the low `n` bits of `x` as a two's-complement integer (R8, `sext`). -/
def sextNat (x n : Nat) : Int :=
  if x % 2 ^ n < 2 ^ (n - 1) then ((x % 2 ^ n : Nat) : Int) else ((x % 2 ^ n : Nat) : Int) - ((2 ^ n : Nat) : Int)

end Sys2Proof
end

