-- ==== Sys2Proof/Config.lean ====
section
/-! DEFINITION. What an implementation fixes, and the values the spec leaves free: constants without a body, so that no
proof can rest on one of their values. Log entries 3, 4, 9 to 12 and 23 say what each stands for. -/

namespace Sys2Proof.Config

open Sys2Proof

/-- A free value: the n-th value the spec leaves open in a run (log entry 4). -/
opaque freeWord : Nat → Word

/-- A byte of host or peer memory that the device has not written: by address and time (log entry 3). -/
opaque externByte : Nat → Nat → Byte

/-- The special functions of fp32 on operands for which R271 gives no exact result: pattern to pattern, before the bounds
that R271 states are applied (log entry 9). -/
opaque exp2Raw : Word → Word
opaque log2Raw : Word → Word
opaque rsqrtRaw : Word → Word
opaque sinRaw : Word → Word
opaque cosRaw : Word → Word
opaque tanhRaw : Word → Word
opaque sigmRaw : Word → Word

/-- The verdict of an SM2 signature check: the key's name, the digest, the signature (R297, R427, R429; log entry 10). -/
opaque sm2Verifies : Nat → List Byte → List Byte → Bool

/-- The signature the identity key makes over a digest (R428; log entry 10). -/
opaque sm2Sign : List Byte → List Byte

/-- The serial number and the fuse policy of the module (R428): 8 bytes each. -/
opaque serialNumber : Nat
opaque fusePolicy : Nat

/-- The fused policy bit ZEROISE (R430), whose place in the fuse policy is not stated. -/
opaque zeroisePolicy : Bool

/-- The SM3 digest of the firmware image (R428). -/
opaque firmwareDigest : List Byte

/-- The chained digest of the images installed: the chain so far and the image (R428). -/
opaque chainDigest : List Byte → List Byte → List Byte

/-- How SECLOG writes a source of the security alarm: the place of the source in the list of R430, from 1. -/
opaque sourceCode : Nat → Dword

/-- The debug challenge drawn after a number of draws (R429). -/
opaque challenge : Nat → List Byte

/-- The firmware's fault service clears a lichen fault (R362): by core and time. -/
opaque faultCleared : Nat → Nat → Bool

/-- The trace path of a core is full at a time (R410). -/
opaque tracePathFull : Nat → Nat → Bool

/-- A peer device finds that an address of its window is not mapped there (R436): by address and time. -/
opaque peerAbsent : Nat → Nat → Bool

end Sys2Proof.Config
end

