-- ==== Sys2Proof/Syntax.lean ====
section
/-! DEFINITION. The instructions: one inductive with one constructor per row of spec/opcode_table.json, and the
types of their operands. Encodings stand in Sys2Proof.Decode, meanings under Sys2Proof.Machine. -/

namespace Sys2Proof

/-- A guard code: a scalar predicate, or a path of the bundle's branch tree (R152). -/
inductive Guard where
  | p (i : Fin 16)
  | t (i : Fin 5)
deriving DecidableEq, Repr

/-- Which of the two scalar units a form of the A and B slots stands in (R217). -/
inductive UnitAB where
  | a
  | b
deriving DecidableEq, Repr

/-- Which of the two vector units a form of the V and W slots stands in (R261). -/
inductive UnitVW where
  | v
  | w
deriving DecidableEq, Repr

/-- The register files named by a file code (R148). -/
inductive File where
  | a | b | c | m | v | w | x | f | n
  | preds
  | vpreds
deriving DecidableEq, Repr

/-- The element formats, in the order of their codes (R39). -/
inductive Format where
  | fp32 | fp16 | bf16 | i8 | i16 | i32 | bx4 | bx6 | bx9 | b8 | b16 | b32
deriving DecidableEq, Repr

/-- A decoded source of the scalar slots (R149). -/
inductive SSrc where
  | reg (r : Fin 32)
  | latch (i : Fin 4)
  | qhead (q : Fin 8)
  | const (c : Fin 15)
  | lit (v : Word)
deriving DecidableEq, Repr

/-- A decoded source of the vector slots (R149). -/
inductive VSrc where
  | reg (r : Fin 28)
  | latch (i : Fin 4)
  | qhead (q : Fin 8)
  | lit (v : Word)
deriving DecidableEq, Repr

/-- A destination of the vector slots; code 31 enters only the latch stack (R150). -/
inductive VDst where
  | reg (r : Fin 28)
  | latchOnly
deriving DecidableEq, Repr

/-- The condition of a scalar compare, in the order of FN (R221). -/
inductive Cond where
  | eq | ne | lt | le | gt | ge
deriving DecidableEq, Repr

/-- MODE and PAIR of the vector memory extension word (R230). -/
structure Swizzle where
  mode : Fin 7
  pair : Bool
deriving DecidableEq, Repr

/-- The extension word of `vstm`: swizzle, lane predicate, and the format whose absent elements are skipped when SKIP is set (R230, R232). -/
structure MaskedStore where
  mode : Fin 7
  pair : Bool
  vp : Fin 16
  skip : Option Format
deriving DecidableEq, Repr

/-- The value of `xli` and `xlih`: inline, or the extension word (R294). -/
inductive Imm16 where
  | imm (v : BitVec 16)
  | ext (v : Word)
deriving DecidableEq, Repr

/-- The value of `xadd`: inline, or the extension word (R294). -/
inductive Imm15 where
  | imm (v : BitVec 15)
  | ext (v : Word)
deriving DecidableEq, Repr

/-- What the self-test finds in one slice: its failing banks and lanes (R389). -/
structure BankFailure where
  core : Nat
  layer : Nat
  banks : List Nat
  lanes : List (Nat × Nat)
deriving DecidableEq, Repr

/-- What firmware does in a lichen cycle of a core: the words of its bundle, and the frames it hands to the Ethernet ports, each
with its port (R35, R426). -/
structure LichenWork where
  words : List Word
  frames : List (Fin 4 × List Byte)
deriving DecidableEq, Repr

/-- The bytes of an extent (R91): in LPDDR-6 their number, in the tower the number in each column and the columns. -/
inductive Extent where
  | linear (len : Nat)
  | tower (span cols : Nat)
deriving DecidableEq, Repr

/-- An access that another device makes through a peer window (R436). -/
inductive PeerAccess where
  | read (addr n : Nat)
  | write (addr : Nat) (bytes : List Byte)
  | atomic (addr aop : Nat) (w64 : Bool) (operand second : Nat)
deriving DecidableEq, Repr

/-- One constructor per row of the table of operations and events. A slot operation carries its guard, its
operands as decoded (a literal is the slot's extension word), and for the paired slots the unit; an event carries
where it happens and what reaches the device from outside. -/
inductive Instr where
  | jmp (g : Guard) (disp : BitVec 21) -- JMP: R185
  | jmpl (g : Guard) (target : Word) -- JMPL: R185
  | jr (g : Guard) (s : Fin 16) -- JR: R185
  | call (g : Guard) (disp : BitVec 21) -- CALL: R186
  | calll (g : Guard) (target : Word) -- CALLL: R186
  | ret (g : Guard) -- RET: R186
  | mbr (g : Guard) (shape : Fin 8) (q0 q1 q2 q3 : Fin 16) (t0 t1 t2 t3 : BitVec 16) -- MBR: R187
  | loop (g : Guard) (c : Fin 16) (exit : BitVec 17) -- LOOP: R189
  | loopi (g : Guard) (exit : BitVec 17) (count : Word) -- LOOPI: R189
  | lexit (g : Guard) -- LEXIT: R191
  | susp (g : Guard) (t : Fin 16) (w : Option (Fin 4)) -- SUSP: R193; `w` is WQ, none when NW = 1
  | suspTarget (g : Guard) (target : Word) (w : Option (Fin 4)) -- SUSP_TARGET: R193
  | endTask (g : Guard) -- END: R194
  | spawn (g : Guard) (p c : Fin 16) -- SPAWN: R196
  | spawnn (g : Guard) (p c n : Fin 16) -- SPAWNN: R196
  | setfmt (g : Guard) (s : Fin 16) -- SETFMT: R198
  | setfmtValue (g : Guard) (value : Word) -- SETFMT_VALUE: R198
  | qwait (g : Guard) -- QWAIT: R199
  | drain (g : Guard) -- DRAIN: R123, R200
  | trap (g : Guard) (code : BitVec 16) -- TRAP: R201
  | rft (g : Guard) (s : Fin 16) -- RFT: R202
  | csrr (g : Guard) (d : Fin 16) (csr : BitVec 12) -- CSRR: R204
  | csrw (g : Guard) (s : Fin 16) (csr : BitVec 12) -- CSRW: R205
  | csrwValue (g : Guard) (csr : BitVec 12) (value : Word) -- CSRW_VALUE: R205
  | rgopen (g : Guard) (disp : BitVec 17) -- RGOPEN: R208
  | rgclose (g : Guard) -- RGCLOSE: R209
  | seal (g : Guard) -- SEAL: R211
  | irrev (g : Guard) (t : Fin 16) -- IRREV: R212
  | irrevTarget (g : Guard) (target : Word) -- IRREV_TARGET: R212
  | lshare (g : Guard) (share : BitVec 7) -- LSHARE: R213
  | brk (g : Guard) (code : BitVec 16) -- BRK: R203
  | xmovC (g : Guard) (s : Fin 16) (fl : File) (d : Fin 32) -- XMOV_C: R215
  | kli (g : Guard) (d : Fin 16) (imm : BitVec 17) -- KLI: R214
  | kliLong (g : Guard) (d : Fin 16) (value : Word) -- KLI_LONG: R214
  | add (u : UnitAB) (g : Guard) (d : Fin 32) (x y : SSrc) -- ADD: R218
  | sub (u : UnitAB) (g : Guard) (d : Fin 32) (x y : SSrc) -- SUB: R218
  | and (u : UnitAB) (g : Guard) (d : Fin 32) (x y : SSrc) -- AND: R218
  | or (u : UnitAB) (g : Guard) (d : Fin 32) (x y : SSrc) -- OR: R218
  | xor (u : UnitAB) (g : Guard) (d : Fin 32) (x y : SSrc) -- XOR: R218
  | andn (u : UnitAB) (g : Guard) (d : Fin 32) (x y : SSrc) -- ANDN: R218
  | sll (u : UnitAB) (g : Guard) (d : Fin 32) (x y : SSrc) -- SLL: R218
  | srl (u : UnitAB) (g : Guard) (d : Fin 32) (x y : SSrc) -- SRL: R218
  | sra (u : UnitAB) (g : Guard) (d : Fin 32) (x y : SSrc) -- SRA: R218
  | rol (u : UnitAB) (g : Guard) (d : Fin 32) (x y : SSrc) -- ROL: R218
  | min (u : UnitAB) (g : Guard) (d : Fin 32) (x y : SSrc) -- MIN: R218
  | max (u : UnitAB) (g : Guard) (d : Fin 32) (x y : SSrc) -- MAX: R218
  | minu (u : UnitAB) (g : Guard) (d : Fin 32) (x y : SSrc) -- MINU: R218
  | maxu (u : UnitAB) (g : Guard) (d : Fin 32) (x y : SSrc) -- MAXU: R218
  | mul (u : UnitAB) (g : Guard) (d : Fin 32) (x y : SSrc) -- MUL: R218
  | mulh (u : UnitAB) (g : Guard) (d : Fin 32) (x y : SSrc) -- MULH: R218
  | mulhu (u : UnitAB) (g : Guard) (d : Fin 32) (x y : SSrc) -- MULHU: R218
  | div (u : UnitAB) (g : Guard) (d : Fin 32) (x y : SSrc) -- DIV: R219
  | divu (u : UnitAB) (g : Guard) (d : Fin 32) (x y : SSrc) -- DIVU: R219
  | rem (u : UnitAB) (g : Guard) (d : Fin 32) (x y : SSrc) -- REM: R219
  | remu (u : UnitAB) (g : Guard) (d : Fin 32) (x y : SSrc) -- REMU: R219
  | li (u : UnitAB) (g : Guard) (d : Fin 32) (x : SSrc) -- LI: R218
  | bfx (u : UnitAB) (g : Guard) (d : Fin 32) (x y : SSrc) -- BFX: R220
  | bfxu (u : UnitAB) (g : Guard) (d : Fin 32) (x y : SSrc) -- BFXU: R220
  | bfi (u : UnitAB) (g : Guard) (d : Fin 32) (x y : SSrc) -- BFI: R220
  | clz (u : UnitAB) (g : Guard) (d : Fin 32) (x : SSrc) -- CLZ: R218
  | ctz (u : UnitAB) (g : Guard) (d : Fin 32) (x : SSrc) -- CTZ: R218
  | popc (u : UnitAB) (g : Guard) (d : Fin 32) (x : SSrc) -- POPC: R218
  | sel (u : UnitAB) (g : Guard) (d : Fin 32) (n : Fin 16) (x y : SSrc) -- SEL: R218
  | cmp (u : UnitAB) (g : Guard) (k : Fin 8) (c : Cond) (x y : SSrc) -- CMP: R221
  | lea (u : UnitAB) (g : Guard) (d : Fin 32) (x y : SSrc) (sh : Fin 16) -- LEA: R218
  | xmovAB (u : UnitAB) (g : Guard) (fl : File) (d : Fin 32) (x : SSrc) -- XMOV_AB: R222
  | xmovpGet (u : UnitAB) (g : Guard) (d : Fin 32) -- XMOVP_GET: R223
  | xmovpSet (u : UnitAB) (g : Guard) (k : Fin 8) (x : SSrc) -- XMOVP_SET: R223
  | sxt (u : UnitAB) (g : Guard) (d : Fin 32) (x : SSrc) (w1 : Fin 16) -- SXT: R218; `w1` is w - 1
  | zxt (u : UnitAB) (g : Guard) (d : Fin 32) (x : SSrc) (w1 : Fin 16) -- ZXT: R218; `w1` is w - 1
  | abs (u : UnitAB) (g : Guard) (d : Fin 32) (x : SSrc) -- ABS: R218
  | bswap (u : UnitAB) (g : Guard) (d : Fin 32) (x : SSrc) -- BSWAP: R218
  | brev (u : UnitAB) (g : Guard) (d : Fin 32) (x : SSrc) -- BREV: R218
  | cmpu (u : UnitAB) (g : Guard) (k : Fin 8) (c : Cond) (x y : SSrc) -- CMPU: R221
  | ldb (g : Guard) (fl : File) (d : Fin 32) (x y : SSrc) -- LDB: R227
  | ldbu (g : Guard) (fl : File) (d : Fin 32) (x y : SSrc) -- LDBU: R227
  | ldh (g : Guard) (fl : File) (d : Fin 32) (x y : SSrc) -- LDH: R227
  | ldhu (g : Guard) (fl : File) (d : Fin 32) (x y : SSrc) -- LDHU: R227
  | ldw (g : Guard) (fl : File) (d : Fin 32) (x y : SSrc) -- LDW: R227
  | ldd (g : Guard) (d : Fin 8) (x y : SSrc) -- LDD: R227
  | stb (g : Guard) (fl : File) (d : Fin 32) (x y : SSrc) -- STB: R227
  | sth (g : Guard) (fl : File) (d : Fin 32) (x y : SSrc) -- STH: R227
  | stw (g : Guard) (fl : File) (d : Fin 32) (x y : SSrc) -- STW: R227
  | std (g : Guard) (d : Fin 8) (x y : SSrc) -- STD: R227
  | vld (g : Guard) (u : UnitVW) (d : Fin 28) (x y : SSrc) (ext : Option Swizzle) -- VLD: R230, R232
  | vst (g : Guard) (u : UnitVW) (d : Fin 28) (x y : SSrc) (ext : Option Swizzle) -- VST: R230, R232
  | vldth (g : Guard) (u : UnitVW) (d : Fin 28) (x y : SSrc) (ext : Option (Fin 7 × Fin 16)) -- VLDT_H: R233; MODE and Q
  | rld (g : Guard) (fl : File) (d : Fin 32) (x y : SSrc) -- RLD: R234
  | rst (g : Guard) (fl : File) (d : Fin 32) (x y : SSrc) -- RST: R234
  | rvld (g : Guard) (u : UnitVW) (d : Fin 28) (x y : SSrc) (ext : Option Swizzle) -- RVLD: R234
  | rvst (g : Guard) (u : UnitVW) (d : Fin 28) (x y : SSrc) (ext : Option Swizzle) -- RVST: R234
  | qst (g : Guard) (q : Fin 4) (x y : SSrc) -- QST: R238
  | gld (g : Guard) (d : Fin 32) (x y : SSrc) (len4 bar : Fin 1024) -- GLD: R239, R240
  | gst (g : Guard) (d : Fin 32) (x y : SSrc) (len4 bar : Fin 1024) -- GST: R239, R240
  | gatom (g : Guard) (d : Fin 32) (x y : SSrc) (aop : Fin 11) (w64 : Bool) (bar : Fin 1024) -- GATOM: R241
  | mli (g : Guard) (d : Fin 32) (y : SSrc) -- MLI: R229
  | madd (g : Guard) (d : Fin 32) (x y : SSrc) -- MADD: R229
  | xmovM (g : Guard) (fl : File) (d : Fin 32) (x : SSrc) -- XMOV_M: R229
  | irst (g : Guard) (fl : File) (d : Fin 32) (x y : SSrc) (bar : Word) -- IRST: R242
  | vstm (g : Guard) (u : UnitVW) (d : Fin 28) (x y : SSrc) (ext : Option MaskedStore) -- VSTM: R230, R232
  | pld (g : Guard) (vp : Option (Fin 16)) (x y : SSrc) -- PLD: R236; none is the scalar predicates
  | pst (g : Guard) (vp : Option (Fin 16)) (x y : SSrc) -- PST: R236; none is the scalar predicates
  | vadd (u : UnitVW) (lp : Fin 16) (ef : Format) (d : VDst) (a b : VSrc) -- VADD: R267
  | vsub (u : UnitVW) (lp : Fin 16) (ef : Format) (d : VDst) (a b : VSrc) -- VSUB: R267
  | vmul (u : UnitVW) (lp : Fin 16) (ef : Format) (d : VDst) (a b : VSrc) -- VMUL: R267
  | vfma (u : UnitVW) (lp : Fin 16) (ef : Format) (d : Fin 28) (a b : VSrc) -- VFMA: R267; D is also the third source
  | vfms (u : UnitVW) (lp : Fin 16) (ef : Format) (d : Fin 28) (a b : VSrc) -- VFMS: R267; D is also the third source
  | vfnma (u : UnitVW) (lp : Fin 16) (ef : Format) (d : Fin 28) (a b : VSrc) -- VFNMA: R267; D is also the third source
  | vmin (u : UnitVW) (lp : Fin 16) (ef : Format) (d : VDst) (a b : VSrc) -- VMIN: R267
  | vmax (u : UnitVW) (lp : Fin 16) (ef : Format) (d : VDst) (a b : VSrc) -- VMAX: R267
  | vabs (u : UnitVW) (lp : Fin 16) (ef : Format) (d : VDst) (a : VSrc) -- VABS: R270
  | vneg (u : UnitVW) (lp : Fin 16) (ef : Format) (d : VDst) (a : VSrc) -- VNEG: R270
  | vdiv (u : UnitVW) (lp : Fin 16) (ef : Format) (d : VDst) (a b : VSrc) -- VDIV: R269
  | vrcp (u : UnitVW) (lp : Fin 16) (ef : Format) (d : VDst) (a : VSrc) -- VRCP: R267, R269
  | vsqrt (u : UnitVW) (lp : Fin 16) (ef : Format) (d : VDst) (a : VSrc) -- VSQRT: R267, R269
  | vrsqrt (u : UnitVW) (lp : Fin 16) (d : VDst) (a : VSrc) -- VRSQRT: R271
  | vexp2 (u : UnitVW) (lp : Fin 16) (d : VDst) (a : VSrc) -- VEXP2: R271
  | vlog2 (u : UnitVW) (lp : Fin 16) (d : VDst) (a : VSrc) -- VLOG2: R271
  | vsin (u : UnitVW) (lp : Fin 16) (d : VDst) (a : VSrc) -- VSIN: R271
  | vcos (u : UnitVW) (lp : Fin 16) (d : VDst) (a : VSrc) -- VCOS: R271
  | vtanh (u : UnitVW) (lp : Fin 16) (d : VDst) (a : VSrc) -- VTANH: R271
  | vround (u : UnitVW) (lp : Fin 16) (ef : Format) (d : VDst) (a : VSrc) -- VROUND: R272
  | vtrunc (u : UnitVW) (lp : Fin 16) (ef : Format) (d : VDst) (a : VSrc) -- VTRUNC: R272
  | vcvt (u : UnitVW) (lp : Fin 16) (ef sf : Format) (d : VDst) (a : VSrc) (h : Fin 4) -- VCVT: R273
  | vcmpeq (u : UnitVW) (lp : Fin 16) (ef : Format) (k : Fin 8) (a b : VSrc) (wit : Option (Fin 16)) -- VCMPEQ: R274
  | vcmpne (u : UnitVW) (lp : Fin 16) (ef : Format) (k : Fin 8) (a b : VSrc) (wit : Option (Fin 16)) -- VCMPNE: R274
  | vcmplt (u : UnitVW) (lp : Fin 16) (ef : Format) (k : Fin 8) (a b : VSrc) (wit : Option (Fin 16)) -- VCMPLT: R274
  | vcmple (u : UnitVW) (lp : Fin 16) (ef : Format) (k : Fin 8) (a b : VSrc) (wit : Option (Fin 16)) -- VCMPLE: R274
  | vcmpgt (u : UnitVW) (lp : Fin 16) (ef : Format) (k : Fin 8) (a b : VSrc) (wit : Option (Fin 16)) -- VCMPGT: R274
  | vcmpge (u : UnitVW) (lp : Fin 16) (ef : Format) (k : Fin 8) (a b : VSrc) (wit : Option (Fin 16)) -- VCMPGE: R274
  | vsel (u : UnitVW) (lp : Fin 16) (n : Fin 16) (d : VDst) (a b : VSrc) -- VSEL: R278
  | vmov (u : UnitVW) (lp : Fin 16) (d : VDst) (a : VSrc) -- VMOV: R278
  | vbcast (u : UnitVW) (lp : Fin 16) (i : Fin 16) (d : VDst) (a : VSrc) -- VBCAST: R278
  | vpbc (u : UnitVW) (lp : Fin 16) (k : Fin 8) (n : Fin 16) -- VPBC: R277
  | vperm (u : UnitVW) (lp : Fin 16) (d : VDst) (a x : VSrc) -- VPERM: R279
  | gxch (u : UnitVW) (lp : Fin 16) (d : VDst) (a : VSrc) (map : BitVec 24) -- GXCH: R280
  | vxld (u : UnitVW) (lp : Fin 16) (d : VDst) (a x : VSrc) (j : Fin 16) -- VXLD: R281
  | vsum (u : UnitVW) (lp : Fin 16) (ef : Format) (d : VDst) (a : VSrc) -- VSUM: R282
  | vsumc (u : UnitVW) (lp : Fin 16) (ef : Format) (d : VDst) (a : VSrc) -- VSUMC: R282
  | vrmin (u : UnitVW) (lp : Fin 16) (ef : Format) (d : VDst) (a : VSrc) -- VRMIN: R282
  | vrmax (u : UnitVW) (lp : Fin 16) (ef : Format) (d : VDst) (a : VSrc) -- VRMAX: R282
  | vpack (u : UnitVW) (lp : Fin 16) (ef : Format) (d : VDst) (a : VSrc) -- VPACK: R283
  | vunpk (u : UnitVW) (lp : Fin 16) (ef : Format) (d : VDst) (a : VSrc) -- VUNPK: R284
  | visab (u : UnitVW) (lp : Fin 16) (ef : Format) (k : Fin 8) (a : VSrc) -- VISAB: R275
  | vmkab (u : UnitVW) (lp : Fin 16) (ef : Format) (d : VDst) (a : VSrc) (n : Fin 16) -- VMKAB: R275
  | vand (u : UnitVW) (lp : Fin 16) (ef : Format) (d : VDst) (a b : VSrc) -- VAND: R267
  | vor (u : UnitVW) (lp : Fin 16) (ef : Format) (d : VDst) (a b : VSrc) -- VOR: R267
  | vxor (u : UnitVW) (lp : Fin 16) (ef : Format) (d : VDst) (a b : VSrc) -- VXOR: R267
  | vshl (u : UnitVW) (lp : Fin 16) (ef : Format) (d : VDst) (a b : VSrc) -- VSHL: R267
  | vshr (u : UnitVW) (lp : Fin 16) (ef : Format) (d : VDst) (a b : VSrc) -- VSHR: R267
  | vsra (u : UnitVW) (lp : Fin 16) (ef : Format) (d : VDst) (a b : VSrc) -- VSRA: R267
  | vpand (u : UnitVW) (lp : Fin 16) (k : Fin 8) (a b : Fin 16) -- VPAND: R276
  | vpor (u : UnitVW) (lp : Fin 16) (k : Fin 8) (a b : Fin 16) -- VPOR: R276
  | vpxor (u : UnitVW) (lp : Fin 16) (k : Fin 8) (a b : Fin 16) -- VPXOR: R276
  | vpnot (u : UnitVW) (lp : Fin 16) (k : Fin 8) (a : Fin 16) -- VPNOT: R276
  | vlane (u : UnitVW) (lp : Fin 16) (d : VDst) -- VLANE: R278
  | vscl (u : UnitVW) (lp : Fin 16) (ef : Format) (d : VDst) (a b : VSrc) -- VSCL: R267
  | vclamp (u : UnitVW) (lp : Fin 16) (ef : Format) (d : Fin 28) (a b : VSrc) -- VCLAMP: R267; D is also the third source
  | vsgnj (u : UnitVW) (lp : Fin 16) (ef : Format) (d : VDst) (a b : VSrc) -- VSGNJ: R270
  | vsigm (u : UnitVW) (lp : Fin 16) (d : VDst) (a : VSrc) -- VSIGM: R271
  | vpcnt (u : UnitVW) (lp : Fin 16) (d : VDst) (n : Fin 16) -- VPCNT: R277
  | xmovV (u : UnitVW) (lp : Fin 16) (fl : File) (d : Fin 32) (a : VSrc) -- XMOV_V: R285
  | mcall (g : Guard) (idx : Fin 64) -- MCALL: R296
  | mload (g : Guard) (s b : Fin 8) -- MLOAD: R297
  | xli (g : Guard) (d : Fin 8) (v : Imm16) -- XLI: R295
  | xlih (g : Guard) (d : Fin 8) (v : Imm16) -- XLIH: R295
  | xadd (g : Guard) (d s : Fin 8) (v : Imm15) -- XADD: R295
  | xins (g : Guard) (d s : Fin 8) (pos len1 : Fin 64) -- XINS: R295; `len1` is LEN - 1
  | xmovX (g : Guard) (s : Fin 8) (fl : File) (d : Fin 32) (hi : Bool) -- XMOV_X: R295
  | mqclr (g : Guard) (mask : BitVec 4) -- MQCLR: R298
  | mcancel (g : Guard) -- MCANCEL: R299
  | cpy (g : Guard) (slot : Fin 16) (x y : SSrc) (nb rel acq : Bool) -- CPY: R248
  | cpy2d (g : Guard) (slot : Fin 16) (x y : SSrc) (nb rel acq : Bool) -- CPY2D: R248
  | cpyt (g : Guard) (slot : Fin 16) (x y : SSrc) (nb rel acq : Bool) -- CPYT: R248, R249
  | cpyg (g : Guard) (slot : Fin 16) (x y : SSrc) (nb rel acq : Bool) -- CPYG: R248
  | cpys (g : Guard) (slot : Fin 16) (x y : SSrc) (nb rel acq : Bool) -- CPYS: R248
  | strm (g : Guard) (slot : Fin 16) (x y : SSrc) (nb rel acq : Bool) -- STRM: R250
  | strmx (g : Guard) (slot : Fin 16) (x y : SSrc) (nb rel acq : Bool) -- STRMX: R251
  | cpyx (g : Guard) (slot : Fin 16) (x y : SSrc) (nb rel acq : Bool) -- CPYX: R252
  | mcast (g : Guard) (slot : Fin 16) (x y : SSrc) (nb rel acq : Bool) -- MCAST: R253
  | rot (g : Guard) (x y : SSrc) (cnt dir : Bool) (len1 bar : Fin 1024) -- ROT: R254; `len1` is L
  | binit (g : Guard) (x y : SSrc) (scope : Fin 7) -- BINIT: R104, R255
  | bidle (g : Guard) (x : SSrc) -- BIDLE: R255
  | barv (g : Guard) (x y : SSrc) -- BARV: R255
  | qpush (g : Guard) (x y : SSrc) (q : Fin 4) -- QPUSH: R257
  | tsort (g : Guard) (slot : Fin 16) (x y : SSrc) (nb rel acq : Bool) -- TSORT: R258
  | fli (g : Guard) (d : Fin 16) (x : SSrc) -- FLI: R243
  | fadd (g : Guard) (d : Fin 16) (x y : SSrc) -- FADD: R243
  | fsub (g : Guard) (d : Fin 16) (x y : SSrc) -- FSUB: R243
  | fsll (g : Guard) (d : Fin 16) (x y : SSrc) -- FSLL: R243
  | xmovF (g : Guard) (fl : File) (d : Fin 32) (x : SSrc) -- XMOV_F: R243
  | cpstat (g : Guard) (d : Fin 16) (x : SSrc) -- CPSTAT: R243
  | cpfill (g : Guard) (slot : Fin 16) (x y : SSrc) (nb rel acq : Bool) -- CPFILL: R248
  | sqcfg (g : Guard) (slot : Fin 16) (x y : SSrc) (nb rel acq : Bool) -- SQCFG: R399
  | sqbind (g : Guard) (slot : Fin 16) (x y : SSrc) (nb rel acq : Bool) -- SQBIND: R400
  | sqstage (g : Guard) (slot : Fin 16) (x y : SSrc) (nb rel acq : Bool) -- SQSTAGE: R401
  | sqtake (g : Guard) (slot : Fin 16) (x y : SSrc) (nb rel acq : Bool) -- SQTAKE: R402
  | sqjudge (g : Guard) (slot : Fin 16) (y : SSrc) (nb rel acq : Bool) -- SQJUDGE: R403
  | sqstat (g : Guard) (slot : Fin 16) (x y : SSrc) (nb rel acq : Bool) -- SQSTAT: R405
  | bnet (g : Guard) (d : Fin 16) (x y : SSrc) (pat : Fin 8) -- BNET: R291
  | bnld (g : Guard) (x y : SSrc) (pat : Fin 8) -- BNLD: R290
  | nfill (g : Guard) (d : Fin 16) (x : SSrc) (wc : Fin 3) -- NFILL: R287
  | nli (g : Guard) (d : Fin 16) (x : SSrc) -- NLI: R287
  | nadd (g : Guard) (d : Fin 16) (x y : SSrc) -- NADD: R287
  | xmovN (g : Guard) (fl : File) (d : Fin 32) (x : SSrc) -- XMOV_N: R287
  | idleBundle -- IDLE_BUNDLE: R144
  | loopEndMark -- LOOP_END_MARK: R190
  | segmentMark -- SEGMENT_MARK: R171
  | queuePop (mask : BitVec 8) -- QUEUE_POP: R143
  | mend -- MEND: R304
  | mstep (sw : Fin 16) -- MSTEP: R306
  | mclr -- MCLR: R307
  | mloop (endAddr : Fin 2048) (count : Fin 512) -- MLOOP: R305
  | mloopZ (z : Fin 8) (sh : Fin 16) (endAddr : Fin 2048) -- MLOOP_Z: R305
  | mendl -- MENDL: R305
  | madv (d : Fin 8) (imm : BitVec 24) -- MADV: R304
  | madvParam (d : Fin 8) (pw : Fin 16) -- MADV_PARAM: R304
  | mshape -- MSHAPE: R308
  | mdrain (pw : Fin 16) (clr : Bool) -- MDRAIN: R309
  | mwaitb (z : Fin 8) (inc : Bool) -- MWAITB: R310
  | msig (z : Fin 8) (bytes : BitVec 12) -- MSIG: R311
  | mset (d : Fin 8) (imm : BitVec 24) -- MSET: R304
  | msetParam (d : Fin 8) (pw : Fin 16) -- MSET_PARAM: R304
  | mmad (d z : Fin 8) (pw : Fin 16) -- MMAD: R304
  | mskz (z : Fin 8) (n : BitVec 8) -- MSKZ: R304
  | mjmp (target : Fin 2048) -- MJMP: R304
  | mnop -- MNOP: R304
  | mfence -- MFENCE: R304
  | mcallAccept (core : Nat) -- MCALL_ACCEPT: R296
  | drainPush (core : Nat) -- DRAIN_PUSH: R309
  | mloadInstall (core : Nat) -- MLOAD_INSTALL: R297
  | nopPacket (q : Nat) -- NOP_PACKET: R326
  | launchPacket (q : Nat) -- LAUNCH_PACKET: R328
  | graphPacket (q : Nat) -- GRAPH_PACKET: R331
  | sealPacket (q : Nat) -- SEAL_PACKET: R326
  | copyPacket (q : Nat) -- COPY_PACKET: R326
  | signalPacket (q : Nat) -- SIGNAL_PACKET: R326
  | waitPacket (q : Nat) -- WAIT_PACKET: R326
  | fencePacket (q : Nat) -- FENCE_PACKET: R333
  | waitPoll (q : Nat) -- WAIT_POLL: R326
  | packetAcceptance (q : Nat) -- PACKET_ACCEPTANCE: R327
  | packetCompletion (seq : Nat) -- PACKET_COMPLETION: R327; the journal number of the packet
  | graphNodeDispatch (seq node : Nat) -- GRAPH_NODE_DISPATCH: R331
  | qtailNotification (q : Nat) (value : Dword) -- QTAIL_NOTIFICATION: R322
  | queueEnable (q : Nat) (value : Dword) -- QUEUE_ENABLE: R322
  | queueDisable (q : Nat) (value : Dword) -- QUEUE_DISABLE: R323
  | handleEntryWrite (die h : Nat) (word : Fin 4) (value : Dword) -- HANDLE_ENTRY_WRITE: R93
  | tlbinvAll (die : Nat) -- TLBINV_ALL: R97
  | tlbinvProgram (die : Nat) (program : BitVec 16) -- TLBINV_PROGRAM: R97
  | tlbinvPage (die : Nat) (program : BitVec 16) (page : BitVec 36) -- TLBINV_PAGE: R97
  | tlbinvComplete (die : Nat) -- TLBINV_COMPLETE: R97
  | attestationRequest -- ATTESTATION_REQUEST: R428
  | attestationComplete -- ATTESTATION_COMPLETE: R428
  | debugUnlock -- DEBUG_UNLOCK: R429
  | debugStopRequest (core : Nat) -- DEBUG_STOP_REQUEST: R416
  | debugPreemptRequest (core : Nat) -- DEBUG_PREEMPT_REQUEST: R416
  | debugResume (core : Nat) -- DEBUG_RESUME: R417
  | dbgdataWrite (core : Nat) (value : Dword) -- DBGDATA_WRITE: R417
  | replayGo (value : Dword) -- REPLAY_GO: R419
  | traceEnable (value : Dword) -- TRACE_ENABLE: R408
  | alarmClear (value : Dword) -- ALARM_CLEAR: R422
  | lclkWrite (die : Nat) (value : Dword) -- LCLK_WRITE: R431
  | clockRatioChange (die : Nat) (far : Bool) -- CLOCK_RATIO_CHANGE: R111
  | wdcfgWrite (value : Dword) -- WDCFG_WRITE: R355
  | cstateWrite (core : Nat) (value : Word) -- CSTATE_WRITE: R388
  | lossCounterClear (core cls bank : Nat) -- LOSS_COUNTER_CLEAR: R412
  | registerWrite (offset : Nat) (value : Dword) -- REGISTER_WRITE: R6; the offset in region 3
  | hostRead (bar offset n : Nat) -- HOST_READ: R420
  | hostWrite (bar offset n : Nat) (value : Dword) -- HOST_WRITE: R421
  | coldBoot (verdict : Bool) -- COLD_BOOT: R427; the root of trust's verdict on the image
  | selfTest (failing : List BankFailure) -- SELF_TEST: R389; what the test of the arrays finds
  | functionLevelReset -- FUNCTION_LEVEL_RESET: R421
  | resultDue (core : Nat) -- RESULT_DUE: R31
  | remoteLoadDelivery (core : Nat) -- REMOTE_LOAD_DELIVERY: R71
  | bankArbitration (core layer bank : Nat) -- BANK_ARBITRATION: R85
  | lichenCycle (core : Nat) (work : LichenWork) -- LICHEN_CYCLE: R35; what the firmware does in it
  | rotDelivery (gid : Nat) -- ROT_DELIVERY: R254
  | messageArrival (core : Nat) -- MESSAGE_ARRIVAL: R257
  | pageTableWalk (cluster program page : Nat) -- PAGE_TABLE_WALK: R94
  | globalAccessPerform (id : Nat) -- GLOBAL_ACCESS_PERFORM: R240
  | engineCommandStart (engine : Nat) -- ENGINE_COMMAND_START: R87
  | engineCommandCompletion (engine id : Nat) -- ENGINE_COMMAND_COMPLETION: R246
  | segmentCopyLands (core : Nat) (slot : Fin 4) -- SEGMENT_COPY_LANDS: R172
  | sorusDispatch (cluster : Nat) -- SORUS_DISPATCH: R338
  | steal (cluster : Nat) -- STEAL: R339
  | stealTake (cluster : Nat) -- STEAL_TAKE: R339
  | suspensionPointComplete (gid : Nat) -- SUSPENSION_POINT_COMPLETE: R29
  | trapVectoring (gid : Nat) -- TRAP_VECTORING: R351
  | taskLimitExpiry (gid : Nat) -- TASK_LIMIT_EXPIRY: R355
  | saveModeCutoff (gid : Nat) -- SAVE_MODE_CUTOFF: R355
  | rollback -- ROLLBACK: R379
  | sealPeriodExpiry -- SEAL_PERIOD_EXPIRY: R376
  | sealRequestMessage (device : Nat) -- SEAL_REQUEST_MESSAGE: R376
  | quiesceWindowExpiry -- QUIESCE_WINDOW_EXPIRY: R377
  | sealCheckpoint -- SEAL_CHECKPOINT: R377
  | quiescedReport -- QUIESCED_REPORT: R377
  | quiescedMessage (device : Nat) -- QUIESCED_MESSAGE: R377
  | cutMessage -- CUT_MESSAGE: R377
  | readyReport -- READY_REPORT: R377
  | readyMessage (device : Nat) -- READY_MESSAGE: R377
  | commitMessage -- COMMIT_MESSAGE: R377
  | abortMessage -- ABORT_MESSAGE: R378
  | sealTimeout -- SEAL_TIMEOUT: R378
  | settleWalkComplete (interval : Nat) -- SETTLE_WALK_COMPLETE: R371
  | egressGapExpiry -- EGRESS_GAP_EXPIRY: R380
  | scrubPass (core layer bank : Nat) (corrected : Option Nat) (bad : List Nat) -- SCRUB_PASS: R392; what the pass over one bank finds: the errors corrected, and the addresses of the rows it cannot correct; layer 0 is LPDDR-6; none where a demand read met the rows (R393)
  | bankSubstitutionComplete (core layer bank : Nat) (lane : Option (Fin 8 × Fin 256)) -- BANK_SUBSTITUTION_COMPLETE: R393; a bank, or a lane of a bond group
  | quarantineTest (core : Nat) (fails : Bool) -- QUARANTINE_TEST: R388; what the test of the core finds
  | ptmMeasurement (granted : Bool) (offset : Int) -- PTM_MEASUREMENT: R407; the measured offset in ns
  | thermalSample (die column : Nat) (raw : Int) -- THERMAL_SAMPLE: R434; the reading in 1/8 degree
  | clockThrottle (die : Nat) (level : Fin 4) -- CLOCK_THROTTLE: R432
  | flitRetry (link : Nat) -- FLIT_RETRY: R423
  | linkDown (link : Nat) -- LINK_DOWN: R423
  | peerUnreachable (device : Nat) -- PEER_UNREACHABLE: R425
  | frameReceive (addr : Nat) (bytes : List Byte) -- FRAME_RECEIVE: R426
  | glitchSensor -- GLITCH_SENSOR: R430
  | allocationHandover (base : Nat) (extent : Extent) -- ALLOCATION_HANDOVER: R109
  | peerAccessArrival (device : Nat) (access : PeerAccess) -- PEER_ACCESS_ARRIVAL: R436
deriving DecidableEq, Repr

end Sys2Proof
end

