-- ==== Sys2Proof/Decode.lean ====
section
/-! DEFINITION. Decoding and encoding: the codes of guards, files, formats, sources and destinations, the decoder
of a slot word with its extension words, of a micro-op and of a bundle header, each total and rejecting by name, and
after them the encoder, written from the same tables of the spec (R142 to R163, R183, R206, R230, R239, R254, R264, R287,
R294, R303). -/

namespace Sys2Proof

/-- Why a word is not the encoding of an instruction (R145). -/
inductive Reject where
  /-- CX = 3: the word is no header (R142). -/
  | cxReserved
  /-- SCOPE = 7 (R120). -/
  | scopeReserved
  /-- An EXT bit for a slot that is absent, or CX for an absent C slot (R145). -/
  | extensionOfAbsentSlot
  /-- An opcode without a form in its slot's map (R156). -/
  | opcode
  /-- A guard code of 21 to 31, or a path guard in the C slot (R152, R183). -/
  | guardCode
  /-- A path guard the bundle's tree cannot select, or without a tree (R154, R187). -/
  | pathGuard
  /-- A reserved operand or destination code, or one the form does not accept (R149, R150). -/
  | operand
  /-- A file code the form does not accept (R148, R222, R227). -/
  | fileCode
  /-- A format code the form does not accept (R262). -/
  | formatCode
  /-- A field the form leaves unused, or a reserved field, is not zero (R148). -/
  | unusedField
  /-- An extension word that is missing or that the form does not read (R155). -/
  | extensionWord
  /-- A queue head read without its POP bit (R151). -/
  | queueHeadWithoutPop
  /-- An instruction target with bits [1:0] not zero (R183). -/
  | targetAlignment
  /-- A control register number that is not listed (R206). -/
  | csrNumber
  /-- A field value out of the range its form gives. -/
  | fieldRange
deriving DecidableEq, Repr

/-- The nine slots of a bundle in slot order (R142), and the two other places an encoding stands in: the matrix
microprogram store (R301) and the header (R143). -/
inductive Slot where
  | c | a | b | m | v | w | x | f | n
  | micro
  | header
deriving DecidableEq, Repr

/-- Answers when the condition holds, and rejects by name otherwise. -/
def need (cond : Bool) (r : Reject) : Except Reject Unit := if cond then .ok () else .error r

/-! Formats (R39, R262). -/

/-- The code of a format (R39). -/
def Format.code : Format → Nat
  | .fp32 => 0 | .fp16 => 1 | .bf16 => 2 | .i8 => 3 | .i16 => 4 | .i32 => 5
  | .bx4 => 6 | .bx6 => 7 | .bx9 => 8 | .b8 => 9 | .b16 => 10 | .b32 => 11

/-- The format of a code; codes 12 to 15 are reserved (R39). -/
def Format.ofCode : Nat → Option Format
  | 0 => some .fp32 | 1 => some .fp16 | 2 => some .bf16 | 3 => some .i8 | 4 => some .i16 | 5 => some .i32
  | 6 => some .bx4 | 7 => some .bx6 | 8 => some .bx9 | 9 => some .b8 | 10 => some .b16 | 11 => some .b32
  | _ => none

/-- Class I: the floating-point formats (R262). -/
def Format.isFloat : Format → Bool
  | .fp32 | .fp16 | .bf16 => true
  | _ => false

/-- Class Z: the signed integer formats (R262). -/
def Format.isInt : Format → Bool
  | .i8 | .i16 | .i32 => true
  | _ => false

/-- The raw formats (R262). -/
def Format.isRaw : Format → Bool
  | .b8 | .b16 | .b32 => true
  | _ => false

/-- Class X: the block formats (R262). -/
def Format.isBlock : Format → Bool
  | .bx4 | .bx6 | .bx9 => true
  | _ => false

/-- A format of elements: any class but X (R264). -/
def Format.isElement (e : Format) : Bool := !e.isBlock

/-- Class I or Z: a format of elements that has an absent code (R42, R262). -/
def Format.hasAbsent (e : Format) : Bool := e.isFloat || e.isInt

/-- The formats of `vsumc` (R264). -/
def Format.isSum : Format → Bool
  | .fp32 | .i32 => true
  | _ => false

/-- The formats of the compares (R264). -/
def Format.isCompare : Format → Bool
  | .fp32 | .i32 | .b32 => true
  | _ => false

/-- The width in bits of an element (R260); 8 for the block formats, which no form divides into elements. -/
def Format.width : Format → Nat
  | .fp32 | .i32 | .b32 => 32
  | .fp16 | .bf16 | .i16 | .b16 => 16
  | _ => 8

/-- The elements in one lane (R260). -/
def Format.perLane (e : Format) : Nat := 32 / e.width

/-! Files (R148) and destinations (R150, R222, R227). -/

/-- The code of a file (R148). -/
def File.code : File → Nat
  | .a => 0 | .b => 1 | .c => 2 | .m => 3 | .v => 4 | .w => 5 | .x => 6 | .f => 7 | .n => 8
  | .preds => 9 | .vpreds => 10

/-- The file of a code; codes 11 to 15 are reserved (R148). -/
def File.ofCode : Nat → Option File
  | 0 => some .a | 1 => some .b | 2 => some .c | 3 => some .m | 4 => some .v | 5 => some .w | 6 => some .x
  | 7 => some .f | 8 => some .n | 9 => some .preds | 10 => some .vpreds
  | _ => none

/-- Register `d` lies in the range of a file of registers (R13, R227); the predicate files are no destination here. -/
def File.accepts (fl : File) (d : Nat) : Bool :=
  match fl with
  | .a | .b | .m => d < 32
  | .c | .f | .n => d < 16
  | .v | .w => d < 28
  | .x => d < 8
  | .preds | .vpreds => false

/-- The file and register are a destination of an `xmov`: code 31 of V and W, which would enter a latch stack alone, enters none
(R150). -/
def File.acceptsXmov (fl : File) (d : Nat) : Bool := fl.accepts d || ((fl == .v || fl == .w) && d == 31)

/-- The file and register are a destination of a load: as `accepts`, but not a0 or b0 (R150). -/
def File.acceptsLoad (fl : File) (d : Nat) : Bool :=
  fl.accepts d && !((fl == .a || fl == .b) && d == 0)

/-- The file named by a code, if the form accepts it with register `d`. -/
def fileOf (accepts : File → Nat → Bool) (code d : Nat) : Except Reject File :=
  match File.ofCode code with
  | none => .error .fileCode
  | some fl =>
    if fl = .preds ∨ fl = .vpreds then .error .fileCode
    else if accepts fl d then .ok fl else .error .operand

/-- The file of a vector register as a unit (R230). -/
def unitOf (code : Nat) : Except Reject UnitVW :=
  if code = 4 then .ok .v else if code = 5 then .ok .w else .error .fileCode

/-- The file code of a unit. -/
def UnitVW.code : UnitVW → Nat
  | .v => 4
  | .w => 5

/-! Guards and sources (R149, R152). -/

/-- A guard code (R152). -/
def guardOf (code : Nat) : Except Reject Guard :=
  if code < 16 then .ok (.p (Fin.ofNat 16 code))
  else if code < 21 then .ok (.t (Fin.ofNat 5 (code - 16)))
  else .error .guardCode

/-- A guard code of the C slot, where only the scalar predicates stand (R147, R183). -/
def guardOfC (code : Nat) : Except Reject Guard :=
  if code < 16 then .ok (.p (Fin.ofNat 16 code)) else .error .guardCode

/-- The code of a guard (R152). -/
def Guard.code : Guard → Nat
  | .p i => i.val
  | .t i => 16 + i.val

/-- A source code of a scalar slot whose file has `regs` registers (R149). -/
def srcOf (regs : Nat) (ext : Option Nat) (code : Nat) : Except Reject SSrc :=
  if code < 32 then
    if code < regs then .ok (.reg (Fin.ofNat 32 code)) else .error .operand
  else if code < 36 then .ok (.latch (Fin.ofNat 4 (code - 32)))
  else if code < 44 then .ok (.qhead (Fin.ofNat 8 (code - 36)))
  else if code < 48 then .error .operand
  else if code < 63 then .ok (.const (Fin.ofNat 15 (code - 48)))
  else match ext with
    | some e => .ok (.lit (BitVec.ofNat 32 e))
    | none => .error .extensionWord

/-- The code of a scalar source (R149). -/
def SSrc.code : SSrc → Nat
  | .reg r => r.val
  | .latch i => 32 + i.val
  | .qhead q => 36 + q.val
  | .const c => 48 + c.val
  | .lit _ => 63

/-- The literal of a scalar source. -/
def SSrc.literal : SSrc → Option Word
  | .lit v => some v
  | _ => none

/-- A source code of a vector slot (R149). -/
def vsrcOf (ext : Option Nat) (code : Nat) : Except Reject VSrc :=
  if code < 28 then .ok (.reg (Fin.ofNat 28 code))
  else if code < 32 then .error .operand
  else if code < 36 then .ok (.latch (Fin.ofNat 4 (code - 32)))
  else if code < 44 then .ok (.qhead (Fin.ofNat 8 (code - 36)))
  else if code < 63 then .error .operand
  else match ext with
    | some e => .ok (.lit (BitVec.ofNat 32 e))
    | none => .error .extensionWord

/-- The code of a vector source (R149). -/
def VSrc.code : VSrc → Nat
  | .reg r => r.val
  | .latch i => 32 + i.val
  | .qhead q => 36 + q.val
  | .lit _ => 63

/-- The literal of a vector source. -/
def VSrc.literal : VSrc → Option Word
  | .lit v => some v
  | _ => none

/-- A destination code of a vector slot (R150). -/
def vdstOf (code : Nat) : Except Reject VDst :=
  if code < 28 then .ok (.reg (Fin.ofNat 28 code))
  else if code = 31 then .ok .latchOnly
  else .error .operand

/-- The code of a vector destination (R150). -/
def VDst.code : VDst → Nat
  | .reg r => r.val
  | .latchOnly => 31

/-- A destination that is also a source names a register (R263). -/
def vregOf (code : Nat) : Except Reject (Fin 28) :=
  if code < 28 then .ok (Fin.ofNat 28 code) else .error .operand

/-- A number below `n`, as the form needs it. -/
def below (n : Nat) [NeZero n] (code : Nat) (r : Reject) : Except Reject (Fin n) :=
  if code < n then .ok (Fin.ofNat n code) else .error r

/-- The condition of a compare (R221). -/
def condOf : Nat → Except Reject Cond
  | 0 => .ok .eq | 1 => .ok .ne | 2 => .ok .lt | 3 => .ok .le | 4 => .ok .gt | 5 => .ok .ge
  | _ => .error .fieldRange

/-- The code of a condition (R221). -/
def Cond.code : Cond → Nat
  | .eq => 0 | .ne => 1 | .lt => 2 | .le => 3 | .gt => 4 | .ge => 5

/-- The format of a code, if its class is the form's (R262). -/
def formatOf (accepts : Format → Bool) (code : Nat) : Except Reject Format :=
  match Format.ofCode code with
  | some e => if accepts e then .ok e else .error .formatCode
  | none => .error .formatCode

/-- The extension word is there exactly when one of the sources is a literal (R155). -/
def literalOnly (ext : Option Nat) (x y : Option Word) : Except Reject Unit :=
  need (ext.isSome == (x.isSome || y.isSome)) .extensionWord

/-- No extension word (R155). -/
def noExtension (ext : Option Nat) : Except Reject Unit := need ext.isNone .extensionWord

/-- The extension word that the form requires (R155). -/
def required (ext : Option Nat) : Except Reject Nat :=
  match ext with
  | some e => .ok e
  | none => .error .extensionWord

/-- Neither source is a literal, in a form whose extension word holds other fields (R155). -/
def noLiteral (x y : Option Word) : Except Reject Unit := need (x.isNone && y.isNone) .operand

/-! The C slot (R157, R183). -/

/-- The control register numbers (R206). -/
def csrListed (n : Nat) : Bool :=
  n ≤ 0xC || (0x10 ≤ n && n ≤ 0x1C) || (0x20 ≤ n && n ≤ 0x27) || (0x30 ≤ n && n ≤ 0x35) || (0x40 ≤ n && n ≤ 0x4F)

/-- The tests and targets a tree shape uses (R187). -/
def shapeUses : Fin 8 → Nat × Nat
  | 0 => (1, 1) | 1 => (2, 2) | 2 => (3, 3) | 3 => (4, 4)
  | 4 => (3, 3) | 5 => (3, 4) | 6 => (4, 4) | 7 => (4, 4)

/-- The C extension words a tree shape takes (R187). -/
def shapeWords (sh : Fin 8) : Nat := if sh.val < 2 then 1 else 2

/-- The forms of the C slot (R157, R183). -/
def decodeC (w : Nat) (ext : List Nat) : Except Reject Instr := do
  let g ← guardOfC (field w 21 5)
  let body := field w 0 21
  let k1 := Fin.ofNat 16 (field w 17 4)
  let none' := need ext.isEmpty .extensionWord
  let zero (lo n : Nat) := need (field w lo n == 0) .unusedField
  match field w 26 6 with
  | 0x01 => do none'; .ok (.jmp g (BitVec.ofNat 21 body))
  | 0x02 => do zero 0 21; .jmpl g <$> target ext
  | 0x03 => do none'; zero 0 17; .ok (.jr g k1)
  | 0x04 => do none'; .ok (.call g (BitVec.ofNat 21 body))
  | 0x05 => do zero 0 21; .calll g <$> target ext
  | 0x06 => do none'; zero 0 21; .ok (.ret g)
  | 0x07 => tree g w ext
  | 0x08 => do none'; .ok (.loop g k1 (BitVec.ofNat 17 (field w 0 17)))
  | 0x09 => do
    zero 17 4
    match ext with
    | [e] => .ok (.loopi g (BitVec.ofNat 17 (field w 0 17)) (BitVec.ofNat 32 e))
    | _ => .error .extensionWord
  | 0x0A => do none'; zero 0 21; .ok (.lexit g)
  | 0x0B => do
    zero 0 14
    need (field w 14 1 == 0 || field w 15 2 == 0) .unusedField
    let wl := if field w 14 1 = 1 then none else some (Fin.ofNat 4 (field w 15 2))
    match ext with
    | [] => .ok (.susp g k1 wl)
    | _ => do zero 17 4; let t ← target ext; .ok (.suspTarget g t wl)
  | 0x0C => do none'; zero 0 21; .ok (.endTask g)
  | 0x0D => do none'; zero 0 13; .ok (.spawn g k1 (Fin.ofNat 16 (field w 13 4)))
  | 0x0E => do none'; zero 0 9; .ok (.spawnn g k1 (Fin.ofNat 16 (field w 13 4)) (Fin.ofNat 16 (field w 9 4)))
  | 0x0F => do
    zero 0 17
    match ext with
    | [] => .ok (.setfmt g k1)
    | [e] => do zero 17 4; .ok (.setfmtValue g (BitVec.ofNat 32 e))
    | _ => .error .extensionWord
  | 0x10 => do none'; zero 0 21; .ok (.qwait g)
  | 0x11 => do none'; zero 0 21; .ok (.drain g)
  | 0x12 => do none'; zero 16 5; .ok (.trap g (BitVec.ofNat 16 (field w 0 16)))
  | 0x13 => do none'; zero 0 17; .ok (.rft g k1)
  | 0x14 => do
    none'; zero 12 5
    need (csrListed (field w 0 12)) .csrNumber
    .ok (.csrr g k1 (BitVec.ofNat 12 (field w 0 12)))
  | 0x15 => do
    zero 12 5
    need (csrListed (field w 0 12)) .csrNumber
    match ext with
    | [] => .ok (.csrw g k1 (BitVec.ofNat 12 (field w 0 12)))
    | [e] => do zero 17 4; .ok (.csrwValue g (BitVec.ofNat 12 (field w 0 12)) (BitVec.ofNat 32 e))
    | _ => .error .extensionWord
  | 0x16 => do none'; zero 17 4; .ok (.rgopen g (BitVec.ofNat 17 (field w 0 17)))
  | 0x17 => do none'; zero 0 21; .ok (.rgclose g)
  | 0x18 => do none'; zero 0 21; .ok (.seal g)
  | 0x19 => do
    zero 0 17
    match ext with
    | [] => .ok (.irrev g k1)
    | _ => do zero 17 4; .irrevTarget g <$> target ext
  | 0x1A => do
    none'; zero 7 14
    need (field w 0 7 ≤ 64) .fieldRange
    .ok (.lshare g (BitVec.ofNat 7 (field w 0 7)))
  | 0x1B => do none'; zero 16 5; .ok (.brk g (BitVec.ofNat 16 (field w 0 16)))
  | 0x1C => do
    none'; zero 0 8
    let fl ← fileOf File.acceptsXmov (field w 8 4) (field w 12 5)
    .ok (.xmovC g k1 fl (Fin.ofNat 32 (field w 12 5)))
  | 0x1D =>
    match ext with
    | [] => .ok (.kli g k1 (BitVec.ofNat 17 (field w 0 17)))
    | [e] => do zero 0 17; .ok (.kliLong g k1 (BitVec.ofNat 32 e))
    | _ => .error .extensionWord
  | _ => .error .opcode
where
  target (ext : List Nat) : Except Reject Word :=
    match ext with
    | [e] => if e % 4 = 0 then .ok (BitVec.ofNat 32 e) else .error .targetAlignment
    | _ => .error .extensionWord
  tree (g : Guard) (w : Nat) (ext : List Nat) : Except Reject Instr := do
    need (field w 20 1 == 0) .unusedField
    let sh ← below 8 (field w 16 4) .fieldRange
    need (ext.length == shapeWords sh) .extensionWord
    let e0 := ext.getD 0 0
    let e1 := ext.getD 1 0
    let (qs, ts) := shapeUses sh
    need (decide (2 ≤ qs) || field w 8 4 == 0) .unusedField
    need (decide (3 ≤ qs) || field w 4 4 == 0) .unusedField
    need (decide (4 ≤ qs) || field w 0 4 == 0) .unusedField
    need (decide (2 ≤ ts) || field e0 16 16 == 0) .unusedField
    need (decide (4 ≤ ts) || field e1 16 16 == 0) .unusedField
    .ok (.mbr g sh (Fin.ofNat 16 (field w 12 4)) (Fin.ofNat 16 (field w 8 4)) (Fin.ofNat 16 (field w 4 4))
      (Fin.ofNat 16 (field w 0 4)) (BitVec.ofNat 16 (field e0 0 16)) (BitVec.ofNat 16 (field e0 16 16))
      (BitVec.ofNat 16 (field e1 0 16)) (BitVec.ofNat 16 (field e1 16 16)))

/-! The A and B slots (R158, R218). -/

/-- The forms of two sources and a destination. -/
def abBinary : Nat → Option (UnitAB → Guard → Fin 32 → SSrc → SSrc → Instr)
  | 0x1 => some .add
  | 0x2 => some .sub
  | 0x3 => some .and
  | 0x4 => some .or
  | 0x5 => some .xor
  | 0x6 => some .andn
  | 0x7 => some .sll
  | 0x8 => some .srl
  | 0x9 => some .sra
  | 0xa => some .rol
  | 0xb => some .min
  | 0xc => some .max
  | 0xd => some .minu
  | 0xe => some .maxu
  | 0xf => some .mul
  | 0x10 => some .mulh
  | 0x11 => some .mulhu
  | 0x12 => some .div
  | 0x13 => some .divu
  | 0x14 => some .rem
  | 0x15 => some .remu
  | 0x17 => some .bfx
  | 0x18 => some .bfxu
  | 0x19 => some .bfi
  | _ => none

/-- The forms of one source and a destination. -/
def abUnary : Nat → Option (UnitAB → Guard → Fin 32 → SSrc → Instr)
  | 0x16 => some .li
  | 0x1a => some .clz
  | 0x1b => some .ctz
  | 0x1c => some .popc
  | 0x24 => some .abs
  | 0x25 => some .bswap
  | 0x26 => some .brev
  | _ => none

/-- The forms of the A and B slots (R158, R217 to R223). -/
def decodeAB (u : UnitAB) (w : Nat) (ext : Option Nat) : Except Reject Instr := do
  let g ← guardOf (field w 21 5)
  let d := Fin.ofNat 32 (field w 16 5)
  let k := Fin.ofNat 8 (field w 16 3)
  let fn := field w 0 4
  let pair := need (field w 19 2 == 0) .unusedField
  let noFn := need (fn == 0) .unusedField
  let one : Except Reject SSrc := do
    need (field w 4 6 == 0) .unusedField
    let x ← srcOf 32 ext (field w 10 6)
    literalOnly ext x.literal none
    .ok x
  let two : Except Reject (SSrc × SSrc) := do
    let x ← srcOf 32 ext (field w 10 6)
    let y ← srcOf 32 ext (field w 4 6)
    literalOnly ext x.literal y.literal
    .ok (x, y)
  match abBinary (field w 26 6), abUnary (field w 26 6) with
  | some f, _ => do noFn; let (x, y) ← two; .ok (f u g d x y)
  | none, some f => do noFn; let x ← one; .ok (f u g d x)
  | none, none =>
    match field w 26 6 with
    | 0x1D => do let (x, y) ← two; .ok (.sel u g d (Fin.ofNat 16 fn) x y)
    | 0x1E => do pair; let c ← condOf fn; let (x, y) ← two; .ok (.cmp u g k c x y)
    | 0x1F => do let (x, y) ← two; .ok (.lea u g d x y (Fin.ofNat 16 fn))
    | 0x20 => do let x ← one; let fl ← fileOf File.acceptsXmov fn (field w 16 5); .ok (.xmovAB u g fl d x)
    | 0x21 =>
      if fn = 0 then do
        need (field w 4 12 == 0) .unusedField
        noExtension ext
        .ok (.xmovpGet u g d)
      else if fn = 1 then do pair; let x ← one; .ok (.xmovpSet u g k x)
      else .error .fieldRange
    | 0x22 => do let x ← one; .ok (.sxt u g d x (Fin.ofNat 16 fn))
    | 0x23 => do let x ← one; .ok (.zxt u g d x (Fin.ofNat 16 fn))
    | 0x27 => do pair; let c ← condOf fn; let (x, y) ← two; .ok (.cmpu u g k c x y)
    | _ => .error .opcode

/-! The M slot (R159, R227 to R242). -/

/-- The scalar loads. -/
def mLoad : Nat → Option (Guard → File → Fin 32 → SSrc → SSrc → Instr)
  | 0x1 => some .ldb
  | 0x2 => some .ldbu
  | 0x3 => some .ldh
  | 0x4 => some .ldhu
  | 0x5 => some .ldw
  | 0xe => some .rld
  | _ => none

/-- The scalar stores. -/
def mStore : Nat → Option (Guard → File → Fin 32 → SSrc → SSrc → Instr)
  | 0x7 => some .stb
  | 0x8 => some .sth
  | 0x9 => some .stw
  | 0xf => some .rst
  | _ => none

/-- The vector accesses without a lane mask. -/
def mVector : Nat → Option (Guard → UnitVW → Fin 28 → SSrc → SSrc → Option Swizzle → Instr)
  | 0xb => some .vld
  | 0xc => some .vst
  | 0x10 => some .rvld
  | 0x11 => some .rvst
  | _ => none

/-- MODE and PAIR of an extension word whose other fields the form leaves unused (R230). -/
def swizzleOf (e : Nat) : Except Reject Swizzle := do
  need (field e 4 28 == 0) .unusedField
  let m ← below 7 (field e 0 3) .fieldRange
  .ok ⟨m, field e 3 1 == 1⟩

/-- The extension word of `vstm` (R230, R232). -/
def maskedStoreOf (e : Nat) : Except Reject MaskedStore := do
  need (field e 13 19 == 0) .unusedField
  let m ← below 7 (field e 0 3) .fieldRange
  let skip : Option Format ←
    if field e 8 1 = 1 then some <$> formatOf Format.hasAbsent (field e 9 4)
    else do need (field e 9 4 == 0) .unusedField; .ok none
  .ok ⟨m, field e 3 1 == 1, Fin.ofNat 16 (field e 4 4), skip⟩

/-- The extension word of `vldt.h` (R230, R233). -/
def transposeOf (e : Nat) : Except Reject (Fin 7 × Fin 16) := do
  need (field e 17 15 == 0 && field e 3 10 == 0) .unusedField
  let m ← below 7 (field e 0 3) .fieldRange
  .ok (m, Fin.ofNat 16 (field e 13 4))

/-- The forms of the M slot (R159). -/
def decodeM (w : Nat) (ext : Option Nat) : Except Reject Instr := do
  let g ← guardOf (field w 21 5)
  let d := Fin.ofNat 32 (field w 16 5)
  let file := field w 12 4
  let one (lo : Nat) : Except Reject SSrc := srcOf 32 ext (field w lo 6)
  let two : Except Reject (SSrc × SSrc) := do
    let x ← srcOf 32 ext (field w 6 6)
    let y ← srcOf 32 ext (field w 0 6)
    .ok (x, y)
  let lits : Except Reject (SSrc × SSrc) := do
    let (x, y) ← two
    literalOnly ext x.literal y.literal
    .ok (x, y)
  let block {α : Type} (f : Nat → Except Reject α) : Except Reject (SSrc × SSrc × Option α) := do
    let (x, y) ← two
    if x.literal.isSome || y.literal.isSome then .ok (x, y, none)
    else match ext with
      | none => .ok (x, y, none)
      | some e => do let v ← f e; .ok (x, y, some v)
  let fileIs (n : Nat) := need (file == n) .fileCode
  match mLoad (field w 26 6), mStore (field w 26 6), mVector (field w 26 6) with
  | some f, _, _ => do
    let fl ← fileOf File.acceptsLoad file (field w 16 5)
    let (x, y) ← lits
    .ok (f g fl d x y)
  | _, some f, _ => do
    let fl ← fileOf File.accepts file (field w 16 5)
    let (x, y) ← lits
    .ok (f g fl d x y)
  | _, _, some f => do
    let u ← unitOf file
    let r ← vregOf (field w 16 5)
    let (x, y, e) ← block swizzleOf
    .ok (f g u r x y e)
  | none, none, none =>
    match field w 26 6 with
    | 0x06 => do fileIs 6; let r ← below 8 (field w 16 5) .operand; let (x, y) ← lits; .ok (.ldd g r x y)
    | 0x0A => do fileIs 6; let r ← below 8 (field w 16 5) .operand; let (x, y) ← lits; .ok (.std g r x y)
    | 0x0D => do
      let u ← unitOf file
      let r ← vregOf (field w 16 5)
      let (x, y, e) ← block transposeOf
      .ok (.vldth g u r x y e)
    | 0x12 => do
      fileIs 0
      need (field w 18 3 == 0) .unusedField
      let (x, y) ← lits
      .ok (.qst g (Fin.ofNat 4 (field w 16 2)) x y)
    | 0x13 => do
      fileIs 3
      let e ← required ext
      let (x, y) ← two
      noLiteral x.literal y.literal
      need (field e 26 6 == 0 && field e 10 6 == 0) .unusedField
      .ok (.gld g d x y (Fin.ofNat 1024 (field e 16 10)) (Fin.ofNat 1024 (field e 0 10)))
    | 0x14 => do
      fileIs 3
      let e ← required ext
      let (x, y) ← two
      noLiteral x.literal y.literal
      need (field e 26 6 == 0 && field e 10 6 == 0) .unusedField
      .ok (.gst g d x y (Fin.ofNat 1024 (field e 16 10)) (Fin.ofNat 1024 (field e 0 10)))
    | 0x15 => do
      fileIs 3
      let e ← required ext
      let (x, y) ← two
      noLiteral x.literal y.literal
      need (field e 30 2 == 0 && field e 16 10 == 0 && field e 10 5 == 0) .unusedField
      let op ← below 11 (field e 26 4) .fieldRange
      need (!(op.val == 3 && field e 15 1 == 1)) .fieldRange
      .ok (.gatom g d x y op (field e 15 1 == 1) (Fin.ofNat 1024 (field e 0 10)))
    | 0x16 => do
      fileIs 3
      need (field w 6 6 == 0) .unusedField
      let y ← one 0
      literalOnly ext y.literal none
      .ok (.mli g d y)
    | 0x17 => do fileIs 3; let (x, y) ← lits; .ok (.madd g d x y)
    | 0x18 => do
      need (field w 0 6 == 0) .unusedField
      let fl ← fileOf File.acceptsXmov file (field w 16 5)
      let x ← one 6
      literalOnly ext x.literal none
      .ok (.xmovM g fl d x)
    | 0x19 => do
      let fl ← fileOf File.accepts file (field w 16 5)
      let e ← required ext
      let (x, y) ← two
      noLiteral x.literal y.literal
      .ok (.irst g fl d x y (BitVec.ofNat 32 e))
    | 0x1A => do
      let u ← unitOf file
      let r ← vregOf (field w 16 5)
      let (x, y, e) ← block maskedStoreOf
      .ok (.vstm g u r x y e)
    | 0x1B => do let vp ← predsOf file (field w 16 5); let (x, y) ← lits; .ok (.pld g vp x y)
    | 0x1C => do let vp ← predsOf file (field w 16 5); let (x, y) ← lits; .ok (.pst g vp x y)
    | _ => .error .opcode
where
  predsOf (file d : Nat) : Except Reject (Option (Fin 16)) :=
    if file = 9 then (if d = 0 then .ok none else .error .operand)
    else if file = 10 then (if d < 16 then .ok (some (Fin.ofNat 16 d)) else .error .operand)
    else .error .fileCode

/-! The V and W slots (R160, R264). -/

/-- The forms of two sources, a destination and a format, each with its format class. -/
def vBinary : Nat → Option ((Format → Bool) × (UnitVW → Fin 16 → Format → VDst → VSrc → VSrc → Instr))
  | 0x1 => some (Format.isElement, .vadd)
  | 0x2 => some (Format.isElement, .vsub)
  | 0x3 => some (Format.isElement, .vmul)
  | 0x7 => some (Format.isElement, .vmin)
  | 0x8 => some (Format.isElement, .vmax)
  | 0xb => some (Format.isElement, .vdiv)
  | 0x37 => some (Format.isFloat, .vscl)
  | 0x39 => some (Format.isFloat, .vsgnj)
  | 0x2c => some (Format.isRaw, .vand)
  | 0x2d => some (Format.isRaw, .vor)
  | 0x2e => some (Format.isRaw, .vxor)
  | 0x2f => some (Format.isRaw, .vshl)
  | 0x30 => some (Format.isRaw, .vshr)
  | 0x31 => some (Format.isRaw, .vsra)
  | _ => none

/-- The forms whose destination is also the third source. -/
def vTernary : Nat → Option (UnitVW → Fin 16 → Format → Fin 28 → VSrc → VSrc → Instr)
  | 0x4 => some .vfma
  | 0x5 => some .vfms
  | 0x6 => some .vfnma
  | 0x38 => some .vclamp
  | _ => none

/-- The forms of one source, a destination and a format, each with its format class. -/
def vUnary : Nat → Option ((Format → Bool) × (UnitVW → Fin 16 → Format → VDst → VSrc → Instr))
  | 0x9 => some (Format.hasAbsent, .vabs)
  | 0xa => some (Format.hasAbsent, .vneg)
  | 0xc => some (Format.isFloat, .vrcp)
  | 0xd => some (Format.isFloat, .vsqrt)
  | 0x14 => some (Format.isFloat, .vround)
  | 0x15 => some (Format.isFloat, .vtrunc)
  | 0x24 => some (Format.isElement, .vsum)
  | 0x26 => some (Format.isElement, .vrmin)
  | 0x27 => some (Format.isElement, .vrmax)
  | 0x25 => some (Format.isSum, .vsumc)
  | 0x28 => some (Format.isBlock, .vpack)
  | 0x29 => some (Format.isBlock, .vunpk)
  | _ => none

/-- The forms of one source and a destination whose EF is zero. -/
def vPlain : Nat → Option (UnitVW → Fin 16 → VDst → VSrc → Instr)
  | 0xe => some .vrsqrt
  | 0xf => some .vexp2
  | 0x10 => some .vlog2
  | 0x11 => some .vsin
  | 0x12 => some .vcos
  | 0x13 => some .vtanh
  | 0x3a => some .vsigm
  | 0x1e => some .vmov
  | _ => none

/-- The compares (R274). -/
def vCompare : Nat → Option (UnitVW → Fin 16 → Format → Fin 8 → VSrc → VSrc → Option (Fin 16) → Instr)
  | 0x17 => some .vcmpeq
  | 0x18 => some .vcmpne
  | 0x19 => some .vcmplt
  | 0x1a => some .vcmple
  | 0x1b => some .vcmpgt
  | 0x1c => some .vcmpge
  | _ => none

/-- The predicate forms of two sources (R276). -/
def vPredicate : Nat → Option (UnitVW → Fin 16 → Fin 8 → Fin 16 → Fin 16 → Instr)
  | 0x32 => some .vpand
  | 0x33 => some .vpor
  | 0x34 => some .vpxor
  | _ => none

/-- The witness of a compare: none with a literal, else what the extension word names (R274). -/
def witnessOf (ext : Option Nat) (lit : Bool) (k : Fin 8) : Except Reject (Option (Fin 16)) :=
  if lit then .ok none
  else match ext with
    | none => .ok none
    | some e =>
      if field e 4 28 ≠ 0 then .error .unusedField
      else if field e 0 4 / 2 = k.val then .error .fieldRange
      else .ok (some (Fin.ofNat 16 (field e 0 4)))

/-- H lies below its limit, and a narrowing conversion names a register (R273). -/
def convertOk (ef sf : Format) (d : VDst) (h : Nat) : Bool :=
  if ef.perLane > sf.perLane then decide (h < ef.perLane / sf.perLane) && d != .latchOnly
  else decide (h < sf.perLane / ef.perLane)

/-- A destination of the vector `xmov` (R285). -/
def File.acceptsFromVector (u : UnitVW) (lp : Nat) (fl : File) (d : Nat) : Bool :=
  fl.acceptsXmov d && match fl, u with
    | .v, .v => false
    | .w, .w => false
    | .v, .w => true
    | .w, .v => true
    | _, _ => lp == 0

/-- The forms of the V and W slots (R160, R264). -/
def decodeVW (u : UnitVW) (w : Nat) (ext : Option Nat) : Except Reject Instr := do
  let op := field w 25 7
  let lp := Fin.ofNat 16 (field w 21 4)
  let k := Fin.ofNat 8 (field w 16 3)
  let ef := field w 0 4
  let pair := need (field w 19 2 == 0) .unusedField
  let noEf := need (ef == 0) .unusedField
  let dst := vdstOf (field w 16 5)
  let noS2 := need (field w 4 6 == 0) .unusedField
  let one : Except Reject VSrc := do
    let a ← vsrcOf ext (field w 10 6)
    literalOnly ext a.literal none
    .ok a
  let two : Except Reject (VSrc × VSrc) := do
    let a ← vsrcOf ext (field w 10 6)
    let b ← vsrcOf ext (field w 4 6)
    .ok (a, b)
  let lits : Except Reject (VSrc × VSrc) := do
    let (a, b) ← two
    literalOnly ext a.literal b.literal
    .ok (a, b)
  let pred (lo : Nat) : Except Reject (Fin 16) := do
    need (field w (lo + 4) 2 == 0) .unusedField
    .ok (Fin.ofNat 16 (field w lo 4))
  match vBinary op, vTernary op, vUnary op, vPlain op with
  | some (cls, f), _, _, _ => do
    let e ← formatOf cls ef; let d ← dst; let (a, b) ← lits
    .ok (f u lp e d a b)
  | _, some f, _, _ => do
    let e ← formatOf Format.isElement ef; let d ← vregOf (field w 16 5); let (a, b) ← lits
    .ok (f u lp e d a b)
  | _, _, some (cls, f), _ => do
    let e ← formatOf cls ef; let d ← dst; noS2; let a ← one
    .ok (f u lp e d a)
  | _, _, _, some f => do
    noEf; let d ← dst; noS2; let a ← one
    .ok (f u lp d a)
  | none, none, none, none =>
    match vCompare op, vPredicate op with
    | some f, _ => do
      pair
      let e ← formatOf Format.isCompare ef
      let (a, b) ← two
      let wit ← witnessOf ext (a.literal.isSome || b.literal.isSome) k
      .ok (f u lp e k a b wit)
    | _, some f => do
      pair; noEf; noExtension ext
      let a ← pred 10; let b ← pred 4
      .ok (f u lp k a b)
    | none, none =>
      match op with
      | 0x16 => do
        let e ← formatOf Format.hasAbsent ef
        let sf ← formatOf Format.hasAbsent (field w 4 4)
        let d ← dst
        need (e != sf) .formatCode
        need (convertOk e sf d (field w 8 2)) .fieldRange
        let a ← one
        .ok (.vcvt u lp e sf d a (Fin.ofNat 4 (field w 8 2)))
      | 0x2A => do
        pair
        let e ← formatOf Format.hasAbsent ef
        noS2; let a ← one
        .ok (.visab u lp e k a)
      | 0x2B => do
        let e ← formatOf Format.hasAbsent ef
        let d ← dst; let a ← one; let n ← pred 4
        .ok (.vmkab u lp e d a n)
      | 0x35 => do pair; noEf; noS2; noExtension ext; let a ← pred 10; .ok (.vpnot u lp k a)
      | 0x20 => do
        pair; noEf; noS2; noExtension ext
        need (decide (4 ≤ k.val)) .operand
        let n ← pred 10
        .ok (.vpbc u lp k n)
      | 0x3B => do noEf; noS2; noExtension ext; let d ← dst; let n ← pred 10; .ok (.vpcnt u lp d n)
      | 0x1D => do let d ← dst; let (a, b) ← lits; .ok (.vsel u lp (Fin.ofNat 16 ef) d a b)
      | 0x1F => do let d ← dst; noS2; let a ← one; .ok (.vbcast u lp (Fin.ofNat 16 ef) d a)
      | 0x36 => do
        noEf; noS2; noExtension ext
        need (field w 10 6 == 0) .unusedField
        let d ← dst
        .ok (.vlane u lp d)
      | 0x21 => do noEf; let d ← dst; let (a, x) ← lits; .ok (.vperm u lp d a x)
      | 0x22 => do
        noEf; noS2
        let e ← required ext
        let d ← dst
        let a ← vsrcOf ext (field w 10 6)
        noLiteral a.literal none
        need (field e 24 8 == 0) .unusedField
        .ok (.gxch u lp d a (BitVec.ofNat 24 e))
      | 0x23 => do
        noEf
        let e ← required ext
        let d ← dst
        let (a, x) ← two
        noLiteral a.literal x.literal
        need (field e 4 28 == 0) .unusedField
        .ok (.vxld u lp d a x (Fin.ofNat 16 (field e 0 4)))
      | 0x3C => do
        noS2
        let fl ← fileOf (File.acceptsFromVector u lp.val) ef (field w 16 5)
        let a ← one
        .ok (.xmovV u lp fl (Fin.ofNat 32 (field w 16 5)) a)
      | _ => .error .opcode

/-! The X slot (R161, R294). -/

/-- A destination of the X-slot `xmov` (R295). -/
def File.acceptsFromX (fl : File) (d : Nat) : Bool :=
  fl.accepts d && !(fl == .v || fl == .w)

/-- The forms of the X slot (R161, R294). -/
def decodeX (w : Nat) (ext : Option Nat) : Except Reject Instr := do
  let g ← guardOf (field w 21 5)
  let r1 := Fin.ofNat 8 (field w 18 3)
  let r2 := Fin.ofNat 8 (field w 15 3)
  let zero (lo n : Nat) := need (field w lo n == 0) .unusedField
  let imm16 : Except Reject Imm16 := do
    zero 16 2
    match ext with
    | none => .ok (.imm (BitVec.ofNat 16 (field w 0 16)))
    | some e => do zero 0 16; .ok (.ext (BitVec.ofNat 32 e))
  match field w 26 6 with
  | 0x01 => do noExtension ext; zero 6 15; .ok (.mcall g (Fin.ofNat 64 (field w 0 6)))
  | 0x02 => do noExtension ext; zero 0 15; .ok (.mload g r1 r2)
  | 0x03 => do let v ← imm16; .ok (.xli g r1 v)
  | 0x04 => do let v ← imm16; .ok (.xlih g r1 v)
  | 0x05 =>
    match ext with
    | none => .ok (.xadd g r1 r2 (.imm (BitVec.ofNat 15 (field w 0 15))))
    | some e => do zero 0 15; .ok (.xadd g r1 r2 (.ext (BitVec.ofNat 32 e)))
  | 0x06 => do
    noExtension ext; zero 0 3
    need (decide (field w 9 6 + field w 3 6 + 1 ≤ 64)) .fieldRange
    .ok (.xins g r1 r2 (Fin.ofNat 64 (field w 9 6)) (Fin.ofNat 64 (field w 3 6)))
  | 0x07 => do
    noExtension ext; zero 0 8
    let fl ← fileOf File.acceptsFromX (field w 9 4) (field w 13 5)
    .ok (.xmovX g r1 fl (Fin.ofNat 32 (field w 13 5)) (field w 8 1 == 1))
  | 0x08 => do noExtension ext; zero 4 17; .ok (.mqclr g (BitVec.ofNat 4 (field w 0 4)))
  | 0x09 => do noExtension ext; zero 0 21; .ok (.mcancel g)
  | _ => .error .opcode

/-! The F slot (R162, R243 to R259). -/

/-- The engine commands (R244). -/
def fCommand : Nat → Option (Guard → Fin 16 → SSrc → SSrc → Bool → Bool → Bool → Instr)
  | 0x1 => some .cpy
  | 0x2 => some .cpy2d
  | 0x3 => some .cpyt
  | 0x4 => some .cpyg
  | 0x5 => some .cpys
  | 0x6 => some .strm
  | 0x7 => some .strmx
  | 0x8 => some .cpyx
  | 0x9 => some .mcast
  | 0xf => some .tsort
  | 0x16 => some .cpfill
  | 0x18 => some .sqcfg
  | 0x19 => some .sqbind
  | 0x1a => some .sqstage
  | 0x1b => some .sqtake
  | 0x1d => some .sqstat
  | _ => none

/-- The register forms of two sources (R243). -/
def fBinary : Nat → Option (Guard → Fin 16 → SSrc → SSrc → Instr)
  | 0x11 => some .fadd
  | 0x12 => some .fsub
  | 0x13 => some .fsll
  | _ => none

/-- The forms of the F slot (R162). -/
def decodeF (w : Nat) (ext : Option Nat) : Except Reject Instr := do
  let g ← guardOf (field w 21 5)
  let fn := field w 0 4
  let dst : Except Reject (Fin 16) := below 16 (field w 16 5) .operand
  let noD := need (field w 16 5 == 0) .unusedField
  let noFn := need (fn == 0) .unusedField
  let nb := field w 2 1 == 1
  let rel := field w 1 1 == 1
  let acq := field w 0 1 == 1
  let one : Except Reject SSrc := do
    need (field w 4 6 == 0) .unusedField
    let x ← srcOf 16 ext (field w 10 6)
    literalOnly ext x.literal none
    .ok x
  let two : Except Reject (SSrc × SSrc) := do
    let x ← srcOf 16 ext (field w 10 6)
    let y ← srcOf 16 ext (field w 4 6)
    .ok (x, y)
  let lits : Except Reject (SSrc × SSrc) := do
    let (x, y) ← two
    literalOnly ext x.literal y.literal
    .ok (x, y)
  match fCommand (field w 26 6), fBinary (field w 26 6) with
  | some f, _ => do
    let slot ← dst
    need (field w 3 1 == 0) .unusedField
    let (x, y) ← lits
    .ok (f g slot x y nb rel acq)
  | _, some f => do noFn; let d ← dst; let (x, y) ← lits; .ok (f g d x y)
  | none, none =>
    match field w 26 6 with
    | 0x0A => do
      noD
      need (field w 2 2 == 0) .unusedField
      let e ← required ext
      let (x, y) ← two
      noLiteral x.literal y.literal
      need (field e 26 6 == 0 && field e 10 6 == 0) .unusedField
      .ok (.rot g x y rel acq (Fin.ofNat 1024 (field e 16 10)) (Fin.ofNat 1024 (field e 0 10)))
    | 0x0B => do
      noD
      need (field w 3 1 == 0) .unusedField
      let sc ← below 7 (field w 0 3) .fieldRange
      let (x, y) ← lits
      .ok (.binit g x y sc)
    | 0x0C => do noD; noFn; let x ← one; .ok (.bidle g x)
    | 0x0D => do noD; noFn; let (x, y) ← lits; .ok (.barv g x y)
    | 0x0E => do
      noD
      need (field w 2 2 == 0) .unusedField
      let (x, y) ← lits
      .ok (.qpush g x y (Fin.ofNat 4 (field w 0 2)))
    | 0x10 => do noFn; let d ← dst; let x ← one; .ok (.fli g d x)
    | 0x14 => do let x ← one; let fl ← fileOf File.acceptsXmov fn (field w 16 5); .ok (.xmovF g fl (Fin.ofNat 32 (field w 16 5)) x)
    | 0x15 => do noFn; let d ← dst; let x ← one; .ok (.cpstat g d x)
    | 0x1C => do
      let slot ← dst
      need (field w 3 1 == 0 && field w 10 6 == 0) .unusedField
      let y ← srcOf 16 ext (field w 4 6)
      literalOnly ext y.literal none
      .ok (.sqjudge g slot y nb rel acq)
    | _ => .error .opcode

/-! The N slot (R163, R287). -/

/-- The forms of the N slot (R163). -/
def decodeN (w : Nat) (ext : Option Nat) : Except Reject Instr := do
  let g ← guardOf (field w 21 5)
  let fn := field w 0 4
  let dst : Except Reject (Fin 16) := below 16 (field w 16 5) .operand
  let noFn := need (fn == 0) .unusedField
  let one : Except Reject SSrc := do
    need (field w 4 6 == 0) .unusedField
    let x ← srcOf 16 ext (field w 10 6)
    literalOnly ext x.literal none
    .ok x
  let lits : Except Reject (SSrc × SSrc) := do
    let x ← srcOf 16 ext (field w 10 6)
    let y ← srcOf 16 ext (field w 4 6)
    literalOnly ext x.literal y.literal
    .ok (x, y)
  match field w 26 6 with
  | 0x01 => do
    need (field w 3 1 == 0) .unusedField
    let d ← dst; let (x, y) ← lits
    .ok (.bnet g d x y (Fin.ofNat 8 (field w 0 3)))
  | 0x02 => do
    need (field w 3 1 == 0 && field w 16 5 == 0) .unusedField
    let (x, y) ← lits
    .ok (.bnld g x y (Fin.ofNat 8 (field w 0 3)))
  | 0x03 => do let wc ← below 3 fn .fieldRange; let d ← dst; let x ← one; .ok (.nfill g d x wc)
  | 0x04 => do noFn; let d ← dst; let x ← one; .ok (.nli g d x)
  | 0x05 => do noFn; let d ← dst; let (x, y) ← lits; .ok (.nadd g d x y)
  | 0x06 => do let x ← one; let fl ← fileOf File.acceptsXmov fn (field w 16 5); .ok (.xmovN g fl (Fin.ofNat 32 (field w 16 5)) x)
  | _ => .error .opcode

/-! Micro-ops (R303). -/

/-- The micro-ops (R303). -/
def decodeMicro (w : Nat) : Except Reject Instr := do
  let zero (lo n : Nat) := need (field w lo n == 0) .unusedField
  let d := Fin.ofNat 8 (field w 25 3)
  match field w 28 4 with
  | 0x0 => do zero 0 28; .ok .mend
  | 0x1 => do zero 0 24; .ok (.mstep (Fin.ofNat 16 (field w 24 4)))
  | 0x2 => do zero 0 28; .ok .mclr
  | 0x3 =>
    if field w 27 1 = 0 then do
      zero 20 7
      .ok (.mloop (Fin.ofNat 2048 (field w 9 11)) (Fin.ofNat 512 (field w 0 9)))
    else do
      zero 0 9
      .ok (.mloopZ (Fin.ofNat 8 (field w 24 3)) (Fin.ofNat 16 (field w 20 4)) (Fin.ofNat 2048 (field w 9 11)))
  | 0x4 => do zero 0 28; .ok .mendl
  | 0x5 =>
    if field w 24 1 = 0 then .ok (.madv d (BitVec.ofNat 24 (field w 0 24)))
    else do zero 0 20; .ok (.madvParam d (Fin.ofNat 16 (field w 20 4)))
  | 0x6 => do zero 0 28; .ok .mshape
  | 0x7 => do zero 0 23; .ok (.mdrain (Fin.ofNat 16 (field w 24 4)) (field w 23 1 == 1))
  | 0x8 => do zero 0 24; .ok (.mwaitb d (field w 24 1 == 1))
  | 0x9 => do zero 0 13; .ok (.msig d (BitVec.ofNat 12 (field w 13 12)))
  | 0xA =>
    if field w 24 1 = 0 then .ok (.mset d (BitVec.ofNat 24 (field w 0 24)))
    else do zero 0 20; .ok (.msetParam d (Fin.ofNat 16 (field w 20 4)))
  | 0xB => do zero 0 18; .ok (.mmad d (Fin.ofNat 8 (field w 22 3)) (Fin.ofNat 16 (field w 18 4)))
  | 0xC => do
    zero 8 17
    need (field w 0 8 != 0) .fieldRange
    .ok (.mskz d (BitVec.ofNat 8 (field w 0 8)))
  | 0xD => do zero 11 17; .ok (.mjmp (Fin.ofNat 2048 (field w 0 11)))
  | 0xE => do zero 0 28; .ok .mnop
  | _ => do zero 0 28; .ok .mfence

/-! The header (R142 to R144). -/

/-- A decoded bundle header (R142): the presence bits in slot order from bit 0 (C), the extension bits of A to N in
their order from bit 0, the number of C extension words, the scope, the queues popped and the two marks. -/
structure Header where
  pres : BitVec 9
  exts : BitVec 8
  cx : Fin 3
  scope : Fin 7
  pop : BitVec 8
  segMark : Bool
  loopEnd : Bool
deriving DecidableEq, Repr

/-- The bundle's length in bytes by its header word, even when other fields make the bundle illegal; a word whose CX
is 3 has no length but its own (R142, R173). -/
def bundleLength (w : Nat) : Nat :=
  if field w 17 2 = 3 then 4
  else 4 * (1 + (bitsSet (field w 0 9) 9 + bitsSet (field w 9 8) 8 + field w 17 2))
where
  bitsSet (x : Nat) : Nat → Nat
    | 0 => 0
    | n + 1 => x / 2 ^ n % 2 + bitsSet x n

/-- The header of a bundle, or the rule of R145 it breaks. An extension bit of slot A to N stands one place above the
slot's presence bit. -/
def decodeHeader (w : Nat) : Except Reject Header := do
  let cx ← below 3 (field w 17 2) .cxReserved
  let sc ← below 7 (field w 19 3) .scopeReserved
  let pres := BitVec.ofNat 9 (field w 0 9)
  let exts := BitVec.ofNat 8 (field w 9 8)
  need (BitVec.ofNat 8 (field w 1 8) ||| exts == BitVec.ofNat 8 (field w 1 8)) .extensionOfAbsentSlot
  need (cx.val == 0 || field w 0 1 == 1) .extensionOfAbsentSlot
  .ok ⟨pres, exts, cx, sc, BitVec.ofNat 8 (field w 22 8), field w 30 1 == 1, field w 31 1 == 1⟩

/-- The header word (R142). -/
def Header.encode (h : Header) : Nat :=
  h.loopEnd.toNat * 2 ^ 31 + h.segMark.toNat * 2 ^ 30 + h.pop.toNat * 2 ^ 22 + h.scope.val * 2 ^ 19
    + h.cx.val * 2 ^ 17 + h.exts.toNat * 2 ^ 9 + h.pres.toNat

/-- The header's own effects, in the order in which they act at bundle end: the pops, the segment mark, the loop-end
mark; a bundle without a slot is an idle bundle (R143, R144, R190). -/
def Header.effects (h : Header) : List Instr :=
  (if h.pres = 0 then [Instr.idleBundle] else [])
    ++ (if h.pop = 0 then [] else [Instr.queuePop h.pop])
    ++ (if h.segMark then [Instr.segmentMark] else [])
    ++ (if h.loopEnd then [Instr.loopEndMark] else [])

/-- A header word that carries one attribute alone, read as that attribute's row (R143, R144, R171, R190). -/
def decodeHeaderRow (w : Nat) : Except Reject Instr := do
  let h ← decodeHeader w
  need (h.pres == 0) .opcode
  need (h.scope.val == 0) .unusedField
  match h.loopEnd, h.segMark, h.pop with
  | false, false, 0 => .ok .idleBundle
  | true, false, 0 => .ok .loopEndMark
  | false, true, 0 => .ok .segmentMark
  | false, false, p => .ok (.queuePop p)
  | _, _, _ => .error .opcode

/-! One slot word, and a bundle. -/

/-- A slot word with its extension words (R147, R155). -/
def decodeSlot (slot : Slot) (w : Nat) (ext : List Nat) : Except Reject Instr :=
  match slot, ext with
  | .c, _ => decodeC w ext
  | .micro, [] => decodeMicro w
  | .header, [] => decodeHeaderRow w
  | .a, [] => decodeAB .a w none
  | .a, [e] => decodeAB .a w (some e)
  | .b, [] => decodeAB .b w none
  | .b, [e] => decodeAB .b w (some e)
  | .m, [] => decodeM w none
  | .m, [e] => decodeM w (some e)
  | .v, [] => decodeVW .v w none
  | .v, [e] => decodeVW .v w (some e)
  | .w, [] => decodeVW .w w none
  | .w, [e] => decodeVW .w w (some e)
  | .x, [] => decodeX w none
  | .x, [e] => decodeX w (some e)
  | .f, [] => decodeF w none
  | .f, [e] => decodeF w (some e)
  | .n, [] => decodeN w none
  | .n, [e] => decodeN w (some e)
  | _, _ => .error .extensionWord

/-- A decoded bundle: its header, its length in bytes, and its operations in slot order (R142). -/
structure Bundle where
  header : Header
  len : Nat
  ops : List (Slot × Instr)
deriving DecidableEq, Repr

/-- The slots of a bundle with their presence bits, in slot order (R142). -/
def slotOrder : List Slot := [.c, .a, .b, .m, .v, .w, .x, .f, .n]

/-- The place of a slot in slot order (R142). -/
def Slot.index : Slot → Nat
  | .c => 0 | .a => 1 | .b => 2 | .m => 3 | .v => 4 | .w => 5 | .x => 6 | .f => 7 | .n => 8
  | .micro => 9 | .header => 10

/-- The number of extension words the header gives a slot (R142). -/
def Header.extWords (h : Header) : Slot → Nat
  | .c => h.cx.val
  | sl => (h.exts.getLsbD (sl.index - 1)).toNat

/-- The operations of the slots present, from the words after the header (R142). -/
def decodeOps (h : Header) : List Slot → List Nat → Except Reject (List (Slot × Instr))
  | [], _ => .ok []
  | sl :: rest, ws =>
    if h.pres.getLsbD sl.index then
      match ws with
      | [] => .error .extensionWord
      | w :: more => do
        let i ← decodeSlot sl w (more.take (h.extWords sl))
        let ops ← decodeOps h rest (more.drop (h.extWords sl))
        .ok ((sl, i) :: ops)
    else decodeOps h rest ws

/-- The guard of an operation; the vector forms and the micro-ops have none (R152, R153). -/
def Instr.guard : Instr → Option Guard
  | .jmp g _ => some g
  | .jmpl g _ => some g
  | .jr g _ => some g
  | .call g _ => some g
  | .calll g _ => some g
  | .ret g => some g
  | .mbr g _ _ _ _ _ _ _ _ _ => some g
  | .loop g _ _ => some g
  | .loopi g _ _ => some g
  | .lexit g => some g
  | .susp g _ _ => some g
  | .suspTarget g _ _ => some g
  | .endTask g => some g
  | .spawn g _ _ => some g
  | .spawnn g _ _ _ => some g
  | .setfmt g _ => some g
  | .setfmtValue g _ => some g
  | .qwait g => some g
  | .drain g => some g
  | .trap g _ => some g
  | .rft g _ => some g
  | .csrr g _ _ => some g
  | .csrw g _ _ => some g
  | .csrwValue g _ _ => some g
  | .rgopen g _ => some g
  | .rgclose g => some g
  | .seal g => some g
  | .irrev g _ => some g
  | .irrevTarget g _ => some g
  | .lshare g _ => some g
  | .brk g _ => some g
  | .xmovC g _ _ _ => some g
  | .kli g _ _ => some g
  | .kliLong g _ _ => some g
  | .add _ g _ _ _ => some g
  | .sub _ g _ _ _ => some g
  | .and _ g _ _ _ => some g
  | .or _ g _ _ _ => some g
  | .xor _ g _ _ _ => some g
  | .andn _ g _ _ _ => some g
  | .sll _ g _ _ _ => some g
  | .srl _ g _ _ _ => some g
  | .sra _ g _ _ _ => some g
  | .rol _ g _ _ _ => some g
  | .min _ g _ _ _ => some g
  | .max _ g _ _ _ => some g
  | .minu _ g _ _ _ => some g
  | .maxu _ g _ _ _ => some g
  | .mul _ g _ _ _ => some g
  | .mulh _ g _ _ _ => some g
  | .mulhu _ g _ _ _ => some g
  | .div _ g _ _ _ => some g
  | .divu _ g _ _ _ => some g
  | .rem _ g _ _ _ => some g
  | .remu _ g _ _ _ => some g
  | .li _ g _ _ => some g
  | .bfx _ g _ _ _ => some g
  | .bfxu _ g _ _ _ => some g
  | .bfi _ g _ _ _ => some g
  | .clz _ g _ _ => some g
  | .ctz _ g _ _ => some g
  | .popc _ g _ _ => some g
  | .sel _ g _ _ _ _ => some g
  | .cmp _ g _ _ _ _ => some g
  | .lea _ g _ _ _ _ => some g
  | .xmovAB _ g _ _ _ => some g
  | .xmovpGet _ g _ => some g
  | .xmovpSet _ g _ _ => some g
  | .sxt _ g _ _ _ => some g
  | .zxt _ g _ _ _ => some g
  | .abs _ g _ _ => some g
  | .bswap _ g _ _ => some g
  | .brev _ g _ _ => some g
  | .cmpu _ g _ _ _ _ => some g
  | .ldb g _ _ _ _ => some g
  | .ldbu g _ _ _ _ => some g
  | .ldh g _ _ _ _ => some g
  | .ldhu g _ _ _ _ => some g
  | .ldw g _ _ _ _ => some g
  | .ldd g _ _ _ => some g
  | .stb g _ _ _ _ => some g
  | .sth g _ _ _ _ => some g
  | .stw g _ _ _ _ => some g
  | .std g _ _ _ => some g
  | .vld g _ _ _ _ _ => some g
  | .vst g _ _ _ _ _ => some g
  | .vldth g _ _ _ _ _ => some g
  | .rld g _ _ _ _ => some g
  | .rst g _ _ _ _ => some g
  | .rvld g _ _ _ _ _ => some g
  | .rvst g _ _ _ _ _ => some g
  | .qst g _ _ _ => some g
  | .gld g _ _ _ _ _ => some g
  | .gst g _ _ _ _ _ => some g
  | .gatom g _ _ _ _ _ _ => some g
  | .mli g _ _ => some g
  | .madd g _ _ _ => some g
  | .xmovM g _ _ _ => some g
  | .irst g _ _ _ _ _ => some g
  | .vstm g _ _ _ _ _ => some g
  | .pld g _ _ _ => some g
  | .pst g _ _ _ => some g
  | .mcall g _ => some g
  | .mload g _ _ => some g
  | .xli g _ _ => some g
  | .xlih g _ _ => some g
  | .xadd g _ _ _ => some g
  | .xins g _ _ _ _ => some g
  | .xmovX g _ _ _ _ => some g
  | .mqclr g _ => some g
  | .mcancel g => some g
  | .cpy g _ _ _ _ _ _ => some g
  | .cpy2d g _ _ _ _ _ _ => some g
  | .cpyt g _ _ _ _ _ _ => some g
  | .cpyg g _ _ _ _ _ _ => some g
  | .cpys g _ _ _ _ _ _ => some g
  | .strm g _ _ _ _ _ _ => some g
  | .strmx g _ _ _ _ _ _ => some g
  | .cpyx g _ _ _ _ _ _ => some g
  | .mcast g _ _ _ _ _ _ => some g
  | .rot g _ _ _ _ _ _ => some g
  | .binit g _ _ _ => some g
  | .bidle g _ => some g
  | .barv g _ _ => some g
  | .qpush g _ _ _ => some g
  | .tsort g _ _ _ _ _ _ => some g
  | .fli g _ _ => some g
  | .fadd g _ _ _ => some g
  | .fsub g _ _ _ => some g
  | .fsll g _ _ _ => some g
  | .xmovF g _ _ _ => some g
  | .cpstat g _ _ => some g
  | .cpfill g _ _ _ _ _ _ => some g
  | .sqcfg g _ _ _ _ _ _ => some g
  | .sqbind g _ _ _ _ _ _ => some g
  | .sqstage g _ _ _ _ _ _ => some g
  | .sqtake g _ _ _ _ _ _ => some g
  | .sqjudge g _ _ _ _ _ => some g
  | .sqstat g _ _ _ _ _ _ => some g
  | .bnet g _ _ _ _ => some g
  | .bnld g _ _ _ => some g
  | .nfill g _ _ _ => some g
  | .nli g _ _ => some g
  | .nadd g _ _ _ => some g
  | .xmovN g _ _ _ => some g
  | _ => none

/-- The queue heads an operation reads, `qst` reading the head it stores (R151, R238). -/
def Instr.queueHeads : Instr → List Nat
  | .add _ _ _ x y => s x ++ s y
  | .sub _ _ _ x y => s x ++ s y
  | .and _ _ _ x y => s x ++ s y
  | .or _ _ _ x y => s x ++ s y
  | .xor _ _ _ x y => s x ++ s y
  | .andn _ _ _ x y => s x ++ s y
  | .sll _ _ _ x y => s x ++ s y
  | .srl _ _ _ x y => s x ++ s y
  | .sra _ _ _ x y => s x ++ s y
  | .rol _ _ _ x y => s x ++ s y
  | .min _ _ _ x y => s x ++ s y
  | .max _ _ _ x y => s x ++ s y
  | .minu _ _ _ x y => s x ++ s y
  | .maxu _ _ _ x y => s x ++ s y
  | .mul _ _ _ x y => s x ++ s y
  | .mulh _ _ _ x y => s x ++ s y
  | .mulhu _ _ _ x y => s x ++ s y
  | .div _ _ _ x y => s x ++ s y
  | .divu _ _ _ x y => s x ++ s y
  | .rem _ _ _ x y => s x ++ s y
  | .remu _ _ _ x y => s x ++ s y
  | .li _ _ _ x => s x
  | .bfx _ _ _ x y => s x ++ s y
  | .bfxu _ _ _ x y => s x ++ s y
  | .bfi _ _ _ x y => s x ++ s y
  | .clz _ _ _ x => s x
  | .ctz _ _ _ x => s x
  | .popc _ _ _ x => s x
  | .sel _ _ _ _ x y => s x ++ s y
  | .cmp _ _ _ _ x y => s x ++ s y
  | .lea _ _ _ x y _ => s x ++ s y
  | .xmovAB _ _ _ _ x => s x
  | .xmovpSet _ _ _ x => s x
  | .sxt _ _ _ x _ => s x
  | .zxt _ _ _ x _ => s x
  | .abs _ _ _ x => s x
  | .bswap _ _ _ x => s x
  | .brev _ _ _ x => s x
  | .cmpu _ _ _ _ x y => s x ++ s y
  | .ldb _ _ _ x y => s x ++ s y
  | .ldbu _ _ _ x y => s x ++ s y
  | .ldh _ _ _ x y => s x ++ s y
  | .ldhu _ _ _ x y => s x ++ s y
  | .ldw _ _ _ x y => s x ++ s y
  | .ldd _ _ x y => s x ++ s y
  | .stb _ _ _ x y => s x ++ s y
  | .sth _ _ _ x y => s x ++ s y
  | .stw _ _ _ x y => s x ++ s y
  | .std _ _ x y => s x ++ s y
  | .vld _ _ _ x y _ => s x ++ s y
  | .vst _ _ _ x y _ => s x ++ s y
  | .vldth _ _ _ x y _ => s x ++ s y
  | .rld _ _ _ x y => s x ++ s y
  | .rst _ _ _ x y => s x ++ s y
  | .rvld _ _ _ x y _ => s x ++ s y
  | .rvst _ _ _ x y _ => s x ++ s y
  | .qst _ q x y => q.val :: (s x ++ s y)
  | .gld _ _ x y _ _ => s x ++ s y
  | .gst _ _ x y _ _ => s x ++ s y
  | .gatom _ _ x y _ _ _ => s x ++ s y
  | .mli _ _ y => s y
  | .madd _ _ x y => s x ++ s y
  | .xmovM _ _ _ x => s x
  | .irst _ _ _ x y _ => s x ++ s y
  | .vstm _ _ _ x y _ => s x ++ s y
  | .pld _ _ x y => s x ++ s y
  | .pst _ _ x y => s x ++ s y
  | .vadd _ _ _ _ a b => v a ++ v b
  | .vsub _ _ _ _ a b => v a ++ v b
  | .vmul _ _ _ _ a b => v a ++ v b
  | .vfma _ _ _ _ a b => v a ++ v b
  | .vfms _ _ _ _ a b => v a ++ v b
  | .vfnma _ _ _ _ a b => v a ++ v b
  | .vmin _ _ _ _ a b => v a ++ v b
  | .vmax _ _ _ _ a b => v a ++ v b
  | .vabs _ _ _ _ a => v a
  | .vneg _ _ _ _ a => v a
  | .vdiv _ _ _ _ a b => v a ++ v b
  | .vrcp _ _ _ _ a => v a
  | .vsqrt _ _ _ _ a => v a
  | .vrsqrt _ _ _ a => v a
  | .vexp2 _ _ _ a => v a
  | .vlog2 _ _ _ a => v a
  | .vsin _ _ _ a => v a
  | .vcos _ _ _ a => v a
  | .vtanh _ _ _ a => v a
  | .vround _ _ _ _ a => v a
  | .vtrunc _ _ _ _ a => v a
  | .vcvt _ _ _ _ _ a _ => v a
  | .vcmpeq _ _ _ _ a b _ => v a ++ v b
  | .vcmpne _ _ _ _ a b _ => v a ++ v b
  | .vcmplt _ _ _ _ a b _ => v a ++ v b
  | .vcmple _ _ _ _ a b _ => v a ++ v b
  | .vcmpgt _ _ _ _ a b _ => v a ++ v b
  | .vcmpge _ _ _ _ a b _ => v a ++ v b
  | .vsel _ _ _ _ a b => v a ++ v b
  | .vmov _ _ _ a => v a
  | .vbcast _ _ _ _ a => v a
  | .vperm _ _ _ a x => v a ++ v x
  | .gxch _ _ _ a _ => v a
  | .vxld _ _ _ a x _ => v a ++ v x
  | .vsum _ _ _ _ a => v a
  | .vsumc _ _ _ _ a => v a
  | .vrmin _ _ _ _ a => v a
  | .vrmax _ _ _ _ a => v a
  | .vpack _ _ _ _ a => v a
  | .vunpk _ _ _ _ a => v a
  | .visab _ _ _ _ a => v a
  | .vmkab _ _ _ _ a _ => v a
  | .vand _ _ _ _ a b => v a ++ v b
  | .vor _ _ _ _ a b => v a ++ v b
  | .vxor _ _ _ _ a b => v a ++ v b
  | .vshl _ _ _ _ a b => v a ++ v b
  | .vshr _ _ _ _ a b => v a ++ v b
  | .vsra _ _ _ _ a b => v a ++ v b
  | .vscl _ _ _ _ a b => v a ++ v b
  | .vclamp _ _ _ _ a b => v a ++ v b
  | .vsgnj _ _ _ _ a b => v a ++ v b
  | .vsigm _ _ _ a => v a
  | .xmovV _ _ _ _ a => v a
  | .cpy _ _ x y _ _ _ => s x ++ s y
  | .cpy2d _ _ x y _ _ _ => s x ++ s y
  | .cpyt _ _ x y _ _ _ => s x ++ s y
  | .cpyg _ _ x y _ _ _ => s x ++ s y
  | .cpys _ _ x y _ _ _ => s x ++ s y
  | .strm _ _ x y _ _ _ => s x ++ s y
  | .strmx _ _ x y _ _ _ => s x ++ s y
  | .cpyx _ _ x y _ _ _ => s x ++ s y
  | .mcast _ _ x y _ _ _ => s x ++ s y
  | .rot _ x y _ _ _ _ => s x ++ s y
  | .binit _ x y _ => s x ++ s y
  | .bidle _ x => s x
  | .barv _ x y => s x ++ s y
  | .qpush _ x y _ => s x ++ s y
  | .tsort _ _ x y _ _ _ => s x ++ s y
  | .fli _ _ x => s x
  | .fadd _ _ x y => s x ++ s y
  | .fsub _ _ x y => s x ++ s y
  | .fsll _ _ x y => s x ++ s y
  | .xmovF _ _ _ x => s x
  | .cpstat _ _ x => s x
  | .cpfill _ _ x y _ _ _ => s x ++ s y
  | .sqcfg _ _ x y _ _ _ => s x ++ s y
  | .sqbind _ _ x y _ _ _ => s x ++ s y
  | .sqstage _ _ x y _ _ _ => s x ++ s y
  | .sqtake _ _ x y _ _ _ => s x ++ s y
  | .sqjudge _ _ y _ _ _ => s y
  | .sqstat _ _ x y _ _ _ => s x ++ s y
  | .bnet _ _ x y _ => s x ++ s y
  | .bnld _ x y _ => s x ++ s y
  | .nfill _ _ x _ => s x
  | .nli _ _ x => s x
  | .nadd _ _ x y => s x ++ s y
  | .xmovN _ _ _ x => s x
  | _ => []
where
  s : SSrc → List Nat
    | .qhead q => [q.val]
    | _ => []
  v : VSrc → List Nat
    | .qhead q => [q.val]
    | _ => []

/-- The paths a bundle's tree can select: those of the targets its shape uses, and the fall-through (R187). -/
def treePaths (ops : List (Slot × Instr)) : Option (Fin 5 → Bool) :=
  match ops with
  | (.c, .mbr _ sh _ _ _ _ _ _ _ _) :: _ => some fun t => t.val == 4 || decide (t.val < (shapeUses sh).2)
  | _ => none

/-- The path guards of a bundle are paths its tree can select (R154). -/
def pathsOk (ops : List (Slot × Instr)) : Bool :=
  ops.all fun (_, i) =>
    match i.guard with
    | some (.t t) => match treePaths ops with
      | some ok => ok t
      | none => false
    | _ => true

/-- Every queue head read is popped by the bundle (R151). -/
def headsOk (pop : BitVec 8) (ops : List (Slot × Instr)) : Bool :=
  ops.all fun (_, i) => i.queueHeads.all fun q => pop.getLsbD q

/-- A bundle from its words: the first is the header; the conditions of R145 that depend only on the words. -/
def decodeBundle : List Nat → Except Reject Bundle
  | [] => .error .extensionWord
  | w :: rest => do
    let h ← decodeHeader w
    let ops ← decodeOps h slotOrder rest
    need (pathsOk ops) .pathGuard
    need (headsOk h.pop ops) .queueHeadWithoutPop
    .ok ⟨h, bundleLength w, ops⟩

/-- A register code stays within the lichen files (R34, R216). -/
def File.lichenAccepts (fl : File) (d : Nat) : Bool :=
  match fl with
  | .a | .b | .m => d < 8
  | .c | .f => d < 4
  | _ => false

/-! Encoding. -/

/-- The words of an instruction: the place it stands in, its word, and its extension words in order. -/
structure Encoded where
  slot : Slot
  word : Nat
  ext : List Nat
deriving DecidableEq, Repr

/-- The extension word of two scalar sources: the literal of the first that holds one (R155). -/
def litS (x y : SSrc) : List Nat :=
  match x.literal, y.literal with
  | some v, _ => [v.toNat]
  | none, some v => [v.toNat]
  | none, none => []

/-- The extension word of two vector sources (R155). -/
def litV (x y : VSrc) : List Nat :=
  match x.literal, y.literal with
  | some v, _ => [v.toNat]
  | none, some v => [v.toNat]
  | none, none => []

/-- The extension word that holds a form's own fields, or else the literal (R155). -/
def extOr (e : Option Nat) (lit : List Nat) : List Nat :=
  match e with
  | some v => [v]
  | none => lit

/-- Format S (R147). -/
def encS (slot : Slot) (op g d s1 s2 fn : Nat) (ext : List Nat) : Option Encoded :=
  some ⟨slot, op * 2 ^ 26 + g * 2 ^ 21 + d * 2 ^ 16 + s1 * 2 ^ 10 + s2 * 2 ^ 4 + fn, ext⟩

/-- Format S in the slot of a unit (R147). -/
def encAB (u : UnitAB) (op : Nat) (g : Guard) (d s1 s2 fn : Nat) (ext : List Nat) : Option Encoded :=
  encS (match u with | .a => .a | .b => .b) op g.code d s1 s2 fn ext

/-- Format M (R147). -/
def encM (op : Nat) (g : Guard) (d file s1 s2 : Nat) (ext : List Nat) : Option Encoded :=
  some ⟨.m, op * 2 ^ 26 + g.code * 2 ^ 21 + d * 2 ^ 16 + file * 2 ^ 12 + s1 * 2 ^ 6 + s2, ext⟩

/-- Format V (R147). -/
def encVW (u : UnitVW) (op : Nat) (lp : Fin 16) (d s1 s2 ef : Nat) (ext : List Nat) : Option Encoded :=
  some ⟨match u with | .v => .v | .w => .w,
    op * 2 ^ 25 + lp.val * 2 ^ 21 + d * 2 ^ 16 + s1 * 2 ^ 10 + s2 * 2 ^ 4 + ef, ext⟩

/-- Format C (R147). -/
def encC (op : Nat) (g : Guard) (body : Nat) (ext : List Nat) : Option Encoded :=
  some ⟨.c, op * 2 ^ 26 + g.code * 2 ^ 21 + body, ext⟩

/-- Format X (R147). -/
def encX (op : Nat) (g : Guard) (body : Nat) (ext : List Nat) : Option Encoded :=
  some ⟨.x, op * 2 ^ 26 + g.code * 2 ^ 21 + body, ext⟩

/-- A micro-op (R303). -/
def encU (op body : Nat) : Option Encoded := some ⟨.micro, op * 2 ^ 28 + body, []⟩

/-- WQ and NW (R183). -/
def encWait : Option (Fin 4) → Nat
  | none => 2 ^ 14
  | some q => q.val * 2 ^ 15

/-- FN of an engine command (R244). -/
def encFlags (nb rel acq : Bool) : Nat := nb.toNat * 4 + rel.toNat * 2 + acq.toNat

/-- MODE and PAIR (R230). -/
def encSwizzle (e : Swizzle) : Nat := e.pair.toNat * 2 ^ 3 + e.mode.val

/-- MODE and Q (R230). -/
def encTranspose (e : Fin 7 × Fin 16) : Nat := e.2.val * 2 ^ 13 + e.1.val

/-- The extension word of `vstm` (R230). -/
def encMasked (e : MaskedStore) : Nat :=
  (match e.skip with | none => 0 | some f => f.code * 2 ^ 9 + 2 ^ 8) + e.vp.val * 2 ^ 4 + e.pair.toNat * 2 ^ 3 + e.mode.val

/-- The inline field of an immediate. -/
def Imm16.body : Imm16 → Nat
  | .imm v => v.toNat
  | .ext _ => 0

/-- The extension word of an immediate. -/
def Imm16.words : Imm16 → List Nat
  | .imm _ => []
  | .ext v => [v.toNat]

/-- The inline field of an immediate. -/
def Imm15.body : Imm15 → Nat
  | .imm v => v.toNat
  | .ext _ => 0

/-- The extension word of an immediate. -/
def Imm15.words : Imm15 → List Nat
  | .imm _ => []
  | .ext v => [v.toNat]

/-- The words of an instruction that has an encoding; the events of the device have none. -/
def encode : Instr → Option Encoded
  | .jmp g d => encC 0x1 g (d.toNat) []
  | .jmpl g t => encC 0x2 g (0) [t.toNat]
  | .jr g s => encC 0x3 g (s.val * 2 ^ 17) []
  | .call g d => encC 0x4 g (d.toNat) []
  | .calll g t => encC 0x5 g (0) [t.toNat]
  | .ret g => encC 0x6 g (0) []
  | .mbr g sh q0 q1 q2 q3 t0 t1 t2 t3 => encC 0x7 g (sh.val * 2 ^ 16 + q0.val * 2 ^ 12 + q1.val * 2 ^ 8 + q2.val * 2 ^ 4 + q3.val)
      (if shapeWords sh = 1 then [t0.toNat + t1.toNat * 2 ^ 16] else [t0.toNat + t1.toNat * 2 ^ 16, t2.toNat + t3.toNat * 2 ^ 16])
  | .loop g c e => encC 0x8 g (c.val * 2 ^ 17 + e.toNat) []
  | .loopi g e n => encC 0x9 g (e.toNat) [n.toNat]
  | .lexit g => encC 0xa g (0) []
  | .susp g t wl => encC 0xb g (t.val * 2 ^ 17 + encWait wl) []
  | .suspTarget g t wl => encC 0xb g (encWait wl) [t.toNat]
  | .endTask g => encC 0xc g (0) []
  | .spawn g p c => encC 0xd g (p.val * 2 ^ 17 + c.val * 2 ^ 13) []
  | .spawnn g p c n => encC 0xe g (p.val * 2 ^ 17 + c.val * 2 ^ 13 + n.val * 2 ^ 9) []
  | .setfmt g s => encC 0xf g (s.val * 2 ^ 17) []
  | .setfmtValue g v => encC 0xf g (0) [v.toNat]
  | .qwait g => encC 0x10 g (0) []
  | .drain g => encC 0x11 g (0) []
  | .trap g c => encC 0x12 g (c.toNat) []
  | .rft g s => encC 0x13 g (s.val * 2 ^ 17) []
  | .csrr g d r => encC 0x14 g (d.val * 2 ^ 17 + r.toNat) []
  | .csrw g s r => encC 0x15 g (s.val * 2 ^ 17 + r.toNat) []
  | .csrwValue g r v => encC 0x15 g (r.toNat) [v.toNat]
  | .rgopen g d => encC 0x16 g (d.toNat) []
  | .rgclose g => encC 0x17 g (0) []
  | .seal g => encC 0x18 g (0) []
  | .irrev g t => encC 0x19 g (t.val * 2 ^ 17) []
  | .irrevTarget g t => encC 0x19 g (0) [t.toNat]
  | .lshare g n => encC 0x1a g (n.toNat) []
  | .brk g c => encC 0x1b g (c.toNat) []
  | .xmovC g s fl d => encC 0x1c g (s.val * 2 ^ 17 + d.val * 2 ^ 12 + fl.code * 2 ^ 8) []
  | .kli g d v => encC 0x1d g (d.val * 2 ^ 17 + v.toNat) []
  | .kliLong g d v => encC 0x1d g (d.val * 2 ^ 17) [v.toNat]
  | .add u g d x y => encAB u 0x1 g d.val x.code y.code 0 (litS x y)
  | .sub u g d x y => encAB u 0x2 g d.val x.code y.code 0 (litS x y)
  | .and u g d x y => encAB u 0x3 g d.val x.code y.code 0 (litS x y)
  | .or u g d x y => encAB u 0x4 g d.val x.code y.code 0 (litS x y)
  | .xor u g d x y => encAB u 0x5 g d.val x.code y.code 0 (litS x y)
  | .andn u g d x y => encAB u 0x6 g d.val x.code y.code 0 (litS x y)
  | .sll u g d x y => encAB u 0x7 g d.val x.code y.code 0 (litS x y)
  | .srl u g d x y => encAB u 0x8 g d.val x.code y.code 0 (litS x y)
  | .sra u g d x y => encAB u 0x9 g d.val x.code y.code 0 (litS x y)
  | .rol u g d x y => encAB u 0xa g d.val x.code y.code 0 (litS x y)
  | .min u g d x y => encAB u 0xb g d.val x.code y.code 0 (litS x y)
  | .max u g d x y => encAB u 0xc g d.val x.code y.code 0 (litS x y)
  | .minu u g d x y => encAB u 0xd g d.val x.code y.code 0 (litS x y)
  | .maxu u g d x y => encAB u 0xe g d.val x.code y.code 0 (litS x y)
  | .mul u g d x y => encAB u 0xf g d.val x.code y.code 0 (litS x y)
  | .mulh u g d x y => encAB u 0x10 g d.val x.code y.code 0 (litS x y)
  | .mulhu u g d x y => encAB u 0x11 g d.val x.code y.code 0 (litS x y)
  | .div u g d x y => encAB u 0x12 g d.val x.code y.code 0 (litS x y)
  | .divu u g d x y => encAB u 0x13 g d.val x.code y.code 0 (litS x y)
  | .rem u g d x y => encAB u 0x14 g d.val x.code y.code 0 (litS x y)
  | .remu u g d x y => encAB u 0x15 g d.val x.code y.code 0 (litS x y)
  | .li u g d x => encAB u 0x16 g d.val x.code 0 0 (litS x x)
  | .bfx u g d x y => encAB u 0x17 g d.val x.code y.code 0 (litS x y)
  | .bfxu u g d x y => encAB u 0x18 g d.val x.code y.code 0 (litS x y)
  | .bfi u g d x y => encAB u 0x19 g d.val x.code y.code 0 (litS x y)
  | .clz u g d x => encAB u 0x1a g d.val x.code 0 0 (litS x x)
  | .ctz u g d x => encAB u 0x1b g d.val x.code 0 0 (litS x x)
  | .popc u g d x => encAB u 0x1c g d.val x.code 0 0 (litS x x)
  | .sel u g d n x y => encAB u 0x1d g d.val x.code y.code n.val (litS x y)
  | .cmp u g k c x y => encAB u 0x1e g k.val x.code y.code c.code (litS x y)
  | .lea u g d x y sh => encAB u 0x1f g d.val x.code y.code sh.val (litS x y)
  | .xmovAB u g fl d x => encAB u 0x20 g d.val x.code 0 fl.code (litS x x)
  | .xmovpGet u g d => encAB u 0x21 g d.val 0 0 0 []
  | .xmovpSet u g k x => encAB u 0x21 g k.val x.code 0 1 (litS x x)
  | .sxt u g d x w => encAB u 0x22 g d.val x.code 0 w.val (litS x x)
  | .zxt u g d x w => encAB u 0x23 g d.val x.code 0 w.val (litS x x)
  | .abs u g d x => encAB u 0x24 g d.val x.code 0 0 (litS x x)
  | .bswap u g d x => encAB u 0x25 g d.val x.code 0 0 (litS x x)
  | .brev u g d x => encAB u 0x26 g d.val x.code 0 0 (litS x x)
  | .cmpu u g k c x y => encAB u 0x27 g k.val x.code y.code c.code (litS x y)
  | .ldb g fl d x y => encM 0x1 g d.val fl.code x.code y.code (litS x y)
  | .ldbu g fl d x y => encM 0x2 g d.val fl.code x.code y.code (litS x y)
  | .ldh g fl d x y => encM 0x3 g d.val fl.code x.code y.code (litS x y)
  | .ldhu g fl d x y => encM 0x4 g d.val fl.code x.code y.code (litS x y)
  | .ldw g fl d x y => encM 0x5 g d.val fl.code x.code y.code (litS x y)
  | .ldd g d x y => encM 0x6 g d.val 6 x.code y.code (litS x y)
  | .stb g fl d x y => encM 0x7 g d.val fl.code x.code y.code (litS x y)
  | .sth g fl d x y => encM 0x8 g d.val fl.code x.code y.code (litS x y)
  | .stw g fl d x y => encM 0x9 g d.val fl.code x.code y.code (litS x y)
  | .std g d x y => encM 0xa g d.val 6 x.code y.code (litS x y)
  | .vld g u d x y e => encM 0xb g d.val u.code x.code y.code (extOr (e.map encSwizzle) (litS x y))
  | .vst g u d x y e => encM 0xc g d.val u.code x.code y.code (extOr (e.map encSwizzle) (litS x y))
  | .vldth g u d x y e => encM 0xd g d.val u.code x.code y.code (extOr (e.map encTranspose) (litS x y))
  | .rld g fl d x y => encM 0xe g d.val fl.code x.code y.code (litS x y)
  | .rst g fl d x y => encM 0xf g d.val fl.code x.code y.code (litS x y)
  | .rvld g u d x y e => encM 0x10 g d.val u.code x.code y.code (extOr (e.map encSwizzle) (litS x y))
  | .rvst g u d x y e => encM 0x11 g d.val u.code x.code y.code (extOr (e.map encSwizzle) (litS x y))
  | .qst g q x y => encM 0x12 g q.val 0 x.code y.code (litS x y)
  | .gld g d x y n b => encM 0x13 g d.val 3 x.code y.code [n.val * 2 ^ 16 + b.val]
  | .gst g d x y n b => encM 0x14 g d.val 3 x.code y.code [n.val * 2 ^ 16 + b.val]
  | .gatom g d x y op w64 b => encM 0x15 g d.val 3 x.code y.code [op.val * 2 ^ 26 + w64.toNat * 2 ^ 15 + b.val]
  | .mli g d y => encM 0x16 g d.val 3 0 y.code (litS y y)
  | .madd g d x y => encM 0x17 g d.val 3 x.code y.code (litS x y)
  | .xmovM g fl d x => encM 0x18 g d.val fl.code x.code 0 (litS x x)
  | .irst g fl d x y b => encM 0x19 g d.val fl.code x.code y.code [b.toNat]
  | .vstm g u d x y e => encM 0x1a g d.val u.code x.code y.code (extOr (e.map encMasked) (litS x y))
  | .pld g none x y => encM 0x1b g 0 9 x.code y.code (litS x y)
  | .pld g (some d) x y => encM 0x1b g d.val 10 x.code y.code (litS x y)
  | .pst g none x y => encM 0x1c g 0 9 x.code y.code (litS x y)
  | .pst g (some d) x y => encM 0x1c g d.val 10 x.code y.code (litS x y)
  | .vadd u lp e d a b => encVW u 0x1 lp d.code a.code b.code e.code (litV a b)
  | .vsub u lp e d a b => encVW u 0x2 lp d.code a.code b.code e.code (litV a b)
  | .vmul u lp e d a b => encVW u 0x3 lp d.code a.code b.code e.code (litV a b)
  | .vfma u lp e d a b => encVW u 0x4 lp d.val a.code b.code e.code (litV a b)
  | .vfms u lp e d a b => encVW u 0x5 lp d.val a.code b.code e.code (litV a b)
  | .vfnma u lp e d a b => encVW u 0x6 lp d.val a.code b.code e.code (litV a b)
  | .vmin u lp e d a b => encVW u 0x7 lp d.code a.code b.code e.code (litV a b)
  | .vmax u lp e d a b => encVW u 0x8 lp d.code a.code b.code e.code (litV a b)
  | .vabs u lp e d a => encVW u 0x9 lp d.code a.code 0 e.code (litV a a)
  | .vneg u lp e d a => encVW u 0xa lp d.code a.code 0 e.code (litV a a)
  | .vdiv u lp e d a b => encVW u 0xb lp d.code a.code b.code e.code (litV a b)
  | .vrcp u lp e d a => encVW u 0xc lp d.code a.code 0 e.code (litV a a)
  | .vsqrt u lp e d a => encVW u 0xd lp d.code a.code 0 e.code (litV a a)
  | .vrsqrt u lp d a => encVW u 0xe lp d.code a.code 0 0 (litV a a)
  | .vexp2 u lp d a => encVW u 0xf lp d.code a.code 0 0 (litV a a)
  | .vlog2 u lp d a => encVW u 0x10 lp d.code a.code 0 0 (litV a a)
  | .vsin u lp d a => encVW u 0x11 lp d.code a.code 0 0 (litV a a)
  | .vcos u lp d a => encVW u 0x12 lp d.code a.code 0 0 (litV a a)
  | .vtanh u lp d a => encVW u 0x13 lp d.code a.code 0 0 (litV a a)
  | .vround u lp e d a => encVW u 0x14 lp d.code a.code 0 e.code (litV a a)
  | .vtrunc u lp e d a => encVW u 0x15 lp d.code a.code 0 e.code (litV a a)
  | .vcvt u lp e sf d a h => encVW u 0x16 lp d.code a.code (h.val * 2 ^ 4 + sf.code) e.code (litV a a)
  | .vcmpeq u lp e k a b wit => encVW u 0x17 lp k.val a.code b.code e.code (extOr (wit.map Fin.val) (litV a b))
  | .vcmpne u lp e k a b wit => encVW u 0x18 lp k.val a.code b.code e.code (extOr (wit.map Fin.val) (litV a b))
  | .vcmplt u lp e k a b wit => encVW u 0x19 lp k.val a.code b.code e.code (extOr (wit.map Fin.val) (litV a b))
  | .vcmple u lp e k a b wit => encVW u 0x1a lp k.val a.code b.code e.code (extOr (wit.map Fin.val) (litV a b))
  | .vcmpgt u lp e k a b wit => encVW u 0x1b lp k.val a.code b.code e.code (extOr (wit.map Fin.val) (litV a b))
  | .vcmpge u lp e k a b wit => encVW u 0x1c lp k.val a.code b.code e.code (extOr (wit.map Fin.val) (litV a b))
  | .vsel u lp n d a b => encVW u 0x1d lp d.code a.code b.code n.val (litV a b)
  | .vmov u lp d a => encVW u 0x1e lp d.code a.code 0 0 (litV a a)
  | .vbcast u lp i d a => encVW u 0x1f lp d.code a.code 0 i.val (litV a a)
  | .vpbc u lp k n => encVW u 0x20 lp k.val n.val 0 0 []
  | .vperm u lp d a x => encVW u 0x21 lp d.code a.code x.code 0 (litV a x)
  | .gxch u lp d a m => encVW u 0x22 lp d.code a.code 0 0 [m.toNat]
  | .vxld u lp d a x j => encVW u 0x23 lp d.code a.code x.code 0 [j.val]
  | .vsum u lp e d a => encVW u 0x24 lp d.code a.code 0 e.code (litV a a)
  | .vsumc u lp e d a => encVW u 0x25 lp d.code a.code 0 e.code (litV a a)
  | .vrmin u lp e d a => encVW u 0x26 lp d.code a.code 0 e.code (litV a a)
  | .vrmax u lp e d a => encVW u 0x27 lp d.code a.code 0 e.code (litV a a)
  | .vpack u lp e d a => encVW u 0x28 lp d.code a.code 0 e.code (litV a a)
  | .vunpk u lp e d a => encVW u 0x29 lp d.code a.code 0 e.code (litV a a)
  | .visab u lp e k a => encVW u 0x2a lp k.val a.code 0 e.code (litV a a)
  | .vmkab u lp e d a n => encVW u 0x2b lp d.code a.code n.val e.code (litV a a)
  | .vand u lp e d a b => encVW u 0x2c lp d.code a.code b.code e.code (litV a b)
  | .vor u lp e d a b => encVW u 0x2d lp d.code a.code b.code e.code (litV a b)
  | .vxor u lp e d a b => encVW u 0x2e lp d.code a.code b.code e.code (litV a b)
  | .vshl u lp e d a b => encVW u 0x2f lp d.code a.code b.code e.code (litV a b)
  | .vshr u lp e d a b => encVW u 0x30 lp d.code a.code b.code e.code (litV a b)
  | .vsra u lp e d a b => encVW u 0x31 lp d.code a.code b.code e.code (litV a b)
  | .vpand u lp k a b => encVW u 0x32 lp k.val a.val b.val 0 []
  | .vpor u lp k a b => encVW u 0x33 lp k.val a.val b.val 0 []
  | .vpxor u lp k a b => encVW u 0x34 lp k.val a.val b.val 0 []
  | .vpnot u lp k a => encVW u 0x35 lp k.val a.val 0 0 []
  | .vlane u lp d => encVW u 0x36 lp d.code 0 0 0 []
  | .vscl u lp e d a b => encVW u 0x37 lp d.code a.code b.code e.code (litV a b)
  | .vclamp u lp e d a b => encVW u 0x38 lp d.val a.code b.code e.code (litV a b)
  | .vsgnj u lp e d a b => encVW u 0x39 lp d.code a.code b.code e.code (litV a b)
  | .vsigm u lp d a => encVW u 0x3a lp d.code a.code 0 0 (litV a a)
  | .vpcnt u lp d n => encVW u 0x3b lp d.code n.val 0 0 []
  | .xmovV u lp fl d a => encVW u 0x3c lp d.val a.code 0 fl.code (litV a a)
  | .mcall g i => encX 0x1 g (i.val) []
  | .mload g s b => encX 0x2 g (s.val * 2 ^ 18 + b.val * 2 ^ 15) []
  | .xli g d v => encX 0x3 g (d.val * 2 ^ 18 + v.body) v.words
  | .xlih g d v => encX 0x4 g (d.val * 2 ^ 18 + v.body) v.words
  | .xadd g d s v => encX 0x5 g (d.val * 2 ^ 18 + s.val * 2 ^ 15 + v.body) v.words
  | .xins g d s p l => encX 0x6 g (d.val * 2 ^ 18 + s.val * 2 ^ 15 + p.val * 2 ^ 9 + l.val * 2 ^ 3) []
  | .xmovX g s fl d hi => encX 0x7 g (s.val * 2 ^ 18 + d.val * 2 ^ 13 + fl.code * 2 ^ 9 + hi.toNat * 2 ^ 8) []
  | .mqclr g m => encX 0x8 g (m.toNat) []
  | .mcancel g => encX 0x9 g (0) []
  | .cpy g sl x y nb rel acq => encS .f 0x1 g.code sl.val x.code y.code (encFlags nb rel acq) (litS x y)
  | .cpy2d g sl x y nb rel acq => encS .f 0x2 g.code sl.val x.code y.code (encFlags nb rel acq) (litS x y)
  | .cpyt g sl x y nb rel acq => encS .f 0x3 g.code sl.val x.code y.code (encFlags nb rel acq) (litS x y)
  | .cpyg g sl x y nb rel acq => encS .f 0x4 g.code sl.val x.code y.code (encFlags nb rel acq) (litS x y)
  | .cpys g sl x y nb rel acq => encS .f 0x5 g.code sl.val x.code y.code (encFlags nb rel acq) (litS x y)
  | .strm g sl x y nb rel acq => encS .f 0x6 g.code sl.val x.code y.code (encFlags nb rel acq) (litS x y)
  | .strmx g sl x y nb rel acq => encS .f 0x7 g.code sl.val x.code y.code (encFlags nb rel acq) (litS x y)
  | .cpyx g sl x y nb rel acq => encS .f 0x8 g.code sl.val x.code y.code (encFlags nb rel acq) (litS x y)
  | .mcast g sl x y nb rel acq => encS .f 0x9 g.code sl.val x.code y.code (encFlags nb rel acq) (litS x y)
  | .rot g x y cnt dir l b => encS .f 0xa g.code 0 x.code y.code (cnt.toNat * 2 + dir.toNat) [l.val * 2 ^ 16 + b.val]
  | .binit g x y sc => encS .f 0xb g.code 0 x.code y.code sc.val (litS x y)
  | .bidle g x => encS .f 0xc g.code 0 x.code 0 0 (litS x x)
  | .barv g x y => encS .f 0xd g.code 0 x.code y.code 0 (litS x y)
  | .qpush g x y q => encS .f 0xe g.code 0 x.code y.code q.val (litS x y)
  | .tsort g sl x y nb rel acq => encS .f 0xf g.code sl.val x.code y.code (encFlags nb rel acq) (litS x y)
  | .fli g d x => encS .f 0x10 g.code d.val x.code 0 0 (litS x x)
  | .fadd g d x y => encS .f 0x11 g.code d.val x.code y.code 0 (litS x y)
  | .fsub g d x y => encS .f 0x12 g.code d.val x.code y.code 0 (litS x y)
  | .fsll g d x y => encS .f 0x13 g.code d.val x.code y.code 0 (litS x y)
  | .xmovF g fl d x => encS .f 0x14 g.code d.val x.code 0 fl.code (litS x x)
  | .cpstat g d x => encS .f 0x15 g.code d.val x.code 0 0 (litS x x)
  | .cpfill g sl x y nb rel acq => encS .f 0x16 g.code sl.val x.code y.code (encFlags nb rel acq) (litS x y)
  | .sqcfg g sl x y nb rel acq => encS .f 0x18 g.code sl.val x.code y.code (encFlags nb rel acq) (litS x y)
  | .sqbind g sl x y nb rel acq => encS .f 0x19 g.code sl.val x.code y.code (encFlags nb rel acq) (litS x y)
  | .sqstage g sl x y nb rel acq => encS .f 0x1a g.code sl.val x.code y.code (encFlags nb rel acq) (litS x y)
  | .sqtake g sl x y nb rel acq => encS .f 0x1b g.code sl.val x.code y.code (encFlags nb rel acq) (litS x y)
  | .sqjudge g sl y nb rel acq => encS .f 0x1c g.code sl.val 0 y.code (encFlags nb rel acq) (litS y y)
  | .sqstat g sl x y nb rel acq => encS .f 0x1d g.code sl.val x.code y.code (encFlags nb rel acq) (litS x y)
  | .bnet g d x y p => encS .n 0x1 g.code d.val x.code y.code p.val (litS x y)
  | .bnld g x y p => encS .n 0x2 g.code 0 x.code y.code p.val (litS x y)
  | .nfill g d x wc => encS .n 0x3 g.code d.val x.code 0 wc.val (litS x x)
  | .nli g d x => encS .n 0x4 g.code d.val x.code 0 0 (litS x x)
  | .nadd g d x y => encS .n 0x5 g.code d.val x.code y.code 0 (litS x y)
  | .xmovN g fl d x => encS .n 0x6 g.code d.val x.code 0 fl.code (litS x x)
  | .idleBundle => some ⟨.header, 0, []⟩
  | .loopEndMark => some ⟨.header, 2 ^ 31, []⟩
  | .segmentMark => some ⟨.header, 2 ^ 30, []⟩
  | .queuePop m => some ⟨.header, m.toNat * 2 ^ 22, []⟩
  | .mend => encU 0x0 (0)
  | .mstep w => encU 0x1 (w.val * 2 ^ 24)
  | .mclr => encU 0x2 (0)
  | .mloop e n => encU 0x3 (e.val * 2 ^ 9 + n.val)
  | .mloopZ z sh e => encU 0x3 (2 ^ 27 + z.val * 2 ^ 24 + sh.val * 2 ^ 20 + e.val * 2 ^ 9)
  | .mendl => encU 0x4 (0)
  | .madv d i => encU 0x5 (d.val * 2 ^ 25 + i.toNat)
  | .madvParam d p => encU 0x5 (d.val * 2 ^ 25 + 2 ^ 24 + p.val * 2 ^ 20)
  | .mshape => encU 0x6 (0)
  | .mdrain p c => encU 0x7 (p.val * 2 ^ 24 + c.toNat * 2 ^ 23)
  | .mwaitb z i => encU 0x8 (z.val * 2 ^ 25 + i.toNat * 2 ^ 24)
  | .msig z b => encU 0x9 (z.val * 2 ^ 25 + b.toNat * 2 ^ 13)
  | .mset d i => encU 0xa (d.val * 2 ^ 25 + i.toNat)
  | .msetParam d p => encU 0xa (d.val * 2 ^ 25 + 2 ^ 24 + p.val * 2 ^ 20)
  | .mmad d z p => encU 0xb (d.val * 2 ^ 25 + z.val * 2 ^ 22 + p.val * 2 ^ 18)
  | .mskz z n => encU 0xc (z.val * 2 ^ 25 + n.toNat)
  | .mjmp t => encU 0xd (t.val)
  | .mnop => encU 0xe (0)
  | .mfence => encU 0xf (0)
  | .mcallAccept _
  | .drainPush _
  | .mloadInstall _
  | .nopPacket _
  | .launchPacket _
  | .graphPacket _
  | .sealPacket _
  | .copyPacket _
  | .signalPacket _
  | .waitPacket _
  | .fencePacket _
  | .waitPoll _
  | .packetAcceptance _
  | .packetCompletion _
  | .graphNodeDispatch _ _
  | .qtailNotification _ _
  | .queueEnable _ _
  | .queueDisable _ _
  | .handleEntryWrite _ _ _ _
  | .tlbinvAll _
  | .tlbinvProgram _ _
  | .tlbinvPage _ _ _
  | .tlbinvComplete _
  | .attestationRequest
  | .attestationComplete
  | .debugUnlock
  | .debugStopRequest _
  | .debugPreemptRequest _
  | .debugResume _
  | .dbgdataWrite _ _
  | .replayGo _
  | .traceEnable _
  | .alarmClear _
  | .lclkWrite _ _
  | .clockRatioChange _ _
  | .wdcfgWrite _
  | .cstateWrite _ _
  | .lossCounterClear _ _ _
  | .registerWrite _ _
  | .hostRead _ _ _
  | .hostWrite _ _ _ _
  | .coldBoot _
  | .selfTest _
  | .functionLevelReset
  | .resultDue _
  | .remoteLoadDelivery _
  | .bankArbitration _ _ _
  | .lichenCycle _ _
  | .rotDelivery _
  | .messageArrival _
  | .pageTableWalk _ _ _
  | .globalAccessPerform _
  | .engineCommandStart _
  | .engineCommandCompletion _ _
  | .segmentCopyLands _ _
  | .sorusDispatch _
  | .steal _
  | .stealTake _
  | .suspensionPointComplete _
  | .trapVectoring _
  | .taskLimitExpiry _
  | .saveModeCutoff _
  | .rollback
  | .sealPeriodExpiry
  | .sealRequestMessage _
  | .quiesceWindowExpiry
  | .sealCheckpoint
  | .quiescedReport
  | .quiescedMessage _
  | .cutMessage
  | .readyReport
  | .readyMessage _
  | .commitMessage
  | .abortMessage
  | .sealTimeout
  | .settleWalkComplete _
  | .egressGapExpiry
  | .scrubPass _ _ _ _ _
  | .bankSubstitutionComplete _ _ _ _
  | .quarantineTest _ _
  | .ptmMeasurement _ _
  | .thermalSample _ _ _
  | .clockThrottle _ _
  | .flitRetry _
  | .linkDown _
  | .peerUnreachable _
  | .frameReceive _ _
  | .glitchSensor
  | .allocationHandover _ _
  | .peerAccessArrival _ _ => none

/-- The order in which the slots are tried for a word that does not name its slot: no order answers every row, since the
slots share their opcode numbers (R147). -/
def tableSlots : List Slot := [.c, .v, .n, .a, .f, .x, .m, .micro]


/-- The instruction a word of the opcode table stands for. The word alone does not name its slot (R147), so the
slots are tried in the order of `tableSlots`, first without an extension word and then with extension words of zeros. -/
def decodeTableWord (nbits w : Nat) : Option Instr :=
  firstOf (tableSlots.flatMap fun sl => (extChoices nbits w).map fun e => (sl, e))
where
  extChoices (nbits w : Nat) : List (List Nat) :=
    if nbits ≤ 32 then [[], [0], [0, 0]]
    else if nbits ≤ 64 then [[field w 32 32]] else [[field w 32 32, field w 64 32]]
  firstOf : List (Slot × List Nat) → Option Instr
    | [] => none
    | (sl, e) :: rest =>
      match decodeSlot sl (field w 0 32) e with
      | .ok i => some i
      | .error _ => firstOf rest

end Sys2Proof
end

