-- ==== Sys2Proof/Machine/State.lean ====
section
/-! DEFINITION. The state of the machine, as plain data, and the machine right after reset. Every collection with a
large index space is sparse: a list of index and entry pairs in which an unlisted index reads as the default its
accessor names. INVENTORY.md lists each piece with the rule of the spec that names it. -/

namespace Sys2Proof.Machine

open Sys2Proof

/-- Why a step stops: never. Every error of the spec is a trap that is taken, a rollback, a report or an alarm, and each is
a next state; a module that is held in reset goes on too, doing nothing but answer (R427, R435). Safe. -/
inductive Fault where
deriving DecidableEq, Repr

/-- Why an instruction has no meaning here. -/
inductive Refusal where
  /-- Raised by an arm of `exec` whose instruction has no meaning yet. Safe: the run stops. -/
  | notModelled (mnemonic : String)
deriving DecidableEq, Repr

/-! Results in flight (R31, R164). -/

/-- Where a result is written when it falls due. Vector destinations carry the lanes that were active (R168). -/
inductive Dest where
  /-- A register of a file of 32-bit registers. -/
  | word (fl : File) (r : Nat) (v : Word)
  /-- A register of file X. -/
  | wide (r : Nat) (v : Dword)
  /-- A vector register. -/
  | lanes (u : UnitVW) (r : Nat) (v : Lanes) (active : Mask)
  /-- A scalar predicate pair: p2k and p2k+1. -/
  | pair (k : Nat) (lo hi : Bool)
  /-- A vector predicate pair: the halves written, in the active lanes. -/
  | vpair (k : Nat) (lo hi : Option Mask) (active : Mask)
  /-- A single vector predicate: a witness or the validity of `vxld` (R286). -/
  | vsingle (r : Nat) (v : Mask) (active : Mask)
  /-- A control register written by `csrw` (R205). -/
  | csr (n : Nat) (v : Word)
  /-- FMT (R66). -/
  | fmt (v : Word)
  /-- A pattern of the bit network (R290). -/
  | pattern (i : Nat) (bytes : List Byte)
deriving DecidableEq, Repr

/-- An entry of a latch stack (R16). -/
inductive Latched where
  | scalar (fl : File) (v : Word)
  | vector (u : UnitVW) (v : Lanes)
deriving DecidableEq, Repr

/-- A result in flight: the value of the core's schedule-cycle count at which it falls due, the issuing slot's place in
slot order, its place in issue order, what enters a latch stack, what is written, the sticky flags raised at completion
(R55), and whether it holds poisoned data (R359). -/
structure Pending where
  due : Nat
  slot : Nat
  order : Nat
  latch : Option Latched
  dsts : List Dest
  flags : Word
  poisoned : Bool
deriving DecidableEq, Repr

/-- Who makes a write, for the region logs (R381, R382): an operation of a frond at a region level on a core, or another
party. -/
inductive Writer where
  | region (frond level core : Nat)
  | other
deriving DecidableEq, Repr

/-- What a remote access does (R118, R234): a load from a near address or a base row, with the swizzle of a vector load and
the register it is for; or a store of bytes at near addresses. -/
inductive RemoteOp where
  | load (addr : Nat) (swizzle : Option Swizzle) (fl : File) (d : Nat)
  | store (chunks : List (Nat × List Byte)) (writer : Writer)
deriving DecidableEq, Repr

/-- What a load has been bound to (R112): its destinations, its latch entry, and whether the data are poisoned. -/
structure Bound where
  dsts : List Dest
  latch : Option Latched
  bad : Bool
deriving DecidableEq, Repr

/-- A remote access that has not performed (R71, R118, R234, R235): its due cycle, its place in issue order, when it issued,
the member's core, what it does, whether its requests stand at the member's banks, whether it is an acquire (R122) and what a load is
bound to before it performs, and whether a store to the issuer's own column stands there already for the issuer (R117, R118). -/
structure RemoteAccess where
  due : Nat
  order : Nat
  issued : Nat
  target : Nat
  op : RemoteOp
  asked : Bool
  acq : Bool
  bound : Option Bound
  early : Bool
deriving DecidableEq, Repr

/-- Old contents of a byte of the own column that others still see in place of a later store (R122, R124, R141): when the
bundle stored, by the clock for a `drain` or a release and by the group's count for the compare of a pair; whether the store
is a release, which the remote accesses before it precede; the address, the byte. -/
structure Veil where
  stamp : Nat
  release : Bool
  pa : Nat
  old : Byte
deriving DecidableEq, Repr

/-! Numbers of the matrix unit (R61, R314). -/

/-- An accumulator triple (R61): sum, compensation, count of present contributors. -/
structure Triple where
  s : Word
  c : Word
  n : Nat
deriving DecidableEq, Repr

/-- The check state of one row or column (R314). The exact sums are integers in units of 2 to the power -300. -/
structure Check where
  sum : Int
  mag : Int
  count : Nat
  special : Bool
deriving DecidableEq, Repr

/-- An entry of q0 to q3 with its tag, and the first cycle in which a bundle sees it (R237, R317). -/
structure QEntry where
  since : Nat
  bytes : List Byte
  fmt : Format
  layout : Nat
  skip : Bool
  rb : Nat
  cb : Nat
deriving DecidableEq, Repr

/-! Contexts (R34). -/

/-- The latch stacks, newest entry first (R16). -/
structure Latches where
  a : List Word
  b : List Word
  m : List Word
  f : List Word
  n : List Word
  v : List Lanes
  w : List Lanes
deriving DecidableEq, Repr

/-- The task context of a core (R13 to R17, R34, R61, R188, R206, R207, R246, R288, R314, R346 to R348, R363), with the times
of the `drain` instructions that have not completed, the own-column bytes that they hide from others (R123, R124), and those
that a leading core's stores wait with for the compare (R141). -/
structure Task where
  a : List Word
  b : List Word
  k : List Word
  m : List Word
  f : List Word
  n : List Word
  x : List Dword
  v : List Lanes
  w : List Lanes
  preds : BitVec 16
  vpreds : List Mask
  latches : Latches
  patterns : List (List Byte)
  queues : List (List QEntry)
  slots : List (Word × Word)
  slotCmds : List Nat
  cells : Sparse Triple
  rows : Sparse Check
  cols : Sparse Check
  fmt : Word
  status : Word
  stage : Word
  group : Word
  depth : Nat
  rgh : List Word
  cd : Nat
  ld : Nat
  loopA : List Word
  loopB : List Word
  loopC : List Word
  link : List Word
  tvec : Word
  tcause : Word
  tpc : Word
  energy : Dword
  timeCapture : Option Word
  energyCapture : Option Word
  pc : Word
  pend : List Pending
  remotes : List RemoteAccess
  order : Nat
  fences : List Nat
  hidden : List Veil
  veiled : List Veil
deriving DecidableEq, Repr

/-- A tile of a `rot` in flight to one core (R254): its number, the cycle it is due, the bytes, where they go, its barrier,
which of its bytes are poisoned (R391), and for which region it is written (R381). -/
structure Tile where
  id : Nat
  due : Nat
  target : Nat
  addr : Nat
  bytes : List Byte
  bar : Option Nat
  bad : List Bool
  writer : Writer
deriving DecidableEq, Repr

/-- The lichen context of a core (R34, R206, R363): its files, its energy count, the words that reads of TIME and ENERGY
captured, its results in flight with the cycle count they fall due at, its tiles in flight, whether its bundle waits for
banks (R85), and whether the fault service has it (R362). -/
structure Lichen where
  a : List Word
  b : List Word
  k : List Word
  m : List Word
  f : List Word
  preds : BitVec 16
  energy : Dword
  timeCapture : Option Word
  energyCapture : Option Word
  pend : List Pending
  tiles : List Tile
  asked : Bool
  cycle : Nat
  order : Nat
  inFault : Bool
deriving DecidableEq, Repr

/-- What an `mcall` captured at issue (R67, R296), when it issued, and whether its group still waits for the unit to accept it:
a vectoring ends that wait (R32, R320, R351). -/
structure Call where
  start : Nat
  params : List Word
  fmt : Word
  issued : Nat
  pauses : Bool
deriving DecidableEq, Repr

/-- A running routine (R296, R300, R305): what its call captured, the store as it stood at acceptance, its micro registers,
micro PC and loop stack, when its call issued, whether the bank requests of its next read stand (R306, R308), and whether it
ends when the micro-op in progress is complete (R299). -/
structure Routine where
  params : List Word
  fmt : Word
  prog : List Word
  z : List Word
  pc : Nat
  loops : List (Nat × Nat)
  issued : Nat
  asked : Bool
  cancelled : Bool
deriving DecidableEq, Repr

/-- The matrix unit of a core (R293 to R310): entry table, routine, waiting call, drain buffer with the queue of each entry
in push order, and whether a suspension discards entries that find their queue full (R318). -/
structure Matrix where
  entries : List (Option Nat)
  routine : Option Routine
  waiting : Option Call
  drain : List (Nat × QEntry)
  discard : Bool
deriving DecidableEq, Repr

/-- An overlay slot (R169 to R172): the program and segment it holds or is being filled with. -/
structure Overlay where
  program : Nat
  segment : Nat
  state : Nat
deriving DecidableEq, Repr

/-- The debug registers of a core (R415). -/
structure Debug where
  en : Bool
  step : Bool
  bkpt : List Dword
  sel : Dword
deriving DecidableEq, Repr

/-- The thermal sensor of a column (R434, R435): the value in use, the last raw reading, how often it came unchanged, the energy
charged in the column at the last sample, the energy between each two of the last samples that came unchanged, newest first and
4,095 at most, and what half-clock causes it holds. -/
structure Sensor where
  failed : Bool
  subst : Bool
  reason : Nat
  temp : Int
  raw : Int
  same : Nat
  mark : Nat
  rates : List Nat
  hot : Bool
deriving DecidableEq, Repr

/-- One core column (R9): its contexts, its matrix unit, its inbound queues q4 to q7 (R257), the registers that belong to
the core, its overlay slots, its loss matrix with the last snapshot (R411 to R413), its trace numbers (R409, R410), the debug and repair
registers (R390, R415; of each layer its two reserve banks, as the bank replaced, or 32 free, or 33 failing; of each bond
group its spares that are taken or fail, the latter with lane 256), the banks being copied into reserves, as layer and bank (R393), whether its twin pair has diverged and
awaits a test (R388), the energy charged in its column, and its thermal sensor. -/
structure Core where
  task : Task
  lichen : Lichen
  mx : Matrix
  inbound : List (List (List Byte))
  lshare : Nat
  eweights : List Word
  overlay : List Overlay
  loss : Sparse Nat
  lossSeen : Sparse Nat
  traceSeq : Nat
  traceDropped : Nat
  dbg : Debug
  pendLoss : BitVec 4
  lost : BitVec 4
  cstate : Nat
  bankRep : List (List Nat)
  laneRep : List (List (Nat × Nat))
  subst : List (Nat × Nat)
  diverged : Bool
  charged : Nat
  sensor : Sensor
deriving DecidableEq, Repr

/-! Lockstep groups (R30). -/

/-- A cause that waits for its turn (R350): its code, its detail, and the ranks on which it arose. -/
structure Cause where
  code : Nat
  detail : Nat
  ranks : List Nat
  tpc : Option Word
deriving DecidableEq, Repr

/-- How a task is to end at its suspension point (R27, R193, R194, R202, R212). -/
inductive SuspKind where
  | susp
  | endTask
  | irrev (interval : Nat)
deriving DecidableEq, Repr

/-- A suspension that has issued and not completed (R29, R193). -/
structure Suspension where
  kind : SuspKind
  target : Word
  waits : List Word
deriving DecidableEq, Repr

/-- What the debug stop of a frozen group replaced on one core: TCAUSE and TPC (R361). -/
structure Frozen where
  saved : List (Nat × Word × Word)
deriving DecidableEq, Repr

/-- One covered item of a bundle's signature (R385): what was written and the data. -/
structure SigItem where
  what : Nat
  addr : Nat
  data : Nat
deriving DecidableEq, Repr

/-- A result of a remote load that one core of a twin pair was bound to and the other not yet (R141): the rank, the load's
place in issue order, and what was delivered. -/
structure TwinLoad where
  rank : Nat
  order : Nat
  core : Nat
  items : List SigItem
deriving DecidableEq, Repr

/-- A running lockstep group (R26, R30): its cores in rank order (for a twin frond the leading cores, then the trailing
cores), the frond it runs and under which programs, its counter, its mode (of the leading cores, and whether the trailing
cores have yet to leave save mode), the cause for which it has stopped while what it issued completes (R351 step 2), its pause and
how many of its clock's cycles that has lasted, its limits, how many lichen
cycles its last boundaries took, newest first (R36), the lichen cycle that its boundary takes with the cores that have issued
in it (R35), the signatures and remote loads not yet compared. -/
structure Group where
  gid : Nat
  members : List Nat
  trailing : List Nat
  twin : Bool
  frond : Nat
  space : Nat
  program : Nat
  launch : Word
  priority : Nat
  cluster : Nat
  spill : Word
  privProgram : Bool
  counter : Nat
  saveMode : Bool
  trailingSave : Bool
  saveCount : Nat
  lastCause : Nat
  pending : List Cause
  susp : Option Suspension
  stopping : Option Cause
  tiles : List Tile
  pauseCode : Nat
  pauseCount : Nat
  frozen : Option Frozen
  single : Bool
  limitTicks : Nat
  boundaries : List Nat
  lichenHold : Bool
  lichenCores : List Nat
  dispatched : Nat
  signatures : List (List SigItem)
  loads : List TwinLoad
deriving DecidableEq, Repr

/-! The rollback domain's tables (R367). -/

/-- A byte barrier (R101), with the group that issued its latest `binit` (R120). -/
structure Barrier where
  expected : Nat
  arrived : Nat
  gen : Nat
  init : Bool
  fault : Bool
  scope : Nat
  fcause : Nat
  owner : Option Nat
deriving DecidableEq, Repr

/-- Where a frond stands in its sorus (R23, R25). -/
inductive FrondState where
  | waiting
  | runnable
  | running
deriving DecidableEq, Repr

/-- A frond in a sorus (R25, R337); `broken` says that a condition of R343 has failed since it became runnable (R345). -/
structure Frond where
  ptr : Nat
  space : Nat
  launch : Word
  waits : List Word
  faulted : BitVec 4
  st : FrondState
  ready : Nat
  tie : Nat
  priority : Nat
  widthCode : Nat
  stage : Nat
  base : Nat
  pinned : Bool
  roam : Bool
  twin : Bool
  lastSusp : Nat
  cause : Nat
  hold : Option Nat
  p31 : Bool
  broken : Bool
deriving DecidableEq, Repr

/-- The sorus of a cluster (R337 to R340): its fronds, the members reserved for a head, and the steal in flight as the
sorus and the frond it chose. -/
structure Sorus where
  fronds : List Frond
  reserved : List Nat
  reservedFor : Option Nat
  stealing : Option (Nat × Nat)
deriving DecidableEq, Repr

/-- A handle entry as captured (R91). -/
structure Handle where
  w0 : Dword
  w1 : Dword
  w2 : Dword
  w3 : Dword
deriving DecidableEq, Repr

/-- A sample of the Crozier (R395). -/
structure Sample where
  state : Nat
  t : Word
  h : Word
  tend : Word
  rj : Bool
  conrej : Nat
  totrej : Nat
deriving DecidableEq, Repr

/-- The Crozier of a cluster (R395): a binding is a handle's number and an offset. -/
structure Crozier where
  configured : Bool
  bound : Bool
  stages : Nat
  fsal : Bool
  order : Nat
  maxRej : Nat
  ns : Nat
  n : Nat
  tableau : List Word
  bindings : List (Nat × Nat)
  samples : Sparse Sample
  taken : BitVec 8
deriving DecidableEq, Repr

/-- One write that an engine command has computed: bytes that lie in one line, and which of them hold poisoned data (R391,
R437). -/
structure Piece where
  pa : Nat
  bytes : List Byte
  bad : List Bool
deriving DecidableEq, Repr

/-- A part of a command's source, read while it writes some bytes of its output (R394): the first of them and the first after
them, counted from its first byte, the handle, the offset and the length. -/
structure SourcePart where
  first : Nat
  last : Nat
  handle : Handle
  offset : Nat
  len : Nat
deriving DecidableEq, Repr

/-- What a computing command has worked out: the writes still to make, how it ends (state, reason, flags, word 1), the bytes
it counts at its barrier when it ends, the Crozier it leaves, and what it reads on the way, in the order of its output. -/
structure Job where
  pieces : List Piece
  state : Nat
  reason : Nat
  flags : Nat
  word1 : Word
  arrival : Nat
  croz : Option Crozier
  reads : List SourcePart
deriving DecidableEq, Repr

/-- An engine command (R244 to R247): its opcode and block, the program and die whose handles it names with the entries
captured at acceptance, where it reports (a task's slot, or a packet and its graph node), its flags, who issued it (the core
that is charged, its group, when), the bytes of its issuer's column that the issuer's later stores have replaced and the
command still reads as they were, with their poison (R117), and its progress: whether it has been judged, whether its bank
requests stand (R85), whether a layer has been lost since it started (R394), the list of a gather or a scatter as read at its start, the elements done, the bytes written, the work
of a computing command, flags. -/
structure Command where
  id : Nat
  op : Nat
  block : List Word
  stageIdx : Nat
  program : Nat
  die : Nat
  handles : List (Nat × Handle)
  core : Option Nat
  issuer : Nat
  gid : Nat
  issued : Nat
  slot : Nat
  packet : Option Nat
  node : Option Nat
  barCluster : Nat
  bar : Nat
  nb : Bool
  rel : Bool
  acq : Bool
  scope : Nat
  writer : Writer
  kept : List (Nat × Byte × Bool)
  judged : Bool
  asked : Bool
  hurt : Bool
  list : List Word
  done : Nat
  written : Nat
  job : Option Job
  flags : Nat
deriving DecidableEq, Repr

/-- An engine (R87): the commands that wait and those that run. -/
structure Engine where
  queue : List Command
  running : List Command
deriving DecidableEq, Repr

/-- Where a packet or a graph node stands (R327, R331). -/
inductive PacketState where
  | accepted
  | dispatched
  | completed
  | failed
deriving DecidableEq, Repr

/-- A node of an accepted graph (R331). -/
structure Node where
  words : List Nat
  st : PacketState
  skipped : Bool
  launch : Option Nat
  reason : Nat
deriving DecidableEq, Repr

/-- An accepted packet (R327): its journal number, its queue, its index, its words, its state, its launch, its graph, and
the failure detail (R336). -/
structure Packet where
  seq : Nat
  queue : Nat
  index : Nat
  words : List Nat
  st : PacketState
  launch : Option Nat
  nodes : List Node
  sealInterval : Nat
  detail : Nat
  ready : Bool
deriving DecidableEq, Repr

/-- A launch slot in use (R329). -/
structure Launch where
  seq : Nat
  outstanding : Nat
  offered : Bool
  skipped : Nat
deriving DecidableEq, Repr

/-- A region-log entry (R381): whose region, the core that wrote, the line, its old contents, and its rows or line that held
poison. -/
structure RegionUndo where
  frond : Nat
  level : Nat
  core : Nat
  line : Nat
  old : List Byte
  poison : List Nat
deriving DecidableEq, Repr

/-- An `mload` that has not installed (R297, R386): who asked and in which group, the cores it is for, the handle entry captured
(R93), the region it is written for, the number of its bank requests once they have been made (R83), and the image once it is
read and verified. -/
structure LoadReq where
  core : Nat
  cores : List Nat
  program : Nat
  entry : Handle
  offset : Nat
  barCluster : Nat
  bar : Nat
  writer : Writer
  gid : Nat
  asked : Option Nat
  image : Option (List Byte)
deriving DecidableEq, Repr

/-- What an asynchronous global access does when it performs (R240, R241, R242). -/
inductive GlobalOp where
  | load (near len : Nat)
  | store (bytes : List Byte)
  | atomic (near aop : Nat) (w64 : Bool) (operand second : Nat)
  /-- An `irst` that waits to enter the egress buffer (R242). -/
  | held (bytes : List Byte)
  /-- The old value of a held `gatom`, which lands in the near range (R241). -/
  | landing (near : Nat) (bytes : List Byte)
deriving DecidableEq, Repr

/-- An asynchronous global access in flight (R240), with its scope (R122, R133), whether it has asked the banks (R83), and whether
the irrevocable bytes of a `gst` have taken their egress entries (R380). -/
structure Global where
  id : Nat
  issued : Nat
  core : Nat
  gid : Nat
  space : Nat
  va : Nat
  op : GlobalOp
  barCluster : Nat
  bar : Nat
  writer : Writer
  poisoned : List Bool
  scope : Nat
  asked : Bool
  entered : Bool
deriving DecidableEq, Repr

/-- The part of the state that a checkpoint keeps and a rollback returns (R341, R367, R379): barriers keyed 1,024 times the
cluster plus the number, sori and Croziers keyed by cluster, engines keyed 8 times the cluster plus the layer for
the copy engines, plus 5 for the teller, plus 6 for the Crozier, and 1,024 plus the die for the streaming
engines; images being read; the region logs with the regions found entangled, as frond and level (R381, R382);
the front end's part: QHEAD and the reason of a halt by queue, accepted packets with the snapshots of their graphs, launch slots;
and, in a checkpoint, the asynchronous accesses that waited at the cut to enter an egress buffer (R380). -/
structure Domain where
  barriers : Sparse Barrier
  sori : Sparse Sorus
  croziers : Sparse Crozier
  engines : Sparse Engine
  loads : List LoadReq
  regionLog : List RegionUndo
  entangled : List (Nat × Nat)
  heads : Sparse Nat
  halts : Sparse Nat
  packets : List Packet
  launches : Sparse Launch
  carried : List Global
deriving DecidableEq, Repr

/-! Memory's history and traffic. -/

/-- An undo-log entry (R370, R372): the line, its old contents, its rows or line that held poison, and the interval. -/
structure Undo where
  line : Nat
  old : List Byte
  poison : List Nat
  interval : Nat
deriving DecidableEq, Repr

/-- What stood in the memory of a peer of the seal group where the device wrote, with the interval of the write (R372,
R375); an unlisted byte was not written by the device before. -/
structure PeerUndo where
  interval : Nat
  old : List (Nat × Option Byte)
deriving DecidableEq, Repr

/-- A held irrevocable write (R135, R380): a piece of a frame to send, what to write on release and which of it is poisoned
(R391), or the read-modify-write to make. -/
inductive HeldWrite where
  | send (port : Nat) (data : List Byte)
  | bytes (addr : Nat) (data : List Byte) (bad : List Bool)
  | add (addr : Nat) (v : Word)
  | atomic (addr aop : Nat) (w64 : Bool) (operand second : Nat) (core near : Nat) (barCluster bar gid : Nat)
deriving DecidableEq, Repr

/-- An egress entry (R380): its issuer, its interval, the region it was issued in, as frond and level, and the barrier that is
marked when its write fails, as cluster and number (R425, R436). -/
structure Egress where
  issuer : Nat
  interval : Nat
  region : Option (Nat × Nat)
  report : Option (Nat × Nat)
  write : HeldWrite
deriving DecidableEq, Repr

/-- An allocation that passes to another domain (R109): its first address, its extent, and the interval that has to seal before
the new owner can name it. -/
structure Handover where
  base : Nat
  extent : Extent
  interval : Nat
deriving DecidableEq, Repr

/-- A message in flight to an inbound queue (R257): when and by which core it was sent, and whether it holds poison. -/
structure InFlight where
  target : Nat
  queue : Nat
  bytes : List Byte
  sent : Nat
  source : Nat
  bad : Bool
deriving DecidableEq, Repr

/-- A request waiting at a bank (R85): the column's core, the layer and the bank, the class, whose it is, and the cycles it
has lost. The owner is a core for classes 0, 1, 2, 7 and 10, a tile for class 5, the core under repair or a pass of the scrubber
for class 11, and a command, a global access, a segment copy or an image read for the other classes. A request of class 0
stands for an M slot that has lost cycles at the bank. -/
structure BankRequest where
  core : Nat
  layer : Nat
  bank : Nat
  cls : Nat
  owner : Nat
  waited : Nat
deriving DecidableEq, Repr

/-- A segment copy in flight (R171, R172): the core, the slot, the program and the segment, the one that replaces it, and the
number of its bank requests once they have been made (R83). -/
structure SegCopy where
  core : Nat
  slot : Nat
  program : Nat
  segment : Nat
  after : Option (Nat × Nat)
  asked : Option Nat
deriving DecidableEq, Repr

/-- Work of the repair-and-scrub requester on a bank, a row at a time (R83, R85, R392, R393): the core, the layer, the bank, the
number of its requests, and how many rows it has still to ask for; a pass of the scrubber with how many errors it corrects and the
addresses of those that it cannot, or the copy of a failing bank into its reserve. -/
structure Scrub where
  core : Nat
  layer : Nat
  bank : Nat
  id : Nat
  rows : Nat
  copy : Bool
  corrected : Nat
  bad : List Nat
deriving DecidableEq, Repr

/-- A TLB entry of a cluster (R96): the first page it maps, the leaf entry, and the pages it spans. -/
structure TlbEntry where
  cluster : Nat
  program : Nat
  page : Nat
  entry : Dword
  size : Nat
deriving DecidableEq, Repr

/-- What the front end remembers of a journal entry that is not final and sealed (R334, R335, R341): its number, its queue
and packet index, the intervals in which its status and any field of it were last written, whether its status is final,
whether a rollback waits for its packet to be accepted again, and the number of rollbacks. -/
structure JournalMark where
  seq : Nat
  queue : Nat
  index : Nat
  interval : Nat
  touched : Nat
  final : Bool
  rolled : Bool
  rollbacks : Nat
deriving DecidableEq, Repr

/-- One die (R91, R97, R390, R431). -/
structure Die where
  handles : Sparse Handle
  tlbinv : Dword
  bist : Dword
  far : Nat
  mid : Nat
  farPend : Option Nat
  midPend : Option Nat
  throttle : Nat
  undo : List Undo
  egress : List Egress
deriving DecidableEq, Repr

/-- A notification of a queue (R322): the tail it wrote, when it came, and whether a condition of R344 has failed since
(R345). -/
structure Note where
  upTo : Nat
  time : Nat
  broken : Bool
deriving DecidableEq, Repr

/-- The registers of one command queue outside the rollback domain, and its notifications whose packets are not all
accepted (R321, R344). -/
structure Queue where
  base : Dword
  cfg : Dword
  tail : Nat
  notes : List Note
deriving DecidableEq, Repr

/-- A completion sent outside the device: 0 for success with its data, otherwise a failure: 1 an Unsupported Request, or the
barrier cause a peer's access fails with (R420, R425, R436). -/
structure Reply where
  failure : Nat
  bytes : List Byte
deriving DecidableEq, Repr

/-- What a device sends to the others of its seal group about an interval (R376 to R378). -/
inductive SealMessage where
  | request
  | quiesced
  | cut
  | ready
  | commit
  | abort
  | rollback
deriving DecidableEq, Repr

/-- Where a seal stands (R377). -/
inductive SealPhase where
  | none
  | quiesce
  | checkpoint
  | agreement
deriving DecidableEq, Repr

/-- The seal machine of the device (R376, R377): the phase of the seal in progress, its interval, when it started, the
devices that reported in the phase, whether another seal is wanted, the time of the last cut, the settle walks that have
not ended, and the messages sent to the group. -/
structure SealState where
  phase : SealPhase
  interval : Nat
  start : Nat
  reports : List Nat
  selfReported : Bool
  wanted : Bool
  egressWanted : Bool
  lastCut : Nat
  settling : List Nat
  sent : List (SealMessage × Nat)
deriving DecidableEq, Repr

/-- The package registers and what stands beside them (R321, R355, R373, R407, R408, R419, R422, R424, R428 to R430). -/
structure Package where
  jbase : Dword
  jsize : Dword
  jnext : Nat
  ptbase : Dword
  wdcfg : Dword
  sealcfg : Dword
  sealgrp : List Dword
  intnum : Nat
  maxInterval : Nat
  sealing : Bool
  logbase : Dword
  logcfg : Dword
  egrcfg : Dword
  rbcount : Nat
  scrubcfg : Dword
  trbase : Dword
  trctl : Dword
  trhead : Nat
  trlost : Nat
  replayGo : Bool
  replayMask : Nat
  ptmcfg : Dword
  alarm : Dword
  alarmen : Dword
  messages : List Nat
  domcfg : Dword
  peermap : List Dword
  attctl : Dword
  attnonce : List Byte
  report : List Byte
  dbgchal : List Byte
  dbgresp : List Byte
  dbgunlk : Dword
  seclog : Dword
  zeroised : Bool
  imageChain : List Byte
  links : BitVec 24
  firstEnable : Bool
  firstCut : Bool
  held : Bool
deriving DecidableEq, Repr

/-! The model's own state. -/

/-- An initialisation of a barrier, or its return to idle, that waits for the end of its cycle (R106): the issuing core and
group, the barrier's key, and for a `binit` the bytes it expects and its scope. -/
structure BarStart where
  core : Nat
  gid : Nat
  lichen : Bool
  key : Nat
  start : Option (Nat × Nat)
deriving DecidableEq, Repr

/-- An arrival of a `barv` that waits for the accesses before it (R255): the issuing core, when it issued, the barrier's key
and the bytes. -/
structure LateArrival where
  core : Nat
  issued : Nat
  key : Nat
  n : Nat
deriving DecidableEq, Repr

/-- Records that a task has offered and whose reading waits for what goes before it (R127, R197): the issuing core and group,
when it issued and at which scope, the sorus, the creator's privilege, the first record and how many. -/
structure Offer where
  core : Nat
  gid : Nat
  issued : Nat
  scope : Nat
  cluster : Nat
  priv : Bool
  ptr : Word
  count : Nat
deriving DecidableEq, Repr

/-- What acts at bundle end, after the header's loop-end mark (R190). -/
inductive Post where
  | pushLoop (start exit count : Word)
deriving DecidableEq, Repr

/-- What the next operation runs as: the core and group that issue it, the addresses of its bundle, its scope, the queues
the bundle pops, the path its tree selected, whether the checks at issue have been made, the cycle count of its core, whether
the bundle carries a loop-end mark, the transfer its C slot made, what is left for bundle end, whether the core performs
the effects outside the cores, and its signature. -/
structure Cursor where
  core : Nat
  gid : Nat
  pc : Word
  seq : Word
  scope : Nat
  pop : BitVec 8
  path : Nat
  checked : Bool
  cycle : Nat
  lichen : Bool
  marked : Bool
  target : Option Word
  post : List Post
  external : Bool
  sig : List SigItem
deriving DecidableEq, Repr

/-- An event that the planner of a cycle asks for, by its row of the table; its numbers stand beside it in the agenda. -/
inductive Doing where
  | waitPoll
  | sorusDispatch | steal | stealTake
  | suspensionPointComplete | taskLimitExpiry
  | remoteLoadDelivery | rotDelivery | mcallAccept | drainPush | mloadInstall
  | engineCommandStart | engineCommandCompletion
  | globalAccessPerform | messageArrival | segmentCopyLands | bankArbitration | scrubGrant
  | sealPeriodExpiry | quiesceWindowExpiry | sealCheckpoint | quiescedReport | readyReport | egressGapExpiry | sealTimeout
  | settleWalkComplete
  | farRatioChange | midRatioChange | tlbinvComplete | attestationComplete
deriving DecidableEq, Repr

/-- One entry of the agenda: what happens next. -/
inductive Act where
  /-- An event of the table. -/
  | ev (i : Instr)
  /-- A running group issues the bundle at its boundary, if nothing holds it. -/
  | bundle (gid : Nat)
  /-- The matrix unit of a core executes its next micro-op. -/
  | micro (core : Nat)
  /-- A running command of an engine moves a number of elements. -/
  | advance (engine id n : Nat)
  /-- An event that a unit makes by itself, with up to three numbers. -/
  | unit (k : Doing) (a b c : Nat)
  /-- The banks that hold requests arbitrate, and the remote accesses go on (R85, R118). -/
  | banks
  /-- The barriers take what reached them in the cycle (R106). -/
  | settle
  /-- One cycle passes. -/
  | tick
deriving DecidableEq, Repr

/-- The machine. -/
structure State where
  /-- Memory of regions 0 to 2 by physical address (R74); an unlisted byte reads zero (R108, R301). -/
  mem : List Host.Cell
  /-- Host and peer memory as written by the device, by physical address (R74). -/
  ext : List Host.Cell
  /-- The poisoned 16-byte rows of the tower and lines of LPDDR-6, as their first addresses (R391). -/
  poison : List Nat
  /-- The tag of each line that is not settled (R369). -/
  tags : Sparse Nat
  /-- The cores by core id (R10). -/
  cores : Sparse Core
  /-- The running groups (R30). -/
  groups : List Group
  /-- The domain's tables, and their contents at the cut that ended the last sealed interval and at the later cut. -/
  dom : Domain
  sealedDom : Domain
  cutDom : Option Domain
  dies : List Die
  queues : Sparse Queue
  feLast : Sparse Nat
  pkg : Package
  seals : SealState
  journal : List JournalMark
  tlb : List TlbEntry
  globals : List Global
  inFlight : List InFlight
  bankReqs : List BankRequest
  /-- The banks of the near layer that M slots used in the current cycle, as core and bank (R85). -/
  bankUsed : List (Nat × Nat)
  /-- Whether a planned cycle is under way, and what has reached barriers in it (R106): arrivals as barrier keys and bytes,
  faults as keys and causes, initialisations; and the arrivals of `barv` that wait (R255). -/
  gather : Bool
  arrivals : List (Nat × Nat)
  marks : List (Nat × Nat)
  starts : List BarStart
  lateArrivals : List LateArrival
  /-- Offers of records that wait (R197), in issue order. -/
  offers : List Offer
  segCopies : List SegCopy
  /-- Passes of the scrubber and copies of failing banks that are under way (R85, R392, R393). -/
  scrubs : List Scrub
  /-- The last completions sent to the host and to a peer device (R420, R436). -/
  hostReply : Reply
  peerReply : Reply
  /-- What writes to peers of the seal group replaced, newest first (R375). -/
  peerUndo : List PeerUndo
  /-- Allocations that pass to another domain, until the seal that follows (R109). -/
  handovers : List Handover
  /-- The pieces of frames sent by the Ethernet ports, as port and bytes, oldest first (R135, R426). -/
  frames : List (Nat × List Byte)
  /-- Device time has been synchronised (R406). -/
  synced : Bool
  /-- When the last PTM measurement was made, if there was one since PTM was enabled (R407). -/
  ptmLast : Option Nat
  /-- The slew still to apply, in ns, whether it runs at 1,000 ppm, and the corrections applied so far (R407). -/
  slew : Int
  slewFast : Bool
  timeAdj : Int
  /-- Device ticks of 0.8 ns since cold boot: cycles of the arithmetic clock (R1, R4). -/
  now : Nat
  /-- The model's own: the next identifier, the free-value counter, the agenda and the cursor. -/
  nextId : Nat
  free : Nat
  agenda : List Act
  cur : Cursor
deriving DecidableEq, Repr

/-! Reset. -/

/-- A vector register of zeros. -/
def zeroLanes : Lanes := List.replicate 128 0

/-- Empty latch stacks read zero (R17). -/
def Latches.zero : Latches where
  a := List.replicate 4 0
  b := List.replicate 4 0
  m := List.replicate 4 0
  f := List.replicate 4 0
  n := List.replicate 4 0
  v := List.replicate 4 zeroLanes
  w := List.replicate 4 zeroLanes

/-- The scalar predicates at dispatch: even clear but p0, odd set but p1 (R15, R26). -/
def predsReset : BitVec 16 := 0xAAA9

/-- The vector predicates at dispatch (R15, R26). -/
def vpredsReset : List Mask :=
  [BitVec.allOnes 128, 0, 0, BitVec.allOnes 128, 0, BitVec.allOnes 128, 0, BitVec.allOnes 128,
   0, BitVec.allOnes 128, 0, BitVec.allOnes 128, 0, BitVec.allOnes 128, 0, BitVec.allOnes 128]

/-- The task context as dispatch sets it before it loads the frond's words (R26); before the first dispatch the same
values stand, which the spec does not state (DESIGN CHOICE, unsafe: log entry 1). -/
def Task.initial : Task where
  a := List.replicate 32 0
  b := List.replicate 32 0
  k := List.replicate 16 0
  m := List.replicate 32 0
  f := List.replicate 16 0
  n := List.replicate 16 0
  x := List.replicate 8 0
  v := List.replicate 28 zeroLanes
  w := List.replicate 28 zeroLanes
  preds := predsReset
  vpreds := vpredsReset
  latches := Latches.zero
  patterns := List.replicate 8 (List.replicate 32 0)
  queues := List.replicate 4 []
  slots := List.replicate 16 (0, 0)
  slotCmds := List.replicate 16 0
  cells := []
  rows := []
  cols := []
  fmt := 0x20008800
  status := 0
  stage := 0
  group := 0
  depth := 0
  rgh := List.replicate 4 0
  cd := 0
  ld := 0
  loopA := List.replicate 4 0
  loopB := List.replicate 4 0
  loopC := List.replicate 4 0
  link := List.replicate 8 0
  tvec := 0
  tcause := 0
  tpc := 0
  energy := 0
  timeCapture := none
  energyCapture := none
  pc := 0
  pend := []
  remotes := []
  order := 0
  fences := []
  hidden := []
  veiled := []

/-- The lichen context at reset (DESIGN CHOICE, unsafe: log entry 1). -/
def Lichen.initial : Lichen where
  a := List.replicate 8 0
  b := List.replicate 8 0
  k := List.replicate 4 0
  m := List.replicate 8 0
  f := List.replicate 4 0
  preds := predsReset
  energy := 0
  timeCapture := none
  energyCapture := none
  pend := []
  tiles := []
  asked := false
  cycle := 0
  order := 0
  inFault := false

/-- The matrix unit at cold boot: idle, every entry invalid (R301). -/
def Matrix.initial : Matrix where
  entries := List.replicate 64 none
  routine := none
  waiting := none
  drain := []
  discard := false

/-- A core at cold boot. -/
def Core.initial : Core where
  task := Task.initial
  lichen := Lichen.initial
  mx := Matrix.initial
  inbound := List.replicate 4 []
  lshare := 2
  eweights := List.replicate 16 0
  overlay := List.replicate 4 ⟨0, 0, 0⟩
  loss := []
  lossSeen := []
  traceSeq := 0
  traceDropped := 0
  dbg := ⟨false, false, List.replicate 4 0, 0⟩
  pendLoss := 0
  lost := 0
  cstate := 0
  bankRep := List.replicate 4 [32, 32]
  laneRep := List.replicate 32 []
  subst := []
  diverged := false
  charged := 0
  sensor := ⟨false, false, 0, 0, 0, 0, 0, [], false⟩

/-- A barrier at reset: idle with SCOPE 2 (R101). -/
def Barrier.initial : Barrier := ⟨0, 0, 0, false, false, 2, 0, none⟩

/-- A sorus without fronds. -/
def Sorus.initial : Sorus := ⟨[], [], none, none⟩

/-- An engine without commands. -/
def Engine.initial : Engine := ⟨[], []⟩

/-- A sample record at its reset value: idle (R395). -/
def Sample.initial : Sample := ⟨0, 0, 0, 0, false, 0, 0⟩

/-- The Crozier at cold boot: unconfigured, every sample idle (R395). -/
def Crozier.initial : Crozier := ⟨false, false, 0, false, 0, 0, 0, 0, [], [], [], 0⟩

/-- The domain's tables at cold boot. -/
def Domain.initial : Domain := ⟨[], [], [], [], [], [], [], [], [], [], [], []⟩

/-- A handle entry at reset: VALID clear (R91). -/
def Handle.initial : Handle := ⟨0, 0, 0, 0⟩

/-- A die after the self-test found nothing to repair (R390; log entry 5). -/
def Die.initial : Die := ⟨[], 0, 0xC000000000000000, 0, 0, none, none, 0, [], []⟩

/-- A queue at reset (R321). -/
def Queue.initial : Queue := ⟨0, 0, 0, []⟩

/-- The package registers at cold boot, each at the reset value its table gives. -/
def Package.initial : Package where
  jbase := 0
  jsize := 0
  jnext := 0
  ptbase := 0
  wdcfg := 0
  sealcfg := 0x000000C8000503E8
  sealgrp := [1, 0, 0, 0]
  intnum := 1
  maxInterval := 1
  sealing := false
  logbase := 0
  logcfg := 0x8000003000008000
  egrcfg := 0x0000001400001800
  rbcount := 0
  scrubcfg := 0x00015180000003E8
  trbase := 0
  trctl := 0x0000001000001F00
  trhead := 0
  trlost := 0
  replayGo := false
  replayMask := 0xFFFE
  ptmcfg := 0x800000000000000A
  alarm := 0
  alarmen := 0
  messages := []
  domcfg := 0
  peermap := [0, 0, 0, 0]
  attctl := 0
  attnonce := List.replicate 32 0
  report := List.replicate 256 0
  dbgchal := List.replicate 32 0
  dbgresp := List.replicate 64 0
  dbgunlk := 0
  seclog := 0
  zeroised := false
  imageChain := List.replicate 32 0
  links := BitVec.allOnes 24
  firstEnable := false
  firstCut := false
  held := false

/-- The cursor before anything has run. -/
def Cursor.initial : Cursor where
  core := 0
  gid := 0
  pc := 0
  seq := 0
  scope := 0
  pop := 0
  path := 4
  checked := false
  cycle := 0
  lichen := false
  marked := false
  target := none
  post := []
  external := true
  sig := []

/-- The machine right after reset: a cold boot that has released the compute dies (R108, R301, R368, R389, R427; log
entry 5). -/
def State.reset : State where
  mem := []
  ext := []
  poison := []
  tags := []
  cores := []
  groups := []
  dom := Domain.initial
  sealedDom := Domain.initial
  cutDom := none
  dies := List.replicate 4 Die.initial
  queues := []
  feLast := []
  pkg := Package.initial
  seals := ⟨.none, 0, 0, [], false, false, false, 0, [], []⟩
  journal := []
  tlb := []
  globals := []
  inFlight := []
  bankReqs := []
  bankUsed := []
  gather := false
  arrivals := []
  marks := []
  starts := []
  lateArrivals := []
  offers := []
  segCopies := []
  scrubs := []
  hostReply := ⟨0, []⟩
  peerReply := ⟨0, []⟩
  peerUndo := []
  handovers := []
  frames := []
  synced := false
  ptmLast := none
  slew := 0
  slewFast := false
  timeAdj := 0
  now := 0
  nextId := 1
  free := 0
  agenda := []
  cur := Cursor.initial

end Sys2Proof.Machine
end

