-- ==== Sys2Proof/Machine/Tables.lean ====
section
/-! DEFINITION. Sparse tables: reading and writing an entry, so that a written entry is the one read and every write keeps
the canonical form. Memory is such a table of bytes. -/

namespace Sys2Proof.Machine

open Sys2Proof

/-- The entry of an index, or the default. -/
def lookup {α : Type} (dflt : α) : List (Nat × α) → Nat → α
  | [], _ => dflt
  | (k, v) :: rest, n => if k = n then v else lookup dflt rest n

/-- The table without an index. -/
def erase {α : Type} (l : List (Nat × α)) (n : Nat) : List (Nat × α) :=
  l.filter fun e => e.1 != n

/-- The table with an entry placed before the first higher index. -/
def place {α : Type} (n : Nat) (v : α) : List (Nat × α) → List (Nat × α)
  | [] => [(n, v)]
  | (k, w) :: rest => if n < k then (n, v) :: (k, w) :: rest else (k, w) :: place n v rest

/-- The table after a write: an entry equal to the default is not listed. -/
def update {α : Type} [DecidableEq α] (dflt : α) (l : List (Nat × α)) (n : Nat) (v : α) : List (Nat × α) :=
  if v = dflt then erase l n else place n v (erase l n)

/-- The table after a write that lists the entry whatever it is: for tables other than memory. -/
def assign {α : Type} (l : List (Nat × α)) (n : Nat) (v : α) : List (Nat × α) := place n v (erase l n)

/-- The canonical form: strictly rising indices, and no entry equal to the default. -/
abbrev Canonical {α : Type} (dflt : α) (l : List (Nat × α)) : Prop :=
  l.Pairwise (fun e f => e.1 < f.1) ∧ ∀ e ∈ l, e.2 ≠ dflt

/-- The canonical form of memory (R108: an unlisted byte reads zero). -/
abbrev Memory.wf (l : List Host.Cell) : Prop := Canonical (0 : Byte) l

/-- One byte of memory. -/
def readCell (l : List Host.Cell) (a : Nat) : Byte := lookup (0 : Byte) l a

/-- Memory after one byte is written. -/
def writeCell (l : List Host.Cell) (a : Nat) (v : Byte) : List Host.Cell := update (0 : Byte) l a v

/-- Memory after bytes are written from an address upward. -/
def writeCells (l : List Host.Cell) (a : Nat) : List Byte → List Host.Cell
  | [] => l
  | v :: vs => writeCells (writeCell l a v) (a + 1) vs

/-- `n` bytes from an address upward. -/
def readCells (l : List Host.Cell) (a : Nat) : Nat → List Byte
  | 0 => []
  | n + 1 => readCell l a :: readCells l (a + 1) n

/-! Numbers and byte strings, little-endian (R2). -/

/-- The number a byte string holds. -/
def leNat : List Byte → Nat
  | [] => 0
  | b :: bs => b.toNat + 256 * leNat bs

/-- The low `n` bytes of a number. -/
def leBytes : Nat → Nat → List Byte
  | 0, _ => []
  | n + 1, x => BitVec.ofNat 8 x :: leBytes n (x / 256)

/-- A word from bytes. -/
def leWord (bs : List Byte) : Word := BitVec.ofNat 32 (leNat bs)

/-- The bytes of a word. -/
def wordBytes (w : Word) : List Byte := leBytes 4 w.toNat

/-- The list with its entry `i` changed; unchanged where there is none. -/
def modifyAt {α : Type} (l : List α) (i : Nat) (f : α → α) : List α :=
  match l, i with
  | [], _ => []
  | x :: xs, 0 => f x :: xs
  | x :: xs, n + 1 => x :: modifyAt xs n f

/-- The list built from an index function, `n` entries long. -/
def tabulate {α : Type} (n : Nat) (f : Nat → α) : List α := (List.range n).map f

/-- `x` with bit `i` set to `v`. -/
def setBit {w : Nat} (x : BitVec w) (i : Nat) (v : Bool) : BitVec w :=
  if v then x ||| BitVec.ofNat w (2 ^ i) else x &&& ~~~BitVec.ofNat w (2 ^ i)

/-- In the lanes of `active` the bits of `new`, elsewhere those of `old`. -/
def mergeMask (active new old : Mask) : Mask := (active &&& new) ||| (~~~active &&& old)

/-- A mask from a function of the lane. -/
def maskOf (f : Nat → Bool) : Mask :=
  BitVec.ofNat 128 ((List.range 128).foldl (fun acc i => if f i then acc + 2 ^ i else acc) 0)

/-- An element placed before the first that it must not follow. -/
def insertBy {α : Type} (le : α → α → Bool) (x : α) : List α → List α
  | [] => [x]
  | y :: ys => if le x y then x :: y :: ys else y :: insertBy le x ys

/-- A list in the order of `le`; equals keep their order. -/
def sortBy {α : Type} (le : α → α → Bool) : List α → List α
  | [] => []
  | x :: xs => insertBy le x (sortBy le xs)

end Sys2Proof.Machine
end

