-- ==== Sys2Proof/Machine/RegMap.lean ====
section
/-! DEFINITION. The control registers by address: which register each offset of region 3 belongs to (R74, R91, R97, R101,
R321, R355, R373, R390, R406 to R408, R412, R415, R419, R422, R424, R428 to R431, R435). -/

namespace Sys2Proof.Machine

open Sys2Proof

/-- A control register of region 3. -/
inductive RegName where
  | qbase (q : Nat) | qcfg (q : Nat) | qtail (q : Nat) | qhead (q : Nat) | qstate (q : Nat)
  | jbase | jsize | jnext | ptbase | wdcfg
  | sealcfg | sealgrp (i : Nat) | intnum | logbase | logcfg | logused (die : Nat) | egrcfg | egrused (die : Nat)
  | rbcount | scrubcfg
  | trbase | trctl | trhead | trlost | replay | ptmcfg | devtime
  | alarm | alarmen | domcfg | peermap (i : Nat) | lclk (die : Nat)
  | attctl | attnonce (i : Nat) | dbgchal (i : Nat) | dbgresp (i : Nat) | dbgunlk | seclog | report (i : Nat)
  | colstate (core : Nat) | bankrep (core layer : Nat) | lanerep (core layer group : Nat) | biststat (die : Nat)
  | dbgctl (core : Nat) | bkpt (core i : Nat) | dbgsel (core : Nat) | dbgdata (core : Nat)
  | loss (core cls bank : Nat) | tsense (core : Nat)
  | handle (die h word : Nat) | tlbinv (die : Nat) | barrier (cluster b : Nat)
deriving DecidableEq, Repr

/-- A register with the offset it starts at and its width in bytes. -/
structure RegAt where
  name : RegName
  start : Nat
  width : Nat
deriving DecidableEq, Repr

/-- The registers of the front-end page, by their 8-byte offset from FE. -/
def feReg (o : Nat) : Option RegName :=
  if o < 0x1000 then
    let q := o / 0x40
    match o % 0x40 with
    | 0x00 => some (.qbase q)
    | 0x08 => some (.qcfg q)
    | 0x10 => some (.qtail q)
    | 0x18 => some (.qhead q)
    | 0x20 => some (.qstate q)
    | _ => none
  else match o with
    | 0x1000 => some .jbase
    | 0x1008 => some .jsize
    | 0x1010 => some .jnext
    | 0x1018 => some .ptbase
    | 0x1020 => some .wdcfg
    | 0x1100 => some .sealcfg
    | 0x1108 => some (.sealgrp 0)
    | 0x1110 => some (.sealgrp 1)
    | 0x1118 => some (.sealgrp 2)
    | 0x1120 => some (.sealgrp 3)
    | 0x1128 => some .intnum
    | 0x1130 => some .logbase
    | 0x1138 => some .logcfg
    | 0x1140 => some (.logused 0)
    | 0x1148 => some (.logused 1)
    | 0x1150 => some (.logused 2)
    | 0x1158 => some (.logused 3)
    | 0x1160 => some .egrcfg
    | 0x1168 => some (.egrused 0)
    | 0x1170 => some (.egrused 1)
    | 0x1178 => some (.egrused 2)
    | 0x1180 => some (.egrused 3)
    | 0x1188 => some .rbcount
    | 0x1190 => some .scrubcfg
    | 0x1200 => some .trbase
    | 0x1208 => some .trctl
    | 0x1210 => some .trhead
    | 0x1218 => some .trlost
    | 0x1220 => some .replay
    | 0x1228 => some .ptmcfg
    | 0x1230 => some .devtime
    | 0x1300 => some .alarm
    | 0x1308 => some .alarmen
    | 0x1310 => some .domcfg
    | 0x1318 => some (.peermap 0)
    | 0x1320 => some (.peermap 1)
    | 0x1328 => some (.peermap 2)
    | 0x1330 => some (.peermap 3)
    | 0x1500 => some (.lclk 0)
    | 0x1508 => some (.lclk 1)
    | 0x1510 => some (.lclk 2)
    | 0x1518 => some (.lclk 3)
    | 0x1600 => some .attctl
    | 0x16A0 => some .dbgunlk
    | 0x16C0 => some .seclog
    | n =>
      if 0x1608 ≤ n ∧ n < 0x1628 then some (.attnonce ((n - 0x1608) / 8))
      else if 0x1640 ≤ n ∧ n < 0x1660 then some (.dbgchal ((n - 0x1640) / 8))
      else if 0x1660 ≤ n ∧ n < 0x16A0 then some (.dbgresp ((n - 0x1660) / 8))
      else if 0x1700 ≤ n ∧ n < 0x1800 then some (.report ((n - 0x1700) / 8))
      else none

/-- The registers of the per-die blocks, by block, die and offset in the block. -/
def blockReg (block d r : Nat) : Option RegAt :=
  let core (c : Nat) : Nat := d * 2048 + c
  let base := block * 2 ^ 24 + d * 2 ^ 22
  match block with
  | 2 =>
    if r < 4 * 1152 then some ⟨.colstate (core (r / 4)), base + r / 4 * 4, 4⟩
    else if 0x10000 ≤ r ∧ r < 0x10000 + 16 * 1152 then
      let i := (r - 0x10000) / 4
      some ⟨.bankrep (core (i / 4)) (i % 4 + 1), base + r / 4 * 4, 4⟩
    else if 0x20000 ≤ r ∧ r < 0x20000 + 512 * 1152 then
      let i := (r - 0x20000) / 16
      some ⟨.lanerep (core (i / 32)) (i / 8 % 4 + 1) (i % 8), base + r / 16 * 16, 16⟩
    else if r / 8 = 0x20000 then some ⟨.biststat d, base + 0x100000, 8⟩
    else none
  | 3 =>
    let c := r / 64
    if 1152 ≤ c then none
    else
      let at' (n : RegName) : Option RegAt := some ⟨n, base + r / 8 * 8, 8⟩
      match r % 64 / 8 with
      | 0 => at' (.dbgctl (core c))
      | 1 => at' (.bkpt (core c) 0)
      | 2 => at' (.bkpt (core c) 1)
      | 3 => at' (.bkpt (core c) 2)
      | 4 => at' (.bkpt (core c) 3)
      | 5 => at' (.dbgsel (core c))
      | 6 => at' (.dbgdata (core c))
      | _ => none
  | 4 =>
    let k := r % 2048 / 128
    if r / 2048 < 1152 ∧ k < 12 then some ⟨.loss (core (r / 2048)) k (r % 128 / 4), base + r / 4 * 4, 4⟩ else none
  | 5 => if r < 4 * 1152 then some ⟨.tsense (core (r / 4)), base + r / 4 * 4, 4⟩ else none
  | 6 =>
    if r < 0x20000 then some ⟨.handle d (r / 32) (r % 32 / 8), base + r / 8 * 8, 8⟩
    else if r / 8 = 0x4000 then some ⟨.tlbinv d, base + 0x20000, 8⟩
    else none
  | 7 =>
    if r < 24 * 0x4000 then some ⟨.barrier (24 * d + r / 0x4000) (r % 0x4000 / 16), base + r / 16 * 16, 16⟩ else none
  | _ => none

/-- The register that an offset of region 3 belongs to. -/
def locateReg (o : Nat) : Option RegAt :=
  if o / 2 ^ 24 = 0 then
    if 0x100000 ≤ o then (feReg ((o - 0x100000) / 8 * 8)).map fun n => ⟨n, o / 8 * 8, 8⟩ else none
  else blockReg (o / 2 ^ 24) (field o 22 2) (field o 0 22)

end Sys2Proof.Machine
end

