-- ==== Sys2Proof/Machine/Ops.lean ====
section
/-! DEFINITION. The named operations over contexts, registers, memory, barriers and groups, which the meanings share:
reading and writing registers, the physical map and logged writes, translation, frond records, barriers, results in
flight and their delivery, taking an exception and returning from one. -/

namespace Sys2Proof.Machine

open Sys2Proof

/-- What a meaning answers. -/
abbrev Outcome := Host.Outcome State Fault Refusal

/-! Cores and groups. -/

/-- The core of a core id. -/
def coreOf (s : State) (id : Nat) : Core := lookup Core.initial s.cores id

/-- The state with a core replaced. -/
def setCore (s : State) (id : Nat) (c : Core) : State := { s with cores := assign s.cores id c }

/-- The state with a core changed. -/
def modCore (s : State) (id : Nat) (f : Core → Core) : State := setCore s id (f (coreOf s id))

/-- The task context of a core. -/
def taskOf (s : State) (id : Nat) : Task := (coreOf s id).task

/-- The state with a core's task context changed. -/
def modTask (s : State) (id : Nat) (f : Task → Task) : State := modCore s id fun c => { c with task := f c.task }

/-- The task context of the issuing core. -/
def curTask (s : State) : Task := taskOf s s.cur.core

/-- The state with the issuing core's task context changed. -/
def modCur (s : State) (f : Task → Task) : State := modTask s s.cur.core f

/-- A core id made of die and column (R10). -/
def coreId (die col : Nat) : Nat := die * 2048 + col

/-- The die of a core id (R10). -/
def dieOf (id : Nat) : Nat := id / 2048

/-- The column of a core id (R10). -/
def columnOf (id : Nat) : Nat := id % 2048

/-- The cluster of a core id, counted over the package: 24 times the die plus the cluster (R9). -/
def clusterOf (id : Nat) : Nat := 24 * dieOf id + columnOf id / 48

/-- The member number of a core id (R9). -/
def memberOf (id : Nat) : Nat := columnOf id % 48

/-- The core id of a member of a cluster (R9). -/
def memberCore (cluster m : Nat) : Nat := coreId (cluster / 24) (cluster % 24 * 48 + m)

/-- The core id of a cluster leader (R9). -/
def leaderOf (cluster : Nat) : Nat := memberCore cluster 0

/-- The running group of an identifier. -/
def groupOf (s : State) (gid : Nat) : Option Group := s.groups.find? fun g => g.gid == gid

/-- The state with a group changed. -/
def modGroup (s : State) (gid : Nat) (f : Group → Group) : State :=
  { s with groups := s.groups.map fun g => if g.gid = gid then f g else g }

/-- The state without a group. -/
def dropGroup (s : State) (gid : Nat) : State := { s with groups := s.groups.filter fun g => g.gid != gid }

/-- Every core of a group: leading cores in rank order, then the trailing ones (R30). -/
def Group.all (g : Group) : List Nat := g.members ++ g.trailing

/-- The rank of a core: a trailing core has its leading core's (R12, R387). -/
def Group.rankOf (g : Group) (id : Nat) : Nat :=
  if g.members.contains id then g.members.findIdx (· == id) else g.trailing.findIdx (· == id)

/-- The group that runs on a core. -/
def groupOn (s : State) (id : Nat) : Option Group := s.groups.find? fun g => g.all.contains id

/-- The group of the issuing core. -/
def curGroup (s : State) : Option Group := groupOf s s.cur.gid

/-- The schedule-cycle count of a core of a group: a trailing core is two cycles behind (R30). -/
def Group.cycleOf (g : Group) (id : Nat) : Nat := if g.trailing.contains id then g.counter - 2 else g.counter

/-- A core's context is in privileged save mode: a trailing core leaves it by its own `rft` (R181, R384). -/
def Group.saves (g : Group) (id : Nat) : Bool := g.saveMode || (g.trailingSave && g.trailing.contains id)

/-- The context is in privileged mode (R181). -/
def privileged (s : State) : Bool :=
  s.cur.lichen || match curGroup s with
    | some g => g.saves s.cur.core || g.privProgram
    | none => false

/-! Registers (R13, R15). -/

/-- The 32-bit value of a register: a0, b0 and m0 read zero; lane 0 of a vector register; the low half of an x register. -/
def readReg (t : Task) (fl : File) (r : Nat) : Word :=
  match fl with
  | .a => if r = 0 then 0 else t.a.getD r 0
  | .b => if r = 0 then 0 else t.b.getD r 0
  | .c => t.k.getD r 0
  | .m => if r = 0 then 0 else t.m.getD r 0
  | .v => (t.v.getD r zeroLanes).getD 0 0
  | .w => (t.w.getD r zeroLanes).getD 0 0
  | .x => (t.x.getD r 0).setWidth 32
  | .f => t.f.getD r 0
  | .n => t.n.getD r 0
  | .preds => 0
  | .vpreds => 0

/-- The context after a 32-bit register is written: writes of a0, b0 and m0 are suppressed (R16). -/
def writeReg (t : Task) (fl : File) (r : Nat) (v : Word) : Task :=
  match fl with
  | .a => if r = 0 then t else { t with a := t.a.set r v }
  | .b => if r = 0 then t else { t with b := t.b.set r v }
  | .c => { t with k := t.k.set r v }
  | .m => if r = 0 then t else { t with m := t.m.set r v }
  | .v => { t with v := t.v.set r (List.replicate 128 v) }
  | .w => { t with w := t.w.set r (List.replicate 128 v) }
  | .x => { t with x := t.x.set r (v.setWidth 64) }
  | .f => { t with f := t.f.set r v }
  | .n => { t with n := t.n.set r v }
  | .preds => t
  | .vpreds => t

/-- The 128 lanes of a vector value (R260). -/
def fullLanes (l : Lanes) : Lanes := tabulate 128 fun i => l.getD i 0

/-- A vector register. -/
def readLanes (t : Task) (u : UnitVW) (r : Nat) : Lanes :=
  fullLanes (match u with
    | .v => t.v.getD r zeroLanes
    | .w => t.w.getD r zeroLanes)

/-- The context after a vector register is written. -/
def writeLanes (t : Task) (u : UnitVW) (r : Nat) (l : Lanes) : Task :=
  match u with
  | .v => { t with v := t.v.set r l }
  | .w => { t with w := t.w.set r l }

/-- A scalar predicate: p0 reads true and p1 false (R15). -/
def readPred (t : Task) (i : Nat) : Bool := if i = 0 then true else if i = 1 then false else t.preds.getLsbD i

/-- A vector predicate: vp0 reads all lanes and vp1 none (R15). -/
def readVPred (t : Task) (i : Nat) : Mask :=
  if i = 0 then BitVec.allOnes 128 else if i = 1 then 0 else t.vpreds.getD i 0

/-- The context after a vector predicate is written; writes of vp0 and vp1 are discarded (R15). -/
def writeVPred (t : Task) (i : Nat) (v : Mask) : Task := if i < 2 then t else { t with vpreds := t.vpreds.set i v }

/-- The mask of the scalar predicates: bit 0 reads 1 and bit 1 reads 0 (R223, R236). -/
def predMask (t : Task) : Nat := t.preds.toNat / 4 * 4 + 1

/-- A result for a register of a file, as destinations: none for a0, b0 and m0, every lane of a vector register, an x
register zero-extended (R150, R215, R222). -/
def regDest (fl : File) (r : Nat) (v : Word) : List Dest :=
  match fl with
  | .a | .b | .m => if r = 0 then [] else [.word fl r v]
  | .c | .f | .n => [.word fl r v]
  | .v => if r < 28 then [.lanes .v r (List.replicate 128 v) (BitVec.allOnes 128)] else []
  | .w => if r < 28 then [.lanes .w r (List.replicate 128 v) (BitVec.allOnes 128)] else []
  | .x => [.wide r (v.setWidth 64)]
  | .preds | .vpreds => []

/-! Bit fields of registers. -/

/-- A field of a register. -/
def bits {w : Nat} (x : BitVec w) (lo n : Nat) : Nat := field x.toNat lo n

/-- A register with a field replaced. -/
def withBits {w : Nat} (x : BitVec w) (lo n v : Nat) : BitVec w :=
  BitVec.ofNat w (x.toNat % 2 ^ lo + v % 2 ^ n * 2 ^ lo + x.toNat / 2 ^ (lo + n) * 2 ^ (lo + n))

/-- LOGCFG.FB: bank 31 of every far slice holds the log buffer (R73, R374). -/
def logBuffered (s : State) : Bool := s.pkg.logcfg.getLsbD 63

/-! Time and trace (R406 to R410). -/

/-- The device clock in ns: 0.8 ns for each cycle, with the corrections applied so far (R1, R407). -/
def deviceClock (s : State) : Nat := (((s.now * 4 / 5 : Nat) : Int) + s.timeAdj).toNat

/-- Device time: it reads 0 until the first synchronisation, and without PTM it counts from the start (R406, R407; log entry
56). -/
def deviceTime (s : State) : Nat := if s.synced || !s.pkg.ptmcfg.getLsbD 63 then deviceClock s else 0

/-! The physical map (R73 to R79, R424, R436). -/

/-- The size of a layer's slice in bytes (R69). -/
def layerSize (layer : Nat) : Nat :=
  match layer with
  | 1 => 2 ^ 19
  | 2 => 2 ^ 18
  | 3 => 2 ^ 20
  | 4 => 2 ^ 21
  | _ => 0

/-- The bytes of LPDDR-6 (R74). -/
def lpddrSize : Nat := 768 * 2 ^ 30

/-- A tower address (R75). -/
def towerAddr (core layer within : Nat) : Nat :=
  2 ^ 48 + dieOf core * 2 ^ 46 + layer * 2 ^ 43 + columnOf core * 2 ^ 24 + within

/-- The physical address of a near address of a core's column (R75, R224). -/
def nearPA (core a : Nat) : Nat := towerAddr core 2 a

/-- The address lies in a tower slice as the split has it, whatever slices are lost (R75, R76). -/
def towerShape (pa : Nat) : Bool :=
  field pa 35 8 == 0 && decide (field pa 24 11 < 1152) && decide (field pa 0 24 < layerSize (field pa 43 3))

/-- The core whose column a tower address lies in. -/
def towerCore (pa : Nat) : Nat := coreId (field pa 46 2) (field pa 24 11)

/-- A tower address that is mapped (R77). -/
def towerMapped (s : State) (pa : Nat) : Bool :=
  towerShape pa && !(coreOf s (towerCore pa)).lost.getLsbD (field pa 43 3 - 1)
    && !(field pa 43 3 == 4 && field pa 16 5 == 31 && logBuffered s)

/-- An address of the bundle and microprogram stores (R79). -/
def storeMapped (pa : Nat) : Bool :=
  field pa 35 11 == 0 && decide (field pa 24 11 < 1152) && field pa 16 7 == 0
    && (field pa 23 1 == 0 || decide (field pa 0 16 < 0x2000))

/-- The address of a peer window in the peer's own map (R424). -/
def peerLocal (pa : Nat) : Nat :=
  if field pa 41 2 = 0 then field pa 0 40
  else field pa 41 2 * 2 ^ 48 + field pa 35 5 * 2 ^ 43 + field pa 0 35

/-- The device a peer-window address names (R74). -/
def peerDevice (pa : Nat) : Nat := (field pa 48 4 - 8) * 32 + field pa 43 5

/-- DOMCFG names this device as valid (R424). -/
def domValid (s : State) : Bool := s.pkg.domcfg.getLsbD 63

/-- The device's own id (R424). -/
def ownDevice (s : State) : Nat := bits s.pkg.domcfg 0 8

/-- A device is in the seal group (R373, R375). -/
def inSealGroup (s : State) (dev : Nat) : Bool := (s.pkg.sealgrp.getD (dev / 64) 0).getLsbD (dev % 64)

/-- What the issuer of a peer access can judge of its address: of its own window, which it serves itself, all (R77, R424,
R436). -/
def peerMapped (s : State) (pa : Nat) : Bool :=
  domValid s && (s.pkg.peermap.getD (peerDevice pa / 64) 0).getLsbD (peerDevice pa % 64)
    && field pa 41 2 != 3 && field pa 40 1 == 0
    && match field pa 41 2 with
      | 0 => decide (field pa 0 40 < lpddrSize)
      | 1 => if peerDevice pa = ownDevice s then towerMapped s (peerLocal pa) else towerShape (peerLocal pa)
      | _ => storeMapped (peerLocal pa)

/-- The address is mapped (R74, R77 to R79, R424). -/
def mapped (s : State) (pa : Nat) : Bool :=
  match pa / 2 ^ 48 with
  | 0 => decide (pa < lpddrSize)
  | 1 => towerMapped s pa
  | 2 => storeMapped pa
  | 3 => (locateReg (pa % 2 ^ 48)).isSome
  | 4 => true
  | 5 | 6 | 7 => false
  | 8 | 9 | 10 | 11 | 12 | 13 | 14 | 15 => peerMapped s pa
  | _ => false

/-- Every byte of an extent is mapped. -/
def extentMapped (s : State) (pa n : Nat) : Bool := (List.range n).all fun i => mapped s (pa + i)

/-- Where an access to an address is made: a window of the device itself is served locally (R424). -/
def homeOf (s : State) (pa : Nat) : Nat :=
  if 8 ≤ pa / 2 ^ 48 ∧ pa / 2 ^ 48 < 16 ∧ domValid s = true ∧ peerDevice pa = ownDevice s then peerLocal pa else pa

/-- The write is irrevocable: host memory, or a peer outside the seal group (R135, R375). -/
def irrevocable (s : State) (pa : Nat) : Bool :=
  pa / 2 ^ 48 == 4 || (decide (8 ≤ pa / 2 ^ 48) && homeOf s pa == pa && !inSealGroup s (peerDevice pa))

/-! Reading and writing memory. -/

/-- One byte at a physical address. -/
def readByte (s : State) (pa : Nat) : Byte :=
  let h := homeOf s pa
  if h / 2 ^ 48 < 3 then readCell s.mem h else lookup (Config.externByte h s.now) s.ext h

/-- A peer device finds what an access to its window names; no other address is in question (R436; log entry 23). -/
def peerAnswers (s : State) (pa : Nat) : Bool :=
  decide (pa / 2 ^ 48 < 8) || homeOf s pa != pa || !Config.peerAbsent pa s.now

/-- `n` bytes at a physical address. -/
def readBytes (s : State) (pa n : Nat) : List Byte := tabulate n fun i => readByte s (pa + i)

/-- A little-endian number of `n` bytes at a physical address. -/
def readNat (s : State) (pa n : Nat) : Nat := leNat (readBytes s pa n)

/-- The first address of the row or line that carries the poison of a byte (R391). -/
def granule (pa : Nat) : Nat := if pa / 2 ^ 48 = 1 then pa / 16 * 16 else pa / 64 * 64

/-- The size of a row or line (R391). -/
def granuleSize (pa : Nat) : Nat := if pa / 2 ^ 48 = 1 then 16 else 64

/-- A byte of an extent is poisoned. -/
def poisonedAt (s : State) (pa n : Nat) : Bool :=
  (List.range n).any fun i => s.poison.contains (granule (homeOf s (pa + i)))

/-- The rows of a line, or the line, that hold poison. -/
def poisonIn (s : State) (line : Nat) : List Nat := s.poison.filter fun g => decide (line ≤ g) && decide (g < line + 64)

/-- The row or line of a byte marked poisoned. -/
def markPoison (s : State) (pa : Nat) : State :=
  let g := granule (homeOf s pa)
  if s.poison.contains g then s else { s with poison := g :: s.poison }

/-- The bytes written, without a log; rows and lines covered whole lose their poison (R391). -/
def storeRaw (s : State) (pa : Nat) (bs : List Byte) : State :=
  let h := homeOf s pa
  let covered (g : Nat) : Bool := decide (h ≤ g) && decide (g + granuleSize g ≤ h + bs.length)
  let s := { s with poison := s.poison.filter fun g => !covered g }
  if h / 2 ^ 48 < 3 then { s with mem := writeCells s.mem h bs }
  else { s with ext := (bs.zipIdx.foldl (fun l (b, i) => assign l (h + i) b) s.ext) }

/-! Trace records and alarms (R408 to R410, R422). -/

/-- The trace mask in force (R408, R419). -/
def traceMask (s : State) : Nat := if s.pkg.replayGo then s.pkg.replayMask else bits s.pkg.trctl 0 16

/-- A record of a type is written (R408). -/
def traced (s : State) (type : Nat) : Bool :=
  s.pkg.trctl.getLsbD 63 && (decide (8 ≤ type) || (traceMask s).testBit type)

/-- One record into the ring, not logged (R408, R409). -/
def putRecord (s : State) (core type : Nat) (baddr : Word) (scyc payload : Nat) : State :=
  let c := coreOf s core
  let rec' := deviceTime s + baddr.toNat * 2 ^ 64 + scyc % 2 ^ 32 * 2 ^ 96 + core * 2 ^ 128 + type * 2 ^ 144
    + c.traceSeq % 256 * 2 ^ 152 + payload % 2 ^ 96 * 2 ^ 160
  let slot := s.pkg.trhead % 2 ^ bits s.pkg.trctl 32 5
  let s := storeRaw s (bits s.pkg.trbase 5 47 * 32 + 32 * slot) (leBytes 32 rec')
  let s := { s with pkg := { s.pkg with trhead := s.pkg.trhead + 1 } }
  modCore s core fun c => { c with traceSeq := (c.traceSeq + 1) % 256 }

/-- A record of an event: dropped and counted when the core's path is full, preceded by a record of the loss otherwise
(R410). -/
def trace (s : State) (core type : Nat) (baddr : Word) (scyc payload : Nat) : State :=
  if !traced s type then s
  else if Config.tracePathFull core s.now then
    let s := { s with pkg := { s.pkg with trlost := min (s.pkg.trlost + 1) (2 ^ 64 - 1) } }
    modCore s core fun c => { c with traceDropped := c.traceDropped + 1 }
  else
    let lost := (coreOf s core).traceDropped
    let s := if lost = 0 then s else
      modCore (putRecord s core 13 baddr scyc (lost % 2 ^ 64)) core fun c => { c with traceDropped := 0 }
    putRecord s core type baddr scyc payload

/-- An alarm bit raised: a message is sent when it changes to 1 and is enabled (R422). -/
def raiseAlarm (s : State) (i : Nat) : State :=
  if s.pkg.alarm.getLsbD i then s
  else
    let s := { s with pkg := { s.pkg with alarm := setBit s.pkg.alarm i true } }
    if s.pkg.alarmen.getLsbD i then { s with pkg := { s.pkg with messages := s.pkg.messages ++ [i] } } else s

/-- The record of a seal phase, made by the package's first cluster leader (R377, R409; log entry 22). -/
def traceSeal (s : State) (phase : Nat) : State :=
  trace s 0 11 0 0 (s.seals.interval % 2 ^ 28 + phase * 2 ^ 32)

/-- The security alarm with its source; the fused policy bit may zeroise the key store (R430). -/
def securityAlarm (s : State) (source : Nat) : State :=
  let s := { s with pkg := { s.pkg with
    seclog := Config.sourceCode source, zeroised := s.pkg.zeroised || Config.zeroisePolicy } }
  raiseAlarm s 2

/-! The undo log and the region logs (R370 to R374, R381, R382). -/

/-- The die whose log holds the entry of a line (R372). -/
def logDie (line : Nat) : Nat := if line / 2 ^ 48 = 1 then field line 46 2 else field line 6 2

/-- The die's entry. -/
def die (s : State) (d : Nat) : Die := s.dies.getD d Die.initial

/-- The state with a die changed. -/
def modDie (s : State) (d : Nat) (f : Die → Die) : State := { s with dies := modifyAt s.dies d f }

/-- The capacity of a die's log in entries (R372). -/
def logCapacity (s : State) : Nat := bits s.pkg.logcfg 0 32 * 2 ^ 20 / 512

/-- LOGUSED (R373). A line of a peer takes its entries on that device (R372). -/
def logUsed (s : State) (d : Nat) : Nat :=
  (die s d).undo.length + (s.dom.regionLog.filter fun e => decide (e.line / 2 ^ 48 < 8) && logDie e.line == d).length

/-- LOGUSED has reached the high-water mark; a mark of 0 acts as 1 (R373, R374). -/
def logHigh (s : State) (d : Nat) : Bool :=
  decide (max 1 (bits s.pkg.logcfg 32 6) * logCapacity s ≤ 64 * logUsed s d)

/-- The log region lies in LPDDR-6; otherwise logging is disabled (R374). -/
def logEnabled (s : State) : Bool :=
  decide (bits s.pkg.logbase 20 32 * 2 ^ 20 + bits s.pkg.logcfg 0 32 * 2 ^ 20 ≤ lpddrSize)

/-- An address in an extent. -/
def within (pa base len : Nat) : Bool := decide (base ≤ pa) && decide (pa < base + len)

/-- The address lies in the rollback domain (R367). -/
def inDomain (s : State) (pa : Nat) : Bool :=
  match pa / 2 ^ 48 with
  | 0 => !within pa (bits s.pkg.jbase 6 46 * 64) (64 * 2 ^ bits s.pkg.jsize 0 5)
    && !within pa (bits s.pkg.trbase 5 47 * 32) (32 * 2 ^ bits s.pkg.trctl 32 5)
    && !within pa (bits s.pkg.logbase 20 32 * 2 ^ 20) (bits s.pkg.logcfg 0 32 * 2 ^ 20)
  | 1 => true
  | _ => false

/-- The tag code of an interval (R368). -/
def tagCode (n : Nat) : Nat := n % 3 + 1

/-- A seal is wanted: none before the first enable of a queue; one in progress that has not cut meets the request; one
that has cut is followed by another (R374, R376). -/
def requestSeal (s : State) : State :=
  if !s.pkg.firstEnable then s
  else match s.seals.phase with
    | .none =>
      let s := { s with seals := { s.seals with
        phase := .quiesce, interval := s.pkg.intnum, start := s.now, reports := [], selfReported := false, wanted := false,
        sent := s.seals.sent ++ [(.request, s.pkg.intnum)] } }
      traceSeal s 1
    | .agreement => { s with seals := { s.seals with wanted := true } }
    | .quiesce => s
    | .checkpoint => s

/-- A message to the seal group about the interval of the seal. -/
def sendSeal (s : State) (m : SealMessage) : State :=
  { s with seals := { s.seals with sent := s.seals.sent ++ [(m, s.seals.interval)] } }

/-- An error that only a rollback answers: the group is told, and the rollback is next (R379). -/
def requestRollback (s : State) : State := { sendSeal s .rollback with agenda := .ev .rollback :: s.agenda }

/-- A region found entangled (R382). -/
def entangle (s : State) (frond level : Nat) : State :=
  if s.dom.entangled.contains (frond, level) then s
  else { s with dom := { s.dom with entangled := (frond, level) :: s.dom.entangled } }

/-- The lines that the log of a region names, each once (R382). -/
def regionLines (s : State) (frond level : Nat) : List Nat :=
  ((s.dom.regionLog.filter fun (e : RegionUndo) => e.frond == frond && e.level == level).map RegionUndo.line).dedup

/-- A region whose log names more than 4,096 lines is entangled (R382). -/
def boundRegion (s : State) (frond level : Nat) : State :=
  if 4096 < (regionLines s frond level).length then entangle s frond level else s

/-- The append that brings a log to its mark asks for a seal (R373). -/
def afterAppend (s : State) (d : Nat) : State := if logHigh s d then requestSeal s else s

/-- The region of a log entry sees a write of another party: of another frond, or of an operation outside it (R382). -/
def RegionUndo.foreign (e : RegionUndo) (w : Writer) : Bool :=
  match w with
  | .other => true
  | .region f l _ => e.frond != f || decide (l < e.level)

/-- The region-log work of a write to a line (R381, R382): the first write of a region's core saves the line, a region with
more than 4,096 lines is entangled, and so is every region whose log names the line and that the writer is outside of. -/
def logRegion (s : State) (w : Writer) (line : Nat) : State :=
  let s : State := match w with
    | .other => s
    | .region f l c =>
      if logEnabled s = false
          ∨ s.dom.regionLog.any (fun (e : RegionUndo) => e.frond == f && e.level == l && e.core == c && e.line == line) = true then s
      else
        let s := { s with dom := { s.dom with regionLog :=
          ⟨f, l, c, line, readBytes s line 64, poisonIn s line⟩ :: s.dom.regionLog } }
        afterAppend (boundRegion s f l) (logDie line)
  (s.dom.regionLog.filter fun (e : RegionUndo) => e.line == line && e.foreign w).foldl
    (fun s (e : RegionUndo) => entangle s e.frond e.level) s

/-- The undo-log work of a write to a line: the first write of the open interval saves the line and tags it (R370). -/
def logInterval (s : State) (line : Nat) : State :=
  if lookup 0 s.tags (line / 64) = tagCode s.pkg.intnum ∨ logEnabled s = false then s
  else
    let s := modDie s (logDie line) fun x => { x with undo :=
      ⟨line, readBytes s line 64, poisonIn s line, s.pkg.intnum⟩ :: x.undo }
    afterAppend { s with tags := update 0 s.tags (line / 64) (tagCode s.pkg.intnum) } (logDie line)

/-- The entries a write to the line appends: the interval's at its first write, a region's at its core's first (R370, R381). -/
def newEntries (s : State) (w : Writer) (line : Nat) : Nat :=
  if logEnabled s = false then 0
  else (if lookup 0 s.tags (line / 64) = tagCode s.pkg.intnum then 0 else 1) + (match w with
    | .region f l c =>
      if s.dom.regionLog.any (fun e => e.frond == f && e.level == l && e.core == c && e.line == line) then 0 else 1
    | .other => 0)

/-- A log has no room for the entries of a write to some lines (R373). -/
def logFull (s : State) (w : Writer) (lines : List Nat) : Bool :=
  lines.any fun l =>
    let more := ((lines.filter fun m => logDie m == logDie l).map (newEntries s w)).foldl (· + ·) 0
    decide (0 < more) && decide (logCapacity s < logUsed s (logDie l) + more)

/-- The lines an extent touches. -/
def linesOf (pa n : Nat) : List Nat :=
  if n = 0 then [] else (List.range ((pa + n - 1) / 64 - pa / 64 + 1)).map fun i => (pa / 64 + i) * 64

/-- A write to a peer of the seal group is a write inside the domain, and what stood there before is kept by that device
(R372, R375): the device's own record of it. -/
def logPeer (s : State) (pa : Nat) (bs : List Byte) : State :=
  { s with peerUndo := ⟨s.pkg.intnum, tabulate bs.length fun i => (pa + i, (s.ext.find? fun e => e.1 == pa + i).map Prod.snd)⟩
      :: s.peerUndo }

/-- The address lies on a peer of the seal group (R375). -/
def groupPeer (s : State) (pa : Nat) : Bool :=
  decide (8 ≤ pa / 2 ^ 48) && decide (pa / 2 ^ 48 < 16) && homeOf s pa == pa && inSealGroup s (peerDevice pa)

/-- A write of a region outside the rollback domain that is not held in an egress buffer entangles it (R382). -/
def entangleWriter (s : State) : Writer → State
  | .other => s
  | .region f l _ => entangle s f l

/-- Bytes written by a party: logged where the address lies in the domain, on a peer of the seal group too (R370, R375, R381); a
region's write outside the domain entangles it (R382). A write that needs an entry of a full log is not made: it is an error that
only a rollback answers (R373, R379). -/
def store (s : State) (w : Writer) (pa : Nat) (bs : List Byte) : State :=
  let h := homeOf s pa
  if inDomain s h then
    let lines := linesOf h bs.length
    if logFull s w lines then requestRollback s
    else storeRaw (lines.foldl (fun s l => logInterval (logRegion s w l) l) s) pa bs
  else if groupPeer s pa then
    storeRaw (logPeer ((linesOf pa bs.length).foldl (fun s l => logRegion s w l) s) pa bs) pa bs
  else storeRaw (entangleWriter s w) pa bs

/-- Bytes written by a party, poisoned when they were read so (R391). -/
def storePoison (s : State) (w : Writer) (pa : Nat) (bs : List Byte) (bad : Bool) : State :=
  let s := store s w pa bs
  if bad then (List.range bs.length).foldl (fun s i => markPoison s (pa + i)) s else s

/-- Who writes for the issuing context (R210, R381): its innermost region outside save mode, else another party. -/
def writerOf (s : State) : Writer :=
  if s.cur.lichen then .other
  else match curGroup s with
    | some g => if g.saves s.cur.core || (curTask s).depth == 0 then .other else .region g.frond (curTask s).depth s.cur.core
    | none => .other

/-! Programs and translation (R94 to R98, R324). -/

/-- Where the program-table entry of a program lies (R324). -/
def programEntryPA (s : State) (program : Nat) : Nat := bits s.pkg.ptbase 6 46 * 64 + 32 * program

/-- Word `i` of a program-table entry (R324). -/
def programWord (s : State) (program i : Nat) : Nat := readNat s (programEntryPA s program + 8 * i) 8

/-- The entry is valid (R324). -/
def programValid (s : State) (program : Nat) : Bool := (programWord s program 0).testBit 63

/-- The program has the privileged attribute (R324). -/
def programPriv (s : State) (program : Nat) : Bool := (programWord s program 0).testBit 62

/-- The barrier cause of a failed access (R101). -/
abbrev FailCause := Nat

/-- What an access needs of a page (R94). -/
structure Need where
  rd : Bool
  wr : Bool
  at' : Bool
deriving DecidableEq, Repr

/-- The TLB entry of a cluster that maps a page (R96). -/
def tlbHit (s : State) (cluster space va : Nat) : Option TlbEntry :=
  s.tlb.find? fun e => e.cluster == cluster && e.program == space
    && decide (e.page ≤ va / 4096) && decide (va / 4096 < e.page + e.size)

/-- The walk of the table from a level: the leaf entry and the 4 KiB pages it spans, or a failed path (R94, R95). -/
def walkFrom (s : State) (va : Nat) : Nat → Nat → Nat → Option (Nat × Nat)
  | 0, _, _ => none
  | fuel + 1, level, base =>
    let shift := 39 - 9 * level
    let e := readNat s (base + 8 * field va shift 9) 8
    let pageBits := 12 + 9 * (3 - level)
    if !extentMapped s (base + 8 * field va shift 9) 8 || !peerAnswers s (base + 8 * field va shift 9) || !e.testBit 0 || field e 52 12 != 0 || field e 5 7 != 0 then none
    else if e.testBit 4 then
      if level = 0 || field e 12 (pageBits - 12) != 0 then none else some (e, 2 ^ (pageBits - 12))
    else if level = 3 then none
    else walkFrom s va fuel (level + 1) (field e 12 40 * 4096)

/-- The walk of a program's page table (R94, R324). -/
def walk (s : State) (space va : Nat) : Option (Nat × Nat) :=
  if programValid s space then walkFrom s va 4 0 (field (programWord s space 0) 12 40 * 4096) else none

/-- The address that a peer window names in its device's own map; any other address itself (R424). -/
def namedAddress (s : State) (pa : Nat) : Nat :=
  if 8 ≤ pa / 2 ^ 48 ∧ pa / 2 ^ 48 < 16 ∧ domValid s = true then peerLocal pa else pa

/-- The pieces of an extent that are contiguous, as first address and length; neighbouring columns of the tower lie 2^24 apart
(R75, R91). -/
def extentSpans (base : Nat) : Extent → List (Nat × Nat)
  | .linear len => [(base, len)]
  | .tower span cols => (List.range cols).map fun c => (base + c * 2 ^ 24, span)

/-- A handed-over extent reaches into the `n` bytes from `b` (R109). -/
def Handover.meets (h : Handover) (b n : Nat) : Bool :=
  (extentSpans h.base h.extent).any fun x => decide (b < x.1 + x.2) && decide (x.1 < b + n)

/-- Bytes from an address reach into an extent that waits for the seal of its handover (R109). -/
def handingOver (s : State) (pa n : Nat) : Bool := s.handovers.any fun h => h.meets (homeOf s pa) n

/-- The leaf that maps an address, from the TLB where it holds the page, and the physical address (R94, R96). -/
def pageOf (s : State) (cluster space va : Nat) : Option (Nat × Nat) :=
  let leaf := match tlbHit s cluster space va with
    | some e => some (e.entry.toNat, e.size)
    | none => walk s space va
  leaf.map fun (e, size) => (e, field e 12 40 * 4096 + va % (size * 4096))

/-- The translation of an address for an access: the physical address, or the
cause 1 (translation) or 6 (permission) (R95, R98, R101). Every program that reaches the stores only reads them (R79), and none
reaches the weight layer (R70), through a peer window either. An offset of region 3 without a register is not among the
addresses that R77 to R79 call unmapped, so that R98 alone forbids it to a program without privilege (log entry 48); an unmapped
offset of region 2 is a failed translation for every program (DESIGN CHOICE, safe: log entry 86). A page of an extent that waits
for the seal of its handover translates for nobody (R109; DESIGN CHOICE: log entry 70). -/
def translate (s : State) (cluster space va : Nat) (n : Need) : Except FailCause Nat :=
  match pageOf s cluster space va with
  | none => .error 1
  | some (e, pa) =>
    if pa / 2 ^ 48 = 3 ∧ programPriv s space = false then .error 6
    else if mapped s pa = false then .error 1
    else if (n.rd && !e.testBit 1) || (n.wr && !e.testBit 2) || (n.at' && !e.testBit 3) then .error 6
    else if namedAddress s pa / 2 ^ 48 = 2 ∧ programPriv s space = false then .error 6
    else if namedAddress s pa / 2 ^ 48 = 2 ∧ (n.wr = true ∨ n.at' = true) then .error 1
    else if namedAddress s pa / 2 ^ 48 = 1 ∧ field (namedAddress s pa) 43 3 = 1 then .error 6
    else if handingOver s pa 1 then .error 1
    else .ok pa

/-- The translation of an address for an `irst`: one that maps into regions 1 to 3 fails with the permission cause, whatever stands
there (R242). -/
def translateHeld (s : State) (cluster space va : Nat) : Except FailCause Nat :=
  match pageOf s cluster space va with
  | some (_, pa) =>
    if 1 ≤ pa / 2 ^ 48 ∧ pa / 2 ^ 48 ≤ 3 then .error 6 else translate s cluster space va ⟨false, true, false⟩
  | none => .error 1

/-- The translation of every byte of an extent; the first failure is its failure (R240). The bytes beyond VA 2^48 − 1 are those
from VA 0 on (DESIGN CHOICE, unsafe: log entry 94). -/
def translateAll (s : State) (cluster space va len : Nat) (n : Need) : Except FailCause (List Nat) :=
  (List.range len).foldr (fun i acc =>
    match acc, translate s cluster space ((va + i) % 2 ^ 48) n with
    | .error c, .ok _ => .error c
    | _, .error c => .error c
    | .ok l, .ok pa => .ok (pa :: l)) (.ok [])

/-- The translation of an extent whose addresses a peer finds: one that it does not find is a layer that is absent (R436; for the
device's own accesses to records, packets' addresses and page tables DESIGN CHOICE, safe: log entry 23). -/
def translateThere (s : State) (cluster space va len : Nat) (n : Need) : Except FailCause (List Nat) :=
  match translateAll s cluster space va len n with
  | .error c => .error c
  | .ok pas => if pas.all (peerAnswers s) then .ok pas else .error 5

/-- The bytes at translated addresses. -/
def readAll (s : State) (pas : List Nat) : List Byte := pas.map (readByte s)

/-- Bytes written to translated addresses, which lie in one page each 64-byte line. -/
def storeAll (s : State) (w : Writer) (pas : List Nat) (bs : List Byte) : State :=
  (pas.zip bs).foldl (fun s (pa, b) => store s w pa [b]) s

/-! Frond records and their sorus (R19 to R25, R438). -/

/-- The sorus of a cluster. -/
def sorusOf (s : State) (cluster : Nat) : Sorus := lookup Sorus.initial s.dom.sori cluster

/-- The state with a sorus changed. -/
def modSorus (s : State) (cluster : Nat) (f : Sorus → Sorus) : State :=
  { s with dom := { s.dom with sori := assign s.dom.sori cluster (f (sorusOf s cluster)) } }

/-- A word of a frond record, read for its sorus (R19, R436). -/
def frondWord (s : State) (cluster space ptr i : Nat) : Option Word :=
  match translateThere s cluster space (ptr * 64 + 4 * i) 4 ⟨true, false, false⟩ with
  | .ok pas => some (leWord (readAll s pas))
  | .error _ => none

/-- A word of a frond record written by its sorus (R19); none when the access fails (R436, R438). -/
def setFrondWord (s : State) (cluster space ptr i : Nat) (v : Word) : Option State :=
  match translateThere s cluster space (ptr * 64 + 4 * i) 4 ⟨false, true, false⟩ with
  | .ok pas => some (storeAll s .other pas (wordBytes v))
  | .error _ => none

/-- Word 12 of a frond (R23). -/
def statusWord (state : Nat) (faulted : BitVec 4) (last cause reason : Nat) : Word :=
  BitVec.ofNat 32 (state * 2 ^ 28 + faulted.toNat * 2 ^ 24 + last * 2 ^ 20 + cause % 256 * 2 ^ 8 + reason)

/-- A retirement counted against its launch, or traced as stray (R329). -/
def retireLaunch (s : State) (cluster : Nat) (launch : Word) (ptr : Nat) : State :=
  match s.dom.launches.find? fun e => e.1 == bits launch 0 16 with
  | some (slot, l) =>
    if l.seq % 65536 = bits launch 16 16 then
      { s with dom := { s.dom with launches := assign s.dom.launches slot { l with outstanding := l.outstanding - 1 } } }
    else trace s (leaderOf cluster) 10 0 0 (launch.toNat + ptr * 2 ^ 32)
  | none => trace s (leaderOf cluster) 10 0 0 (launch.toNat + ptr * 2 ^ 32)

/-- A frond leaves its sorus. -/
def removeFrond (s : State) (cluster ptr space : Nat) : State :=
  modSorus s cluster fun so => { so with fronds := so.fronds.filter fun f => !(f.ptr == ptr && f.space == space) }

/-- A frond whose record cannot be reached is dropped: counted retired, traced and alarmed (R438). -/
def dropFrond (s : State) (cluster : Nat) (f : Frond) : State :=
  let s := removeFrond s cluster f.ptr f.space
  let s := retireLaunch s cluster f.launch f.ptr
  let s := trace s (leaderOf cluster) 14 0 0 (f.ptr + f.launch.toNat * 2 ^ 32)
  raiseAlarm s 1

/-- Word 12 written at a change of state (R23), or the frond dropped (R438). -/
def noteFrond (s : State) (cluster : Nat) (f : Frond) (state reason : Nat) : State :=
  match setFrondWord s cluster f.space f.ptr 12 (statusWord state f.faulted f.lastSusp f.cause reason) with
  | some s => s
  | none => dropFrond s cluster f

/-- The barrier key of a cluster and a number. -/
def barKey (cluster b : Nat) : Nat := cluster * 1024 + b

/-- A barrier. -/
def barrierOf (s : State) (cluster b : Nat) : Barrier := lookup Barrier.initial s.dom.barriers (barKey cluster b)

/-- The state with a barrier replaced. -/
def setBarrier (s : State) (cluster b : Nat) (x : Barrier) : State :=
  { s with dom := { s.dom with barriers := assign s.dom.barriers (barKey cluster b) x } }

/-- The cluster a valid wait entry names, over the package (R22). -/
def waitCluster (w : Word) : Nat := 24 * bits w 29 2 + bits w 24 5

/-- A wait entry is satisfied by its barrier's generation (R25). -/
def waitSatisfied (s : State) (w : Word) : Bool :=
  let b := barrierOf s (waitCluster w) (bits w 8 10)
  let d := (b.gen + 256 - bits w 0 8) % 256
  decide (1 ≤ d) && decide (d ≤ 128)

/-- The barrier of a wait entry is marked faulted (R25). -/
def waitFaulted (s : State) (w : Word) : Bool := (barrierOf s (waitCluster w) (bits w 8 10)).fault

/-- The placement a record's words 1 and 2 give when the frond becomes runnable (R20, R21, R337). -/
def Frond.place (f : Frond) (w1 w2 : Word) : Frond :=
  { f with
    priority := bits w1 8 5, pinned := w1.getLsbD 2, roam := w1.getLsbD 1, twin := w1.getLsbD 0,
    widthCode := bits w2 16 3, stage := bits w2 8 8, base := bits w2 0 6 }

/-- A waiting frond tested again (R25, R105): its faulted bits, and whether every entry is satisfied. -/
def Frond.tested (s : State) (f : Frond) : Frond × Bool :=
  let faulted := maskOf4 fun i => f.faulted.getLsbD i || (valid i && waitFaulted s (f.waits.getD i 0))
  ({ f with faulted := faulted },
    (List.range 4).all fun i => !valid i || faulted.getLsbD i || waitSatisfied s (f.waits.getD i 0))
where
  valid (i : Nat) : Bool := (f.waits.getD i 0).getLsbD 31
  maskOf4 (p : Nat → Bool) : BitVec 4 :=
    BitVec.ofNat 4 ((List.range 4).foldl (fun a i => if p i then a + 2 ^ i else a) 0)

/-- The state with a frond of a sorus replaced. -/
def setFrond (s : State) (cluster : Nat) (f : Frond) : State :=
  modSorus s cluster fun so => { so with fronds := so.fronds.map fun x =>
    if x.ptr = f.ptr ∧ x.space = f.space then f else x }

/-- One waiting frond tested: it becomes runnable when every entry is satisfied and nothing holds it (R25, R212, R337). Fronds that
become runnable in one cycle stand in the order in which they entered the sorus (R197). -/
def retestFrond (s : State) (cluster : Nat) (f : Frond) : State :=
  if f.st ≠ .waiting then s
  else
    let (f, ok) := f.tested s
    if !ok || f.hold.isSome then setFrond s cluster f
    else match frondWord s cluster f.space f.ptr 1, frondWord s cluster f.space f.ptr 2 with
      | some w1, some w2 =>
        let f := { f.place w1 w2 with st := .runnable, ready := s.now, broken := false }
        noteFrond (setFrond s cluster f) cluster f 2 0
      | _, _ => dropFrond s cluster f

/-- Every waiting frond of every sorus tested (R103, R105). -/
def retestAll (s : State) : State :=
  s.dom.sori.foldl (fun s (cluster, so) => so.fronds.foldl (fun s f => retestFrond s cluster f) s) s

/-! Byte barriers (R101 to R106). -/

/-- The barrier after it fires (R103). -/
def Barrier.fired (b : Barrier) : Barrier := { b with arrived := 0, gen := (b.gen + 1) % 256 }

/-- The barrier after an arrival of `n` bytes, and whether waiters are to be tested (R102). -/
def Barrier.arrive (b : Barrier) (n : Nat) : Barrier × Bool :=
  if b.fault then (b, false)
  else if !b.init then
    if b.arrived + n ≤ 2 ^ 32 - 1 then ({ b with arrived := b.arrived + n }, false)
    else ({ b with fault := true, fcause := 2 }, true)
  else if b.arrived + n < b.expected then ({ b with arrived := b.arrived + n }, false)
  else if b.arrived + n = b.expected then (b.fired, true)
  else ({ b with fault := true, fcause := 2 }, true)

/-- An arrival at a barrier, tested at once (R102, R103). -/
def arriveNow (s : State) (cluster b n : Nat) : State :=
  let (x, test) := (barrierOf s cluster b).arrive n
  let s := setBarrier s cluster b x
  if test then retestAll s else s

/-- An arrival at a barrier: in a cycle under way it waits for the others of the cycle (R102, R103, R106). -/
def arrive (s : State) (cluster b n : Nat) : State :=
  if s.gather then { s with arrivals := s.arrivals ++ [(barKey cluster b, n)] } else arriveNow s cluster b n

/-- A barrier marked faulted at once; a first cause stays (R105). -/
def markNow (s : State) (cluster b cause : Nat) : State :=
  let x := barrierOf s cluster b
  if x.fault then s else retestAll (setBarrier s cluster b { x with fault := true, fcause := cause })

/-- A barrier marked faulted: in a cycle under way after the arrivals of the cycle (R105, R106). -/
def markFaulted (s : State) (cluster b cause : Nat) : State :=
  if s.gather then { s with marks := s.marks ++ [(barKey cluster b, cause)] } else markNow s cluster b cause

/-- The barrier after an initialisation, whether waiters are to be tested, and whether the issuer takes the over-arrival
trap (R104). -/
def Barrier.start (b : Barrier) (expected scope : Nat) (owner : Nat) : Barrier × Bool × Bool :=
  let b := if b.fault then { b with fault := false, fcause := 0, arrived := 0 } else b
  let b := { b with expected := expected, scope := scope, init := true, owner := some owner }
  if b.arrived < expected then (b, false, false)
  else if b.arrived = expected then (b.fired, true, false)
  else ({ b with fault := true, fcause := 2 }, true, true)

/-- A barrier reference (R256): the cluster over the package and the number. -/
def barRef (own : Nat) (w : Word) : Nat × Nat :=
  if w.getLsbD 31 && decide (bits w 24 5 < 24) then (waitCluster w, bits w 8 10) else (own, bits w 8 10)

/-! Results in flight (R15, R16, R31, R164, R167, R168, R286). -/

/-- A latch stack after an entry enters (R16). -/
def pushLatch {α : Type} (l : List α) (v : α) : List α := (v :: l).take 4

/-- The latches after a result enters (R16); the C and X units keep none. -/
def Latches.push (l : Latches) : Latched → Latches
  | .scalar .a v => { l with a := pushLatch l.a v }
  | .scalar .b v => { l with b := pushLatch l.b v }
  | .scalar .m v => { l with m := pushLatch l.m v }
  | .scalar .f v => { l with f := pushLatch l.f v }
  | .scalar .n v => { l with n := pushLatch l.n v }
  | .scalar _ _ => l
  | .vector .v v => { l with v := pushLatch l.v v }
  | .vector .w v => { l with w := pushLatch l.w v }

/-- Two destinations name one register, or one predicate pair, in a lane active in both (R167, R168, R286). -/
def Dest.meets : Dest → Dest → Bool
  | .word fl r _, .word fl' r' _ => fl == fl' && r == r'
  | .wide r _, .wide r' _ => r == r'
  | .lanes u r _ act, .lanes u' r' _ act' => u == u' && r == r' && act &&& act' != 0
  | .pair k _ _, .pair k' _ _ => k == k' && k != 0
  | .vpair k _ _ act, .vpair k' _ _ act' => k == k' && k != 0 && act &&& act' != 0
  | .vpair k _ _ act, .vsingle r _ act' => r / 2 == k && k != 0 && act &&& act' != 0
  | .vsingle r _ act, .vpair k _ _ act' => r / 2 == k && k != 0 && act &&& act' != 0
  | .vsingle r _ act, .vsingle r' _ act' => r == r' && decide (2 ≤ r) && act &&& act' != 0
  | .csr n _, .csr n' _ => n == n'
  | .fmt _, .fmt _ => true
  | .pattern i _, .pattern j _ => i == j
  | _, _ => false

/-- Lanes written: active lanes take the value; an inactive lane takes the value held at issue unless another write of
the cycle is active there (R153, R168). -/
def mergeLanes (old new : Lanes) (active others : Mask) : Lanes :=
  (old.zip new).zipIdx.map fun ((o, n), i) => if active.getLsbD i || !others.getLsbD i then n else o

/-- The lanes in which other writes of the cycle are active for a vector register (R168). -/
def othersActive (ds : List Dest) (u : UnitVW) (r : Nat) : Mask :=
  ds.foldl (fun m d => match d with
    | .lanes u' r' _ act => if u' = u ∧ r' = r then m ||| act else m
    | _ => m) 0

/-- The lanes in which an earlier pair write of the cycle is what a single predicate holds: the predicate has been written by
no later single write (R286). -/
def pairActive (ds : List Dest) (r : Nat) : Mask :=
  ds.foldl (fun m d => match d with
    | .vpair k _ _ act => if k = r / 2 then m ||| act else m
    | .vsingle r' _ act => if r' = r then m &&& ~~~act else m
    | _ => m) 0

/-- Control registers numbered in rows of like registers. -/
def setCsr (t : Task) (n : Nat) (v : Word) : Task :=
  if n = 0x001 then { t with status := v &&& 0x3DF }
  else if n = 0x008 then (if bits v 0 3 ≤ 4 then { t with depth := bits v 0 3 } else t)
  else if 0x009 ≤ n ∧ n ≤ 0x00C then { t with rgh := t.rgh.set (n - 0x009) (v &&& 0xFFFFFFFC) }
  else if n = 0x010 then { t with cd := min 8 (bits v 8 4), ld := min 4 (bits v 0 3) }
  else if 0x011 ≤ n ∧ n ≤ 0x014 then { t with loopA := t.loopA.set (n - 0x011) (v &&& 0xFFFFFFFC) }
  else if 0x015 ≤ n ∧ n ≤ 0x018 then { t with loopB := t.loopB.set (n - 0x015) (v &&& 0xFFFFFFFC) }
  else if 0x019 ≤ n ∧ n ≤ 0x01C then { t with loopC := t.loopC.set (n - 0x019) v }
  else if 0x020 ≤ n ∧ n ≤ 0x027 then { t with link := t.link.set (n - 0x020) v }
  else if n = 0x030 then { t with tvec := v &&& 0xFFFFFFFC }
  else if n = 0x031 then { t with tcause := v &&& 0xBFFFFFFF }
  else if n = 0x032 then { t with tpc := v &&& 0xFFFFFFFC }
  else if n = 0x034 then { t with energy := withBits t.energy 0 32 v.toNat }
  else if n = 0x035 then { t with energy := withBits t.energy 32 32 (v &&& 0x8000FFFF).toNat }
  else t

/-- The core registers a `csrw` writes: LSHARE, where 65 to 127 store 64, and EWEIGHT (R205, R342, R364). -/
def Core.setCsr (c : Core) (n : Nat) (v : Word) : Core :=
  if n = 0x033 then { c with lshare := min 64 (bits v 0 7) }
  else if 0x040 ≤ n ∧ n ≤ 0x04F then { c with eweights := c.eweights.set (n - 0x040) v }
  else { c with task := Sys2Proof.Machine.setCsr c.task n v }

/-- The fields of FMT that are stored (R64, R65). -/
def fmtMask : Word := 0x3FFCFF00

/-- One destination written, with the destinations written earlier in the same cycle and the context before the cycle. -/
def Core.writeDest (c : Core) (before : Task) (earlier : List Dest) (d : Dest) : Core :=
  let t := c.task
  match d with
  | .word fl r v => { c with task := writeReg t fl r v }
  | .wide r v => { c with task := { t with x := t.x.set r v } }
  | .lanes u r v act =>
    { c with task := writeLanes t u r (mergeLanes (readLanes t u r) v act (othersActive earlier u r)) }
  | .pair k lo hi =>
    if k = 0 then c else { c with task := { t with preds := setBit (setBit t.preds (2 * k) lo) (2 * k + 1) hi } }
  | .vpair k lo hi act =>
    let half (t : Task) (r : Nat) (v : Option Mask) : Task := match v with
      | some v => writeVPred t r (mergeMask act v (readVPred t r))
      | none => t
    { c with task := half (half t (2 * k) lo) (2 * k + 1) hi }
  | .vsingle r v act =>
    let other := if r % 2 = 0 then r + 1 else r - 1
    let t := writeVPred t r (mergeMask act v (readVPred t r))
    let kept := mergeMask (act &&& pairActive earlier other) (readVPred before other) (readVPred t other)
    { c with task := writeVPred t other kept }
  | .csr n v => c.setCsr n v
  | .fmt v => { c with task := { t with fmt := v &&& fmtMask } }
  | .pattern i bs => { c with task := { t with patterns := t.patterns.set i bs } }

/-- Results of one cycle in the order in which they enter latches: by issue order (R16). -/
def byOrder (ps : List Pending) : List Pending := sortBy (fun p q => decide (p.order ≤ q.order)) ps

/-- Results of one cycle in the order in which they are written: slot order, then issue order, so that the last is left (R167). -/
def bySlot (ps : List Pending) : List Pending :=
  sortBy (fun p q => decide (p.slot < q.slot) || (decide (p.slot = q.slot) && decide (p.order ≤ q.order))) ps

/-- Two results of one cycle collide (R167). -/
def collides (ps : List Pending) : Bool :=
  match ps with
  | [] => false
  | p :: rest => (rest.any fun q => p.dsts.any fun d => q.dsts.any fun e => d.meets e) || collides rest

/-- STATUS.WC (R346). -/
def flagWC : Word := 0x40

/-- The results of one cycle delivered: latches, then writes, the collision flag and the flags of the operations (R16,
R55, R167, R168). -/
def Core.deliverCycle (c : Core) (ps : List Pending) : Core :=
  let t := c.task
  let lat := (byOrder ps).foldl (fun l p => match p.latch with
    | some x => l.push x
    | none => l) t.latches
  let c := { c with task := { t with latches := lat } }
  let before := c.task
  let (c, _) := (bySlot ps).foldl (fun (c, seen) p =>
    p.dsts.foldl (fun (c, seen) d => (Core.writeDest c before seen d, seen ++ [d])) (c, seen)) (c, ([] : List Dest))
  let fl := ps.foldl (fun w p => w ||| p.flags) c.task.status
  { c with task := { c.task with status := if collides ps then fl ||| flagWC else fl } }

/-- Every result due at or before a cycle delivered, cycle by cycle; `fuel` bounds the number of cycles with a result. -/
def Core.deliver (c : Core) (cycle : Nat) : Nat → Core
  | 0 => c
  | fuel + 1 =>
    let due := c.task.pend.filter fun p => decide (p.due ≤ cycle)
    match due with
    | [] => c
    | p :: ps =>
      let first := ps.foldl (fun m q => min m q.due) p.due
      let now := due.filter fun q => q.due == first
      let rest := c.task.pend.filter fun q => !(q.due == first)
      Core.deliver (Core.deliverCycle { c with task := { c.task with pend := rest } } now) cycle fuel

/-- Poisoned data among the results due at a cycle (R359). -/
def Core.poisonDue (c : Core) (cycle : Nat) : Bool :=
  c.task.pend.any fun p => decide (p.due ≤ cycle) && p.poisoned

/-- The results of a core due by a cycle delivered; poisoned data among them are a consumed error of its group (R359). -/
def deliverCore (s : State) (id cycle : Nat) : State :=
  let c := coreOf s id
  let bad := c.poisonDue cycle
  let s := setCore s id (c.deliver cycle c.task.pend.length)
  if !bad then s
  else match groupOn s id with
    | some g => modGroup s g.gid fun g => { g with pending := ⟨9, 0, [g.rankOf id], none⟩ :: g.pending }
    | none => s

/-- A covered item of the bundle's signature (R385). -/
def sign (s : State) (what addr data : Nat) : State :=
  { s with cur := { s.cur with sig := ⟨what, addr, data⟩ :: s.cur.sig } }

/-- The data of a destination, for the signature. -/
def Dest.item : Dest → SigItem
  | .word fl r v => ⟨1 + fl.code, r, v.toNat⟩
  | .wide r v => ⟨20, r, v.toNat⟩
  | .lanes u r v act => ⟨20 + u.code, r, v.foldl (fun n w => n * 2 ^ 32 + w.toNat) act.toNat⟩
  | .pair k lo hi => ⟨30, k, 2 * hi.toNat + lo.toNat⟩
  | .vpair k lo hi act => ⟨31, k, ((lo.getD 0).toNat * 2 ^ 128 + (hi.getD 0).toNat) * 2 ^ 128 + act.toNat⟩
  | .vsingle r v act => ⟨32, r, v.toNat * 2 ^ 128 + act.toNat⟩
  | .csr n v => ⟨33, n, v.toNat⟩
  | .fmt v => ⟨34, 0, v.toNat⟩
  | .pattern i bs => ⟨35, i, leNat bs⟩

/-- The data of a latch entry, for the signature. -/
def Latched.item : Latched → SigItem
  | .scalar fl v => ⟨36, fl.code, v.toNat⟩
  | .vector u v => ⟨37, u.code, v.foldl (fun n w => n * 2 ^ 32 + w.toNat) 1⟩

/-- A result of the issuing core put in flight (R31, R164); its registers, its latch entry and the flags it raises are covered
by the signature (R385). -/
def issueResult (s : State) (lat slot : Nat) (latch : Option Latched) (dsts : List Dest) (flags : Word) (bad : Bool) : State :=
  let s := { s with cur := { s.cur with
    sig := latch.toList.map Latched.item ++ [⟨38, 0, flags.toNat⟩] ++ dsts.map Dest.item ++ s.cur.sig } }
  modCur s fun t => { t with
    pend := t.pend ++ [⟨s.cur.cycle + lat, slot, t.order, latch, dsts, flags, bad⟩], order := t.order + 1 }

/-! Vector rows of the near layer (R80, R81, R231). -/

/-- The row a vector access touches in a bank (R81, R231). -/
def vectorRow (base mode : Nat) (pair : Bool) (bank : Nat) : Nat :=
  let b := if pair then bank / 2 else bank
  match mode with
  | 0 => base
  | 1 => Nat.xor base (b % 2)
  | 2 => Nat.xor base (b % 4)
  | 3 => Nat.xor base (b % 8)
  | 4 => Nat.xor base (b % 16)
  | 5 => Nat.xor base (b % 32)
  | _ => (base + b) % 512

/-- The near address of a lane's bytes in a vector access (R80). -/
def laneAddr (base mode : Nat) (pair : Bool) (lane : Nat) : Nat :=
  lane / 4 * 8192 + vectorRow base mode pair (lane / 4) * 16 + 4 * (lane % 4)

/-- The lanes a vector load reads from a column (R80, R232). -/
def readVector (s : State) (core base : Nat) (sw : Swizzle) : Lanes :=
  tabulate 128 fun l => leWord (readBytes s (nearPA core (laneAddr base sw.mode.val sw.pair l)) 4)

/-- A row of a vector access is poisoned. -/
def vectorPoisoned (s : State) (core base : Nat) (sw : Swizzle) : Bool :=
  (List.range 32).any fun b => poisonedAt s (nearPA core (b * 8192 + vectorRow base sw.mode.val sw.pair b * 16)) 16

/-! Order of a core's accesses (R116 to R127, R141). -/

/-- A routine whose call issued before a time, or a call that waits, has reads to make (R319). -/
def routineBefore (c : Core) (t : Nat) : Bool :=
  (c.mx.routine.any fun r => decide (r.issued < t)) || c.mx.waiting.any fun r => decide (r.issued < t)

/-- The M-slot accesses of a core up to a time, and the matrix reads called before it, are performed (R123, R127, R255). -/
def accessesDone (s : State) (core t : Nat) : Bool :=
  !((taskOf s core).remotes.any fun r => decide (r.issued ≤ t)) && !routineBefore (coreOf s core) t

/-- A `drain` of the core has not completed (R124). -/
def drainPending (s : State) (core : Nat) : Bool :=
  (taskOf s core).fences.any fun f => !accessesDone s core f

/-- What a core issued at a time stands after a `drain` that has not completed (R124). -/
def fenced (s : State) (core issued : Nat) : Bool :=
  (taskOf s core).fences.any fun f => decide (f < issued) && !accessesDone s core f

/-- The cores that see a core's stores at once: the core, and its partner of a twin pair (R141). -/
def insiders (s : State) (core : Nat) : List Nat :=
  match groupOn s core with
  | some g => if g.twin then [g.members.getD (g.rankOf core) core, g.trailing.getD (g.rankOf core) core] else [core]
  | none => [core]

/-- A core has remote accesses that issued before a time and have not performed. -/
def remotesBefore (s : State) (core t : Nat) : Bool := (taskOf s core).remotes.any fun r => decide (r.issued < t)

/-- A store of a core still waits to be seen: for a `drain` before it, or, of a releasing bundle, for the remote accesses
before it (R122, R124). -/
def Veil.holds (s : State) (core : Nat) (v : Veil) : Bool :=
  fenced s core v.stamp || (v.release && remotesBefore s core v.stamp)

/-- The stores of other cores that a reader may not see yet (R122, R124). -/
def hiddenFrom (s : State) (reader : Nat) : List Veil :=
  s.cores.flatMap fun (id, c) =>
    if c.task.hidden.isEmpty || (insiders s id).contains reader then [] else c.task.hidden.filter (Veil.holds s id)

/-- The stores of leading cores whose compare a reader waits for (R141). -/
def veiledFrom (s : State) (reader : Nat) : List Veil :=
  s.cores.flatMap fun (id, c) => if c.task.veiled.isEmpty || (insiders s id).contains reader then [] else c.task.veiled

/-- Memory with veils over it: bytes that wait read as they were before the oldest store that waits; the newest stand first. -/
def behindVeils (s : State) (vs : List Veil) : State :=
  if vs.isEmpty then s else { s with mem := vs.foldl (fun m x => writeCells m x.pa [x.old]) s.mem }

/-- Memory as another party than its writer sees it (R124, R141). -/
def outside (s : State) (reader : Nat) : State := behindVeils s (veiledFrom s reader ++ hiddenFrom s reader)

/-- The reader that is no core. -/
def noCore : Nat := 8192

/-- Bytes that another party has written since are read as they are. -/
def Command.forget (pa n : Nat) (c : Command) : Command := { c with kept := c.kept.filter fun k => !within k.1 pa n }

/-- The state after another party has written bytes of a column. -/
def forgetKept (s : State) (pa n : Nat) : State :=
  { s with dom := { s.dom with engines := s.dom.engines.map fun (k, e) =>
      (k, { e with queue := e.queue.map (Command.forget pa n), running := e.running.map (Command.forget pa n) }) } }

/-- A write of another party follows what waits to be seen of the same bytes: they are seen as it leaves them, by commands that
still read them as they were too (R113, R117, R124, R141). -/
def dropVeils (s : State) (pa n : Nat) : State :=
  let h := homeOf s pa
  let other (v : Veil) : Bool := !within v.pa h n
  let s := forgetKept s h n
  if s.cores.all fun e => e.2.task.hidden.isEmpty && e.2.task.veiled.isEmpty then s
  else { s with cores := s.cores.map fun (id, c) =>
    (id, { c with task := { c.task with hidden := c.task.hidden.filter other, veiled := c.task.veiled.filter other } }) }

/-- Bytes written by a unit, of which some are poisoned (R391). -/
def storeTagged (s : State) (w : Writer) (pa : Nat) (bs : List Byte) (bad : List Bool) : State :=
  let s := store (dropVeils s pa bs.length) w pa bs
  bad.zipIdx.foldl (fun s (b, i) => if b then markPoison s (pa + i) else s) s

/-- Old bytes of an extent, each with the stamp of the store that replaces it. -/
def veilsAt (s : State) (stamp : Nat) (release : Bool) (pa n : Nat) : List Veil :=
  tabulate n fun i => ⟨stamp, release, pa + i, readByte s (pa + i)⟩

/-- The oldest of the veils in force over a byte takes another old content. -/
def setOldest (inForce : Veil → Bool) (pa : Nat) (b : Byte) : List Veil → List Veil
  | [] => []
  | v :: vs =>
    if v.pa = pa ∧ inForce v = true ∧ (vs.any fun x => x.pa == pa && inForce x) = false then { v with old := b } :: vs
    else v :: setOldest inForce pa b vs

/-- A byte of a read-modify-write that stands before the stores still to be seen of it (R124, R133): those who may not see them
read it, and the bytes stored stay. `none` where every store has been seen. -/
def writeUnder (s : State) (pa : Nat) (b : Byte) : Option State :=
  if (hiddenFrom s 8192).any fun v => v.pa == pa then
    some { s with cores := s.cores.map fun (id, c) =>
      (id, { c with task := { c.task with hidden := setOldest (Veil.holds s id) pa b c.task.hidden } }) }
  else if (veiledFrom s 8192).any fun v => v.pa == pa then
    some { s with cores := s.cores.map fun (id, c) =>
      (id, { c with task := { c.task with veiled := setOldest (fun _ => true) pa b c.task.veiled } }) }
  else none

/-- A core's remote stores to its own column that issued before a time stand there for the core itself from now on; the others see
them when they perform (R117, R118, R122). The store of a leading core waits for its trailing partner's (R386). -/
def standEarly (s : State) (core t : Nat) : State :=
  let paired := match groupOn s core with
    | some g => g.twin
    | none => false
  let mine (r : RemoteAccess) : Bool := r.target == core && decide (r.issued < t) && !r.early && !paired
  let s := ((taskOf s core).remotes.filter mine).foldl (fun s r => match r.op with
    | .load _ _ _ _ => s
    | .store cs w => cs.foldl (fun s c =>
        let pa := nearPA core c.1
        let old := veilsAt s (r.issued + 1) true pa c.2.length
        store (modTask s core fun t => { t with hidden := old ++ t.hidden }) w pa c.2) s) s
  modTask s core fun t => { t with remotes := t.remotes.map fun r => if mine r then { r with early := true } else r }

/-- The state that a store of the running bundle to its own column finds: at a scope above 0 the core's own remote stores to that
column stand there before it (R117, R122; DESIGN CHOICE: log entry 7). -/
def ownStands (s : State) : State := if s.cur.scope = 0 then s else standEarly s s.cur.core s.now

/-- Some bytes of a handle's extent may be this one: a handle that names its column's layer, or a window (R92). -/
def Handle.covers (h : Handle) (pa : Nat) : Bool :=
  let base := bits h.w0 0 52
  if bits h.w0 61 2 = 1 then
    decide (base ≤ pa) && decide (pa < base + bits h.w2 24 11 * 2 ^ 24)
      && decide (base % 2 ^ 24 ≤ pa % 2 ^ 24) && decide (pa % 2 ^ 24 < base % 2 ^ 24 + bits h.w2 0 24)
  else decide (8 ≤ base / 2 ^ 48) || (decide (base ≤ pa) && decide (pa < base + bits h.w1 0 41))

/-- A command keeps the old bytes of its issuer's column that a later store replaces, as it reads before that store (R117). -/
def Command.keep (s : State) (c : Command) (core pa n : Nat) : Command :=
  if c.issuer != core then c
  else
    let fresh (i : Nat) : Bool := c.handles.any (fun h => h.2.covers (pa + i)) && !(c.kept.any fun k => k.1 == pa + i)
    { c with kept := c.kept ++ ((List.range n).filter fresh).map fun i =>
      (pa + i, readByte s (pa + i), poisonedAt s (pa + i) 1) }

/-- An acquire of a core that issued before a time has not been bound (R122). -/
def acquireUnbound (s : State) (core t : Nat) : Bool :=
  (taskOf s core).remotes.any fun r => r.acq && r.bound.isNone && decide (r.issued < t)

/-- What a store of a core to its own column leaves for those that read before it, and for those that may not see it yet: after a
release, or an acquire that has still to be bound, those see it once what stands before it has performed (R117, R122, R124,
R141). -/
def noteOwnStore (s : State) (core pa n : Nat) : State :=
  let leads := !s.cur.lichen && match groupOn s core with
    | some g => g.twin && g.members.contains core
    | none => false
  let release := (s.cur.scope != 0 && remotesBefore s core s.now) || acquireUnbound s core s.now
  let s := { s with dom := { s.dom with engines := s.dom.engines.map fun (k, e) =>
    (k, { e with queue := e.queue.map fun c => c.keep s core pa n, running := e.running.map fun c => c.keep s core pa n }) } }
  modTask s core fun t => { t with
    hidden := if release || fenced s core s.now then veilsAt s s.now release pa n ++ t.hidden else t.hidden,
    veiled := if leads then veilsAt s s.cur.cycle false pa n ++ t.veiled else t.veiled }

/-! Remote accesses (R71, R118, R122, R234, R235). -/

/-- What a remote load reads (R71, R234). -/
def bindLoad (s : State) (target addr : Nat) (sw : Option Swizzle) (fl : File) (d : Nat) : Bound :=
  match sw with
  | some sw => ⟨[Dest.lanes (if fl = .v then .v else .w) d (readVector s target addr sw) (BitVec.allOnes 128)], none,
      vectorPoisoned s target addr sw⟩
  | none =>
    let v := leWord (readBytes s (nearPA target addr) 4)
    ⟨regDest fl d v, if fl = .m then some (Latched.scalar .m v) else none, poisonedAt s (nearPA target addr) 4⟩

/-- A remote access reads. -/
def RemoteOp.isLoad : RemoteOp → Bool
  | .load _ _ _ _ => true
  | .store _ _ => false

/-- A remote load has not delivered by the cycle it is due in (R32). -/
def RemoteAccess.late (r : RemoteAccess) (cycle : Nat) : Bool := r.op.isLoad && decide (r.due ≤ cycle)

/-- The results of a core due by a cycle delivered, once no remote load due by then is late: what is due in one cycle is delivered
together (R16, R31, R167). -/
def deliverDue (s : State) (id cycle : Nat) : State :=
  if (taskOf s id).remotes.any fun r => r.late cycle then s else deliverCore s id cycle

/-- The near addresses of the rows a remote access touches, one in each bank (R84). -/
def RemoteOp.rows : RemoteOp → List Nat
  | .load a none _ _ => [a]
  | .load a (some sw) _ _ => tabulate 32 fun b => b * 8192 + vectorRow a sw.mode.val sw.pair b * 16
  | .store cs _ => (cs.map fun c => c.1 / 16 * 16).dedup

/-- The requests of an access at the banks of a column's near layer. -/
def requestsAt (target cls owner : Nat) (rows : List Nat) : List BankRequest :=
  rows.map fun a => ⟨target, 2, field a 13 5, cls, owner, 0⟩

/-- Whose the requests of a remote access are. -/
def remoteOwner (core order : Nat) : Nat := 8192 * order + core

/-- Some requests of an owner and class stand at banks. -/
def requestsStand (s : State) (cls owner : Nat) : Bool := s.bankReqs.any fun r => r.cls == cls && r.owner == owner

/-- The requests of an owner and class taken back. -/
def dropRequests (s : State) (cls owner : Nat) : State :=
  { s with bankReqs := s.bankReqs.filter fun r => !(r.cls == cls && r.owner == owner) }

/-- Both cores of a pair that differ take part in a divergence of their group (R385, R388). -/
def twinDiverges (s : State) (g : Group) (rank : Nat) : State :=
  let s := [g.members.getD rank 0, g.trailing.getD rank 0].foldl (fun s id =>
    modCore s id fun c => { c with diverged := true }) s
  modGroup s g.gid fun g => { g with pending := g.pending ++ [⟨10, 0, [rank], none⟩] }

/-- What a remote load of a core of a twin pair delivers, compared with what its partner's delivers (R141). -/
def noteTwinLoad (s : State) (core order : Nat) (items : List SigItem) : State :=
  match groupOn s core with
  | none => s
  | some g =>
    if g.twin = false then s
    else
      let rank := g.rankOf core
      match g.loads.find? fun l => l.rank == rank && l.order == order && l.core != core with
      | none => modGroup s g.gid fun g => { g with loads := ⟨rank, order, core, items⟩ :: g.loads }
      | some l =>
        let s := modGroup s g.gid fun g => { g with loads := g.loads.erase l }
        if l.items = items then s else twinDiverges s g rank

/-- The accesses of a core up to one in issue order, each load among them bound to what it finds: the core's own stores before it
stand in the columns they are for (R118). -/
def bindUpTo (s : State) (last : Nat) : List RemoteAccess → List RemoteAccess
  | [] => []
  | r :: rs =>
    if last < r.order then r :: rs
    else match r.op with
      | .store cs _ =>
        r :: bindUpTo (if r.early then s else cs.foldl (fun s c => storeRaw s (nearPA r.target c.1) c.2) s) last rs
      | .load a sw fl d => { r with bound := some (r.bound.getD (bindLoad s r.target a sw fl d)) } :: bindUpTo s last rs

/-- Before the accesses of a core's next bundle its acquires are bound, with the loads before them, but for those that a `drain`
holds: these do not start, and the own column is accessed at once (R122, R124; DESIGN CHOICE: log entry 7). -/
def bindAcquires (s : State) (core : Nat) : State :=
  match ((taskOf s core).remotes.filter fun r => r.acq && r.bound.isNone && !fenced s core r.issued).getLast? with
  | none => s
  | some r =>
    let s := standEarly s core r.issued
    modTask s core fun t => { t with remotes := bindUpTo (outside s core) r.order t.remotes }

/-- What a remote access is bound to. -/
def RemoteAccess.data (s : State) (core : Nat) (r : RemoteAccess) : Bound :=
  match r.op with
  | .load a sw fl d => r.bound.getD (bindLoad (outside s core) r.target a sw fl d)
  | .store _ _ => ⟨[], none, false⟩

/-- The effect of a remote access: a load's data become a result due at its cycle, a store's bytes are written (R71, R234). -/
def remoteEffect (s : State) (core : Nat) (r : RemoteAccess) : State :=
  match r.op with
  | .store cs w =>
    if r.early then s
    else cs.foldl (fun s c => store (dropVeils s (nearPA r.target c.1) c.2.length) w (nearPA r.target c.1) c.2) s
  | .load _ _ _ _ =>
    let b := r.data s core
    modTask s core fun t => { t with pend := t.pend ++ [⟨r.due, 3, r.order, b.latch, b.dsts, 0, b.bad⟩] }

/-- A remote access of a core removed from those that have not performed. -/
def dropRemote (s : State) (order core : Nat) : State :=
  modTask s core fun t => { t with remotes := t.remotes.filter fun x => x.order != order }

/-- A store that a leading core's trailing partner makes for the pair; it keeps its place among the leading core's accesses
(R118, R386). -/
def shadowed (s : State) (core : Nat) (r : RemoteAccess) : Bool :=
  match r.op with
  | .load _ _ _ _ => false
  | .store _ _ => match groupOn s core with
    | some g => g.twin && g.members.contains core
    | none => false

/-- A remote access performs: a store of a pair for both its cores, and a load is compared with its partner's (R71, R118, R141,
R234, R386). -/
def performRemote (s : State) (core : Nat) (r : RemoteAccess) : State :=
  let s := dropRequests s 7 (remoteOwner core r.order)
  match r.op with
  | .store _ _ => remoteEffect ((insiders s core).foldl (fun s id => dropRemote s r.order id) s) core r
  | .load _ _ _ _ =>
    let b := r.data s core
    noteTwinLoad (remoteEffect (dropRemote s r.order core) core r) core r.order
      (b.latch.toList.map Latched.item ++ b.dsts.map Dest.item)

/-- A load that has still to be bound waits for bytes that a core stored before it issued and that are still hidden (R124). -/
def loadHeld (s : State) (core : Nat) (r : RemoteAccess) : Bool :=
  match r.op, r.bound with
  | .load _ _ _ _, none =>
    let hs := (hiddenFrom s core).filter fun v => decide (v.stamp ≤ r.issued)
    !hs.isEmpty && r.op.rows.any fun a => hs.any fun v => v.pa / 16 == nearPA r.target a / 16
  | _, _ => false

/-- The oldest remote access of a core goes on: it asks the banks once no `drain` holds it, and performs when every request
is granted (R85, R118, R124). -/
def serveRemote (s : State) (core : Nat) : State :=
  match (taskOf s core).remotes with
  | [] => s
  | r :: _ =>
    if fenced s core r.issued || shadowed s core r then s
    else if r.asked = false then
      modTask { s with bankReqs := s.bankReqs ++ requestsAt r.target 7 (remoteOwner core r.order) r.op.rows } core fun t =>
        { t with remotes := t.remotes.map fun x => if x.order = r.order then { x with asked := true } else x }
    else if requestsStand s 7 (remoteOwner core r.order) || loadHeld s core r then s
    else performRemote s core r


/-! Tiles of a `rot` (R254). -/

/-- A tile lands: its bytes are written in the receiver's column and counted (R119, R254). -/
def landTile (s : State) (cluster : Nat) (t : Tile) : State :=
  let pa := nearPA t.target t.addr
  let s := storeTagged s t.writer pa t.bytes t.bad
  match t.bar with
  | some b => arrive s cluster b t.bytes.length
  | none => s

/-! Stopping and vectoring a group (R351 to R354), the suspension point (R29), and the return (R202). -/

/-- What a group that stops still waits for: the remote loads it has issued, with what stands before them, and the banks of its
tiles (R351 step 2); where its task ends, its remote stores too (R29, R354). -/
def drainsStill (s : State) (g : Group) : Bool :=
  g.all.any (fun id => (taskOf s id).remotes.any fun r => g.saveMode || r.op.isLoad)
    || g.tiles.any fun t => requestsStand s 5 t.id

/-- Everything in flight of a group that writes a register, a latch, a predicate, a pattern or a control register
completes, and so does a `rot` in flight, once its remote loads have performed and its tiles have their banks (R351 step 2;
`drainsStill`). -/
def drainGroup (s : State) (g : Group) : State :=
  let s := g.tiles.foldl (fun s t => landTile s g.cluster t) s
  let s := modGroup s g.gid fun g => { g with tiles := [] }
  g.all.foldl (fun s id => deliverCore s id ((taskOf s id).pend.foldl (fun m p => max m p.due) 0)) s

/-- A group has stopped for a cause, and what it has issued is still to complete (R351 steps 1 and 2). In save mode its task is to
end, and its matrix routines are cut off, so that nothing waits for them (R29, R354). -/
def stopGroup (s : State) (g : Group) (c : Cause) : State :=
  let cut (m : Matrix) : Matrix := { m with routine := none, waiting := none, drain := [], discard := false }
  let s := if g.saveMode then g.all.foldl (fun s id =>
      dropRequests (dropRequests (modCore s id fun x => { x with mx := cut x.mx }) 1 id) 2 id) s else s
  modGroup s g.gid fun g => { g with stopping := some c }

/-- Latches and pattern memory read zero (R17, R288, R351 step 3). -/
def Task.clearLatches (t : Task) : Task :=
  { t with latches := Latches.zero, patterns := List.replicate 8 (List.replicate 32 0) }

/-- TCAUSE as a rank records it (R348, R350). -/
def causeWord (c : Cause) (rank : Nat) : Word :=
  BitVec.ofNat 32 ((c.ranks.contains rank).toNat * 2 ^ 31 + c.ranks.foldl min (c.ranks.headD 0) % 64 * 2 ^ 24
    + c.code * 2 ^ 16 + c.detail % 65536)

/-- The rank a cause is taken from: the lowest on which it arose (R350). -/
def Cause.origin (c : Cause) : Nat := c.ranks.foldl min (c.ranks.headD 0)

/-- The bundle address TPC takes: the cause's own, or the origin's bundle at the boundary; bits 1 and 0 are zero (R348,
R349), those of a target that is no bundle address too (DEDUCED: log entry 76). -/
def causePC (s : State) (g : Group) (c : Cause) : Word :=
  match c.tpc with
  | some a => a
  | none => (taskOf s (g.members.getD c.origin 0)).pc &&& 0xFFFFFFFC

/-- The frond of a group in its sorus. -/
def frondOf (s : State) (g : Group) : Option Frond :=
  (sorusOf s g.cluster).fronds.find? fun f => f.ptr == g.frond && f.space == g.space

/-- The contexts of a group's cores are discarded, and the group is gone (R29). A routine or a drain that still stands is
cut off with them, and the bank requests of both are taken back. -/
def discardGroup (s : State) (g : Group) : State :=
  let gone (r : BankRequest) : Bool :=
    (decide (r.cls ≤ 2) && g.all.contains r.owner) || (r.cls == 7 && g.all.contains (r.owner % 8192))
      || (r.cls == 5 && g.tiles.any fun t => t.id == r.owner)
  let s := { s with bankReqs := s.bankReqs.filter (fun r => !gone r), offers := s.offers.filter fun o => o.gid != g.gid }
  let s := g.all.foldl (fun s id => modCore s id fun c =>
    { c with task := Task.initial,
             mx := { c.mx with routine := none, waiting := none, drain := [], discard := false } }) s
  dropGroup s g.gid

/-- An egress entry of a frond's regions no longer waits for one to close. -/
def Egress.leaveRegion (frond : Nat) (e : Egress) : Egress :=
  if e.region.map Prod.fst = some frond then { e with region := none } else e

/-- The region logs of a frond are dropped, and its egress entries no longer wait for a region to close: its task has
ended. -/
def freeRegions (s : State) (frond : Nat) : State :=
  { s with dom := { s.dom with
             regionLog := s.dom.regionLog.filter fun e => e.frond != frond,
             entangled := s.dom.entangled.filter fun e => e.1 != frond },
           dies := s.dies.map fun d => { d with egress := d.egress.map (Egress.leaveRegion frond) } }

/-- A frond is retired: word 12, the sorus, its launch (R194, R329). -/
def retireFrond (s : State) (cluster : Nat) (f : Frond) : State :=
  match setFrondWord s cluster f.space f.ptr 12 (statusWord 4 f.faulted f.lastSusp f.cause 0) with
  | none => dropFrond s cluster f
  | some s => retireLaunch (removeFrond s cluster f.ptr f.space) cluster f.launch f.ptr

/-- The record of a suspension point: its sorus makes it, with no bundle address and no counter (R409; DEDUCED, log entry 75). -/
def traceSuspension (s : State) (g : Group) (how cause : Nat) : State :=
  trace s (leaderOf g.cluster) 2 0 0 (g.frond + how * 2 ^ 32 + cause * 2 ^ 40)

/-- The task ends at once without vectoring, its frond retired with last suspension 3 and the cause (R354). -/
def cutOff (s : State) (g : Group) (code : Nat) : State :=
  let s := traceSuspension s g 3 code
  let f := frondOf s g
  let s := freeRegions (discardGroup s g) g.frond
  match f with
  | some f => retireFrond s g.cluster { f with lastSusp := 3, cause := code }
  | none => s

/-- A stretch of save mode of a group has used its 2,048 bundles, and the task is to be cut off (R355). -/
def stretchUsed (g : Group) : Bool := decide (2048 ≤ g.saveCount)

/-- A call that the unit has not accepted waits on, and holds the group no more: a cause ends the pause (R320, R351; DESIGN CHOICE:
log entry 38). -/
def Core.letCallWait (c : Core) : Core :=
  { c with mx := { c.mx with waiting := c.mx.waiting.map fun x => { x with pauses := false } } }

/-- Taking an exception, the one way into a save routine (R351): the exposed pipeline drains, latches and patterns clear,
TCAUSE and TPC are written, k14 and k15 take the frond and its spill pointer, the mode becomes privileged save mode,
the counter is zero, and every member goes to TVEC. In save mode the task is cut off instead (R354). The cause taken no longer
waits; a cause taken at issue, which has a bundle address of its own, never did (R350). A call that its unit has not accepted
keeps waiting (R320). -/
def vector (s : State) (g : Group) (c : Cause) : State :=
  let tpc := causePC s g c
  let s := drainGroup s g
  if g.saveMode then cutOff s g c.code
  else
    let s := trace s (g.members.headD 0) 3 tpc g.counter ((causeWord c 0).toNat + tpc.toNat * 2 ^ 32)
    let s := modSorus s g.cluster fun so => { so with fronds := so.fronds.map fun f =>
      if f.ptr = g.frond ∧ f.space = g.space then { f with cause := c.code } else f }
    let s := g.all.foldl (fun s id => modTask s id fun t =>
      { t.clearLatches with
        tcause := causeWord c (g.rankOf id), tpc := tpc,
        k := (t.k.set 14 (BitVec.ofNat 32 g.frond)).set 15 g.spill,
        pc := t.tvec }) s
    let s := g.all.foldl (fun s id => modCore s id Core.letCallWait) s
    modGroup s g.gid fun g => { g with
      saveMode := true, trailingSave := false, saveCount := if stretchUsed g then g.saveCount else 0, counter := 0,
      lastCause := c.code, stopping := none, pauseCode := 0,
      lichenHold := false, lichenCores := [], signatures := [], loads := [], tiles := [],
      pending := g.pending.filter fun p => !(c.tpc.isNone && p.code == c.code) }
where
  /-- The tier of a pending cause (R350): 1 consumed errors, 3 over-arrival and routine faults, 4 debug, 5 watchdog, 6
  pre-emption. -/
  tierOf (code : Nat) : Nat :=
    match code with
    | 9 | 10 | 11 => 1
    | 14 => 4
    | 13 => 5
    | 12 => 6
    | _ => 3

/-- What stops a bundle at issue: its place in the order of R350, the slot, and the cause it gives. -/
structure Stop where
  tier : Nat
  slot : Nat
  code : Nat
  detail : Nat
  tpc : Option Word
deriving DecidableEq, Repr

/-- An illegal bundle, a privileged operation, a queue underflow, and the value checks, in the order of R350. -/
def Stop.illegal (slot : Nat) : Stop := ⟨1, slot, 1, 0, none⟩
def Stop.privilege (slot : Nat) : Stop := ⟨2, slot, 2, 0, none⟩
def Stop.misaligned (slot : Nat) : Stop := ⟨4, slot, 1, 0, none⟩
def Stop.layerAbsent (slot : Nat) : Stop := ⟨4, slot, 7, 0, none⟩
def Stop.overlap (slot : Nat) : Stop := ⟨5, slot, 8, 0, none⟩
def Stop.overflow (slot q : Nat) : Stop := ⟨6, slot, 5, q, none⟩
def Stop.software (slot code : Nat) : Stop := ⟨7, slot, 15, code, none⟩

/-- The lichen context of a core meets a trap cause: its fault service has it (R362). -/
def lichenFault (s : State) (id : Nat) : State :=
  if Config.faultCleared id s.now then modCore s id fun c => { c with lichen := { c.lichen with inFault := true } }
  else securityAlarm (modCore s id fun c => { c with lichen := { c.lichen with inFault := true } }) 4

/-- The exception a single operation takes at issue, on the issuing member, once what its group waits for has completed (R145,
R146, R351, R362). -/
def stopAtIssue (s : State) (st : Stop) : State :=
  if s.cur.lichen then lichenFault s s.cur.core
  else match curGroup s with
    | some g =>
      let c : Cause := ⟨st.code, st.detail, [g.rankOf s.cur.core], some (st.tpc.getD s.cur.pc)⟩
      if drainsStill s g then stopGroup s g c else vector s g c
    | none => s

/-- The return from an exception when the task continues: save mode ends and the members go on; the trailing cores of a
twin pair leave it when they issue their own return (R202, R384). -/
def leaveSaveMode (s : State) (gid core : Nat) : State :=
  modGroup s gid fun g =>
    if g.trailing.contains core then { g with trailingSave := false }
    else { g with saveMode := false, trailingSave := g.twin, limitTicks := 0, lastCause := 0 }

end Sys2Proof.Machine
end

