-- ==== Sys2Proof/Machine/Flags.lean ====
section
/-! DEFINITION. The sticky flags: their places in STATUS and in a command's status word, and how an operation raises
them (R55, R246, R346). A set of the five floating-point flags is a number of five bits, laid out as STATUS[4:0]. -/

namespace Sys2Proof.Machine

open Sys2Proof

/-- The floating-point flags by their places in STATUS (R346). -/
def flagNV : Nat := 16
def flagDZ : Nat := 8
def flagOF : Nat := 4
def flagUF : Nat := 2
def flagNX : Nat := 1

/-- STATUS.SF, MC and MB (R346). -/
def flagSF : Word := 0x80
def flagMC : Word := 0x100
def flagMB : Word := 0x200

/-- Two sets of flags together. -/
def orFlags (a b : Nat) : Nat := Nat.lor a b

/-- Sets of flags joined. -/
def joinFlags (l : List Nat) : Nat := l.foldl orFlags 0

/-- A set of flags as the sticky bits of STATUS (R55). -/
def stickyFlags (f : Nat) : Word := BitVec.ofNat 32 (f % 32)

/-- A sticky flag of a core set at once (R8). -/
def setSticky (s : State) (core : Nat) (f : Word) : State := modTask s core fun t => { t with status := t.status ||| f }

end Sys2Proof.Machine
end

