-- ==== Sys2Proof/Machine/Series.lean ====
section
/-! DEFINITION. The exact results of the special functions, approximated far below one unit in the last place of fp32: fixed
point with 512 fraction bits (R271; log entry 9). -/

namespace Sys2Proof.Machine

open Sys2Proof

/-- One, in fixed point. -/
def fixOne : Nat := 2 ^ 512

/-- The sum of a power series from its first term: each term is the one before, times `num` and divided by `den i`; `step`
terms are left, `i` counts them, and the sign alternates where `alt` says so. -/
def seriesSum (num : Nat) (den : Nat → Nat) (alt : Bool) : Nat → Nat → Nat → Int
  | 0, _, _ => 0
  | fuel + 1, i, term =>
    (term : Int) + (if alt then -1 else 1) * seriesSum num den alt fuel (i + 1) (term * num / fixOne / den i)

/-- The sum of odd powers of `z` over their exponents: the series of the inverse tangents. -/
def oddSum (z2 : Nat) (alt : Bool) : Nat → Nat → Nat → Int
  | 0, _, _ => 0
  | fuel + 1, i, p =>
    (p / (2 * i + 1) : Nat) + (if alt then -1 else 1) * oddSum z2 alt fuel (i + 1) (p * z2 / fixOne)

/-- The natural logarithm of 2: twice the hyperbolic inverse tangent of 1/3. -/
def fixLn2 : Nat := (2 * oddSum (fixOne / 9) false 170 0 (fixOne / 3)).toNat

/-- π: 16 arctan 1/5 − 4 arctan 1/239. -/
def fixPi : Nat :=
  (16 * oddSum (fixOne / 25) true 120 0 (fixOne / 5) - 4 * oddSum (fixOne / 57121) true 40 0 (fixOne / 239)).toNat

/-- e to the x, for 0 ≤ x < 1. -/
def fixExp (x : Nat) : Nat := (seriesSum x (fun i => i + 1) false 110 0 fixOne).toNat

/-- 2 to the x for any x of at most 11 integer bits, in fixed point with 512 fraction bits. -/
def fixExp2 (x : Int) : Nat :=
  let k := x / (fixOne : Int)
  let f := (x % (fixOne : Int)).toNat
  let y := fixExp (f * fixLn2 / fixOne)
  if 0 ≤ k then y * 2 ^ k.toNat else y / 2 ^ (-k).toNat

/-- log2 of m × 2 to the e, m positive. -/
def fixLog2 (m : Nat) (e : Int) : Int :=
  let k := Nat.log2 m
  let x := m * fixOne / 2 ^ k
  let z := (x - fixOne) * fixOne / (x + fixOne)
  (k + e) * fixOne + 2 * oddSum (z * z / fixOne) false 170 0 z * fixOne / fixLn2

/-- Sine and cosine of an angle between 0 and π/2. -/
def fixSin (x : Nat) : Int := seriesSum (x * x / fixOne) (fun i => (2 * i + 2) * (2 * i + 3)) true 70 0 x
def fixCos (x : Nat) : Int := seriesSum (x * x / fixOne) (fun i => (2 * i + 1) * (2 * i + 2)) true 70 0 fixOne

/-- Sine of any angle, and of the angle a quarter turn on when `turn` is 1. -/
def fixSine (x : Int) (turn : Int) : Int :=
  let half : Int := fixPi / 2
  let n := x / half
  let r := (x - n * half).toNat
  match ((n + turn) % 4).toNat with
  | 0 => fixSin r
  | 1 => fixCos r
  | 2 => -fixSin r
  | _ => -fixCos r

/-- e to the x by way of 2 to the x / ln 2. -/
def fixExpAny (x : Int) : Nat := fixExp2 (x * fixOne / fixLn2)

/-- The hyperbolic tangent; beyond 64 it lies below 1 by far less than a unit in the last place. -/
def fixTanh (x : Int) : Int :=
  if 64 * (fixOne : Int) ≤ x then fixOne - 1
  else if x ≤ -64 * (fixOne : Int) then 1 - fixOne
  else
    let y : Int := fixExpAny (2 * x)
    (y - fixOne) * fixOne / (y + fixOne)

/-- The logistic function; beyond 300 it lies within far less than a unit in the last place of 0, or below 1. -/
def fixSigm (x : Int) : Int :=
  if 300 * (fixOne : Int) ≤ x then fixOne - 1
  else if x ≤ -300 * (fixOne : Int) then 0
  else (fixOne * fixOne : Int) / (fixOne + fixExpAny (-x))

end Sys2Proof.Machine
end

