-- ==== Sys2Proof/Machine/Float.lean ====
section
/-! DEFINITION. Values of element formats and exact arithmetic on them: decoding, rounding, the element-wise operations
of classes I, Z and raw, conversions, and the block formats (R39 to R60, R266 to R273). A finite value is held exactly as a
sign, a quotient of naturals, and a power of two. -/

namespace Sys2Proof.Machine

open Sys2Proof

/-- A decoded element. A NaN keeps its sign and its fraction; `sig` says that it is signalling. -/
inductive Val where
  | absent
  | nan (neg : Bool) (frac : Nat) (sig : Bool)
  | inf (neg : Bool)
  | real (neg : Bool) (num den : Nat) (exp : Int)
deriving DecidableEq, Repr

/-- The rounding modes by their codes (R51, R64). -/
inductive Rounding where
  | rne | rtz | rup | rdn
deriving DecidableEq, Repr

/-- The mode of a code (R64). -/
def Rounding.ofCode : Nat → Rounding
  | 0 => .rne
  | 1 => .rtz
  | 2 => .rup
  | _ => .rdn

/-- What an operation rounds by: mode and flush control (R51, R52, R265). -/
structure Env where
  mode : Rounding
  fz : Bool
deriving DecidableEq, Repr

/-- The environment of engines and of the solver: RNE, no flush (R59, R398). -/
def Env.plain : Env := ⟨.rne, false⟩

/-- The environment FMT gives (R64). -/
def Env.ofFmt (fmt : Word) : Env := ⟨Rounding.ofCode (bits fmt 24 2), fmt.getLsbD 26⟩

/-- The exponent bits of an IEEE format (R40). -/
def Format.expBits : Format → Nat
  | .fp16 => 5
  | _ => 8

/-- The fraction bits of an IEEE format (R40). -/
def Format.fracBits : Format → Nat
  | .fp32 => 23
  | .fp16 => 10
  | _ => 7

/-- The exponent bias (R40). -/
def Format.bias (f : Format) : Nat := 2 ^ (Format.expBits f - 1) - 1

/-- The absent code of a format that has one (R39). -/
def Format.absentCode (f : Format) : Nat :=
  if f.isFloat then 2 ^ f.width - 1 else 2 ^ (f.width - 1)

/-- The canonical NaN (R39). -/
def Format.canonical (f : Format) : Nat :=
  (2 ^ Format.expBits f - 1) * 2 ^ Format.fracBits f + 2 ^ (Format.fracBits f - 1)

/-- An element equals its format's absent code; raw formats have none (R8, R42). -/
def isAbsent (f : Format) (x : Nat) : Bool := f.hasAbsent && x == Format.absentCode f

/-- An IEEE pattern decoded; with `fz` a subnormal reads as zero of its sign (R40, R52). -/
def decodeFloat (f : Format) (fz : Bool) (x : Nat) : Val :=
  let fb := Format.fracBits f
  let neg := x.testBit (f.width - 1)
  let e := field x fb (Format.expBits f)
  let m := field x 0 fb
  if x = Format.absentCode f then .absent
  else if e = 2 ^ Format.expBits f - 1 then
    if m = 0 then .inf neg else .nan neg m (!m.testBit (fb - 1))
  else if e = 0 then
    if fz then .real neg 0 1 0 else .real neg m 1 (1 - (Format.bias f : Int) - fb)
  else .real neg (m + 2 ^ fb) 1 ((e : Int) - Format.bias f - fb)

/-- The integer value of a pattern of width `w` (R41). -/
def signedOf (w x : Nat) : Int := sextNat x w

/-- A pattern decoded under its format; a block format has no element patterns of its own (R47). -/
def decodeVal (f : Format) (fz : Bool) (x : Nat) : Val :=
  if f.isFloat then decodeFloat f fz x
  else if f.isInt then
    if x = Format.absentCode f then .absent
    else .real (decide (signedOf f.width x < 0)) (signedOf f.width x).natAbs 1 0
  else .real false x 1 0

/-- A non-zero quotient times a power of two, against 2 to an exponent: the integer part and what is left over, as
remainder and divisor. -/
def scaled (num den : Nat) (exp q : Int) : Nat × Nat × Nat :=
  let d := exp - q
  let n := if 0 ≤ d then num * 2 ^ d.toNat else num
  let m := if 0 ≤ d then den else den * 2 ^ (-d).toNat
  (n / m, n % m, m)

/-- The exponent of the leading bit: the largest E with 2 to the E at most the value. -/
def leadExp (num den : Nat) (exp : Int) : Int :=
  let k : Int := (Nat.log2 num : Int) - Nat.log2 den
  let (a, b) := if 0 ≤ k then (num, den * 2 ^ k.toNat) else (num * 2 ^ (-k).toNat, den)
  (if a < b then k - 1 else k) + exp

/-- An integer part rounded by what is left over (R51). -/
def roundInt (mode : Rounding) (neg : Bool) (q r m : Nat) : Nat :=
  if r = 0 then q
  else match mode with
    | .rne => if 2 * r < m then q else if 2 * r > m then q + 1 else q + q % 2
    | .rtz => q
    | .rup => if neg then q else q + 1
    | .rdn => if neg then q + 1 else q

/-- A real value rounded to an IEEE format: the pattern and the flags (R51, R52). -/
def roundReal (f : Format) (env : Env) (neg : Bool) (num den : Nat) (exp : Int) : Nat × Nat :=
  let fb := Format.fracBits f
  let top := neg.toNat * 2 ^ (f.width - 1)
  if num = 0 then (top, 0)
  else
    let emin : Int := 1 - Format.bias f
    let q := max (leadExp num den exp) emin - fb
    let (a, r, m) := scaled num den exp q
    let a := roundInt env.mode neg a r m
    let pat := ((q + fb + Format.bias f - 1) * 2 ^ fb).toNat + a
    let infPat := (2 ^ Format.expBits f - 1) * 2 ^ fb
    let nx := if r = 0 then 0 else flagNX
    if infPat ≤ pat then
      let away := match env.mode with
        | .rne => true
        | .rtz => false
        | .rup => !neg
        | .rdn => neg
      (top + (if away then infPat else infPat - 1), orFlags flagOF flagNX)
    else if pat < 2 ^ fb then
      if env.fz && pat != 0 then (top, orFlags flagUF flagNX)
      else (top + pat, if r = 0 then 0 else orFlags flagUF nx)
    else (top + pat, nx)

/-- A NaN quieted into a format, never the absent code (R43, R53, R56): the high fraction bits that fit are kept. -/
def quietNaN (f : Format) (srcBits : Nat) (neg : Bool) (frac : Nat) : Nat :=
  let fb := Format.fracBits f
  let kept := if fb ≤ srcBits then frac / 2 ^ (srcBits - fb) else frac * 2 ^ (fb - srcBits)
  let m := if kept.testBit (fb - 1) then kept else kept + 2 ^ (fb - 1)
  let p := neg.toNat * 2 ^ (f.width - 1) + (2 ^ Format.expBits f - 1) * 2 ^ fb + m
  if p = Format.absentCode f then Format.canonical f else p

/-- A value encoded into an IEEE format; NaN fractions come from a format of `srcBits` fraction bits (R8, R56). -/
def encodeFloat (f : Format) (env : Env) (srcBits : Nat) : Val → Nat × Nat
  | .absent => (Format.absentCode f, 0)
  | .nan neg frac sig => (quietNaN f srcBits neg frac, if sig then flagNV else 0)
  | .inf neg => (neg.toNat * 2 ^ (f.width - 1) + (2 ^ Format.expBits f - 1) * 2 ^ Format.fracBits f, 0)
  | .real neg num den exp => roundReal f env neg num den exp

/-- An integer saturated to the symmetric range of a width (R41). -/
def saturate (w : Nat) (x : Int) : Int := max (-(2 ^ (w - 1) - 1)) (min (2 ^ (w - 1) - 1) x)

/-- An integer as a pattern of a width. -/
def patternOf (w : Nat) (x : Int) : Nat := (x % 2 ^ w).toNat

/-- A value rounded and saturated into an integer format from an IEEE or block source (R56). -/
def encodeInt (f : Format) (mode : Rounding) : Val → Nat × Nat
  | .absent => (Format.absentCode f, 0)
  | .nan _ _ _ => (Format.absentCode f, flagNV)
  | .inf neg => (patternOf f.width (saturate f.width (if neg then -(2 ^ 40) else 2 ^ 40)), flagNV)
  | .real neg num den exp =>
    let (a, r, m) := scaled num den exp 0
    let x : Int := (if neg then -1 else 1) * (roundInt mode neg a r m : Nat)
    let y := saturate f.width x
    (patternOf f.width y, if y ≠ x then flagNV else if r = 0 then 0 else flagNX)

/-! Arithmetic on present finite values. -/

/-- A finite value as a signed integer times a power of two, where its divisor is 1. -/
def toInt (neg : Bool) (num : Nat) : Int := if neg then -(num : Int) else num

/-- The exact sum of two values with divisor 1: zero takes the sign IEEE 754 gives it (R51). -/
def addReal (mode : Rounding) (n1 : Bool) (m1 : Nat) (e1 : Int) (n2 : Bool) (m2 : Nat) (e2 : Int) : Val :=
  let e := min e1 e2
  let x := toInt n1 (m1 * 2 ^ (e1 - e).toNat) + toInt n2 (m2 * 2 ^ (e2 - e).toNat)
  if x = 0 then .real (if n1 = n2 then n1 else mode == .rdn) 0 1 0
  else .real (decide (x < 0)) x.natAbs 1 e

/-- The flags signalling NaN operands raise (R53). -/
def signalling : List Val → Nat
  | [] => 0
  | .nan _ _ true :: _ => flagNV
  | _ :: rest => signalling rest

/-- The first NaN of the operands (R53). -/
def firstNaN : List Val → Option (Bool × Nat)
  | [] => none
  | .nan neg frac _ :: _ => some (neg, frac)
  | _ :: rest => firstNaN rest

/-- The negation of a value. -/
def Val.neg : Val → Val
  | .absent => .absent
  | .nan n f s => .nan (!n) f s
  | .inf n => .inf (!n)
  | .real n a b e => .real (!n) a b e

/-- The exact sum of two values that are not NaN: none where it is not defined (R53). -/
def addVal (mode : Rounding) : Val → Val → Option Val
  | .inf a, .inf b => if a = b then some (.inf a) else none
  | .inf a, _ => some (.inf a)
  | _, .inf b => some (.inf b)
  | .real n1 m1 _ e1, .real n2 m2 _ e2 => some (addReal mode n1 m1 e1 n2 m2 e2)
  | _, _ => none

/-- The exact product of two values that are not NaN. -/
def mulVal : Val → Val → Option Val
  | .inf a, .inf b => some (.inf (a != b))
  | .inf a, .real n m _ _ => if m = 0 then none else some (.inf (a != n))
  | .real n m _ _, .inf b => if m = 0 then none else some (.inf (n != b))
  | .real n1 m1 _ e1, .real n2 m2 _ e2 => some (.real (n1 != n2) (m1 * m2) 1 (e1 + e2))
  | _, _ => none

/-- The exact quotient of two values that are not NaN, and whether it divides by zero (R269). -/
def divVal : Val → Val → Option (Val × Nat)
  | .inf _, .inf _ => none
  | .inf a, .real n _ _ _ => some (.inf (a != n), 0)
  | .real n _ _ _, .inf b => some (.real (n != b) 0 1 0, 0)
  | .real n1 m1 _ e1, .real n2 m2 _ e2 =>
    if m2 = 0 then (if m1 = 0 then none else some (.inf (n1 != n2), flagDZ))
    else some (.real (n1 != n2) m1 m2 (e1 - e2), 0)
  | _, _ => none

/-- An operation's answer encoded, or the canonical NaN with invalid where it has none. -/
def deliverVal (f : Format) (env : Env) : Option Val → Nat × Nat
  | some v => encodeFloat f env (Format.fracBits f) v
  | none => (Format.canonical f, flagNV)

/-- An operation on operands of an IEEE format: NaN operands first (R53), then the operation. -/
def ieeeOp (f : Format) (vs : List Val) (op : Unit → Nat × Nat) : Nat × Nat :=
  match firstNaN vs with
  | some (neg, frac) => (quietNaN f (Format.fracBits f) neg frac, signalling vs)
  | none => op ()

/-- a + b in class I (R44, R267). -/
def floatAdd (f : Format) (env : Env) (a b : Nat) : Nat × Nat :=
  match isAbsent f a, isAbsent f b with
  | true, _ => (b, 0)
  | _, true => (a, 0)
  | false, false =>
    let x := decodeFloat f env.fz a
    let y := decodeFloat f env.fz b
    ieeeOp f [x, y] fun _ => deliverVal f env (addVal env.mode x y)

/-- The sign bit of a pattern changed, the absent code becoming the canonical NaN (R43, R270). -/
def withSign (f : Format) (x : Nat) (neg : Bool) : Nat :=
  let p := x % 2 ^ (f.width - 1) + neg.toNat * 2 ^ (f.width - 1)
  if p = Format.absentCode f then Format.canonical f else p

/-- The sign bit of a pattern. -/
def signBit (f : Format) (x : Nat) : Bool := x.testBit (f.width - 1)

/-- A subnormal input under FZ as the zero of its sign (R52). -/
def flushInput (f : Format) (env : Env) (x : Nat) : Nat :=
  match decodeFloat f env.fz x with
  | .real n 0 _ _ => n.toNat * 2 ^ (f.width - 1)
  | _ => x

/-- An operand that survives an absent one with its sign flipped: under FZ a subnormal is read as zero first, where the spec
says no more than that the sign flips (R44, R52; DESIGN CHOICE, unsafe: log entry 74). -/
def negated (f : Format) (env : Env) (x : Nat) : Nat :=
  let x := flushInput f env x
  withSign f x (!signBit f x)

/-- a − b in class I (R44, R267). -/
def floatSub (f : Format) (env : Env) (a b : Nat) : Nat × Nat :=
  match isAbsent f a, isAbsent f b with
  | true, true => (a, 0)
  | true, false => (negated f env b, 0)
  | false, true => (a, 0)
  | false, false =>
    let x := decodeFloat f env.fz a
    let y := decodeFloat f env.fz b
    ieeeOp f [x, y] fun _ => deliverVal f env (addVal env.mode x y.neg)

/-- a × b in class I (R44, R267). -/
def floatMul (f : Format) (env : Env) (a b : Nat) : Nat × Nat :=
  match isAbsent f a, isAbsent f b with
  | true, _ => (b, 0)
  | _, true => (a, 0)
  | false, false =>
    let x := decodeFloat f env.fz a
    let y := decodeFloat f env.fz b
    ieeeOp f [x, y] fun _ => deliverVal f env (mulVal x y)

/-- a × b + c with one rounding (R44, R54, R267); `na` and `nc` negate a and c. A NaN that is negated propagates with its sign
flipped, that of `vfms` its c and that of `vfnma` its a (DESIGN CHOICE, unsafe: log entry 93). -/
def floatFma (f : Format) (env : Env) (na nc : Bool) (a b c : Nat) : Nat × Nat :=
  let flip (n : Bool) (x : Nat) : Nat := if n && !isAbsent f x then withSign f x (!signBit f x) else x
  if isAbsent f a || isAbsent f b then (if nc && !isAbsent f c then negated f env c else c, 0)
  else
    let x := decodeFloat f env.fz (flip na a)
    let y := decodeFloat f env.fz b
    if isAbsent f c then ieeeOp f [x, y] fun _ => deliverVal f env (mulVal x y)
    else
      let z := decodeFloat f env.fz (flip nc c)
      match firstNaN [x, y], z, mulVal x y with
      | none, .nan neg frac _, none => (quietNaN f (Format.fracBits f) neg frac, flagNV)
      | _, _, _ => ieeeOp f [x, y, z] fun _ =>
        match mulVal x y with
        | some p => deliverVal f env (addVal env.mode p z)
        | none => (Format.canonical f, flagNV)

/-- a / b in class I (R44, R269). -/
def floatDiv (f : Format) (env : Env) (a b : Nat) : Nat × Nat :=
  if isAbsent f a || isAbsent f b then (Format.absentCode f, 0)
  else
    let x := decodeFloat f env.fz a
    let y := decodeFloat f env.fz b
    ieeeOp f [x, y] fun _ =>
      match divVal x y with
      | some (v, fl) => let r := encodeFloat f env 0 v; (r.1, orFlags r.2 fl)
      | none => (Format.canonical f, flagNV)

/-- The value as a fraction times a power of two is less than another's (R267): both not NaN. -/
def ltVal : Val → Val → Bool
  | .inf a, .inf b => a && !b
  | .inf a, _ => a
  | _, .inf b => !b
  | .real n1 m1 _ e1, .real n2 m2 _ e2 =>
    let e := min e1 e2
    decide (toInt n1 (m1 * 2 ^ (e1 - e).toNat) < toInt n2 (m2 * 2 ^ (e2 - e).toNat))
  | _, _ => false

/-- Two values are equal as numbers; the zeros are equal. -/
def eqVal (a b : Val) : Bool := !ltVal a b && !ltVal b a

/-- The sign of a value. -/
def Val.isNeg : Val → Bool
  | .real n _ _ _ => n
  | .inf n => n
  | .nan n _ _ => n
  | .absent => false

/-- The smaller (or larger) of two elements of class I, −0 below +0 (R44, R53, R267). -/
def floatMinMax (f : Format) (env : Env) (larger : Bool) (a b : Nat) : Nat × Nat :=
  match isAbsent f a, isAbsent f b with
  | true, _ => (b, 0)
  | _, true => (a, 0)
  | false, false =>
    let x := decodeFloat f env.fz a
    let y := decodeFloat f env.fz b
    let fl := signalling [x, y]
    let out (v : Val) : Nat := (encodeFloat f Env.plain (Format.fracBits f) v).1
    match x, y with
    | .nan n m _, .nan _ _ _ => (quietNaN f (Format.fracBits f) n m, fl)
    | .nan _ _ _, _ => (out y, fl)
    | _, .nan _ _ _ => (out x, fl)
    | _, _ =>
      let less := ltVal x y || (eqVal x y && x.isNeg && !y.isNeg)
      (out (if less != larger then x else y), fl)

/-- The integer square root by bits, from the highest of `n`. -/
def isqrt (x : Nat) : Nat → Nat → Nat
  | 0, r => r
  | n + 1, r => let c := r + 2 ^ n; isqrt x n (if c * c ≤ x then c else r)

/-- √a correctly rounded (R267). The root is taken to enough bits, with a last bit that says whether it is exact. -/
def floatSqrt (f : Format) (env : Env) (a : Nat) : Nat × Nat :=
  if isAbsent f a then (a, 0)
  else
    let x := decodeFloat f env.fz a
    ieeeOp f [x] fun _ =>
      match x with
      | .inf false => encodeFloat f env 0 x
      | .real n m _ e =>
        if m = 0 then encodeFloat f env 0 x
        else if n then (Format.canonical f, flagNV)
        else
          let (m, e) := if e % 2 = 0 then (m, e) else (2 * m, e - 1)
          let w := m * 2 ^ 64
          let r := isqrt w 60 0
          let exact := r * r == w
          roundReal f env false (2 * r + (!exact).toNat) 1 ((e - 64) / 2 - 1)
      | _ => (Format.canonical f, flagNV)

/-- 1 / a (R267, R269). -/
def floatRcp (f : Format) (env : Env) (a : Nat) : Nat × Nat :=
  if isAbsent f a then (a, 0)
  else
    let x := decodeFloat f env.fz a
    ieeeOp f [x] fun _ =>
      match divVal (.real false 1 1 0) x with
      | some (v, fl) => let r := encodeFloat f env 0 v; (r.1, orFlags r.2 fl)
      | none => (Format.canonical f, flagNV)

/-- a × 2 to the m with one rounding; `b` holds m (R267). -/
def floatScale (f : Format) (env : Env) (a b : Nat) : Nat × Nat :=
  if isAbsent f a || b == 2 ^ (f.width - 1) then (a, 0)
  else
    let x := decodeFloat f env.fz a
    ieeeOp f [x] fun _ =>
      match x with
      | .real n m d e => roundReal f env n m d (e + signedOf f.width b)
      | v => encodeFloat f env 0 v

/-- Rounded to an integral value in its own format; no flag but invalid (R272). -/
def floatIntegral (f : Format) (env : Env) (mode : Rounding) (a : Nat) : Nat × Nat :=
  if isAbsent f a then (a, 0)
  else
    let x := decodeFloat f env.fz a
    ieeeOp f [x] fun _ =>
      match x with
      | .real n num d e =>
        let (q, r, m) := scaled num d e 0
        ((encodeFloat f Env.plain 0 (.real n (roundInt mode n q r m) 1 0)).1, 0)
      | v => encodeFloat f env 0 v

/-! Class Z and raw (R41, R46, R266, R267, R269). -/

/-- An operation of two present integers, saturated; an absent operand leaves the other (R44, R46). -/
def intBin (f : Format) (op : Int → Int → Int) (a b : Nat) : Nat × Nat :=
  if isAbsent f a then (b, 0)
  else if isAbsent f b then (a, 0)
  else (patternOf f.width (saturate f.width (op (signedOf f.width a) (signedOf f.width b))), 0)

/-- a − b in class Z: an absent a gives −b (R44, R46). -/
def intSub (f : Format) (a b : Nat) : Nat × Nat :=
  if isAbsent f a then (if isAbsent f b then a else patternOf f.width (saturate f.width (-signedOf f.width b)), 0)
  else if isAbsent f b then (a, 0)
  else (patternOf f.width (saturate f.width (signedOf f.width a - signedOf f.width b)), 0)

/-- Division of class Z (R46, R269). -/
def intDiv (f : Format) (a b : Nat) : Nat × Nat :=
  if isAbsent f a || isAbsent f b then (Format.absentCode f, 0)
  else
    let x := signedOf f.width a
    let y := signedOf f.width b
    if y = 0 then
      (patternOf f.width (if x > 0 then 2 ^ (f.width - 1) - 1 else if x < 0 then -(2 ^ (f.width - 1) - 1) else 0), flagDZ)
    else (patternOf f.width (saturate f.width (x.tdiv y)), 0)

/-- a × b + c of class Z, with the signs of vfms and vfnma (R44, R46, R267). -/
def intFma (f : Format) (na nc : Bool) (a b c : Nat) : Nat × Nat :=
  let sg (n : Bool) (x : Nat) : Int := if n then -signedOf f.width x else signedOf f.width x
  if isAbsent f a || isAbsent f b then
    (if isAbsent f c then c else patternOf f.width (saturate f.width (sg nc c)), 0)
  else
    let p := sg na a * signedOf f.width b
    (patternOf f.width (saturate f.width (if isAbsent f c then p else p + sg nc c)), 0)

/-- The element operations of two sources that several classes share. -/
inductive BinOp where
  | add | sub | mul | min | max | div
deriving DecidableEq, Repr

/-- A binary element operation in the class of its format (R266, R267). -/
def elemBin (op : BinOp) (f : Format) (env : Env) (a b : Nat) : Nat × Nat :=
  let w := f.width
  if f.isFloat then match op with
    | .add => floatAdd f env a b
    | .sub => floatSub f env a b
    | .mul => floatMul f env a b
    | .min => floatMinMax f env false a b
    | .max => floatMinMax f env true a b
    | .div => floatDiv f env a b
  else if f.isInt then match op with
    | .add => intBin f (· + ·) a b
    | .sub => intSub f a b
    | .mul => intBin f (· * ·) a b
    | .min => intBin f min a b
    | .max => intBin f max a b
    | .div => intDiv f a b
  else match op with
    | .add => ((a + b) % 2 ^ w, 0)
    | .sub => ((a + 2 ^ w - b) % 2 ^ w, 0)
    | .mul => (a * b % 2 ^ w, 0)
    | .min => (min a b, 0)
    | .max => (max a b, 0)
    | .div => (if b = 0 then 2 ^ w - 1 else a / b, 0)

/-- The fused forms in the class of their format (R266, R267). -/
def elemFma (na nc : Bool) (f : Format) (env : Env) (a b c : Nat) : Nat × Nat :=
  let w := f.width
  if f.isFloat then floatFma f env na nc a b c
  else if f.isInt then intFma f na nc a b c
  else
    let x : Int := (if na then -1 else 1) * (a : Int) * b + (if nc then -1 else 1) * (c : Int)
    (patternOf w x, 0)

/-- min(max(c, a), b), each step as vmax then vmin (R267). -/
def elemClamp (f : Format) (env : Env) (a b c : Nat) : Nat × Nat :=
  if isAbsent f c then (c, 0)
  else
    let lo := elemBin .max f env c a
    let hi := elemBin .min f env lo.1 b
    (hi.1, orFlags lo.2 hi.2)

/-- |a| of classes I and Z (R270). -/
def elemAbs (f : Format) (a : Nat) : Nat × Nat :=
  if isAbsent f a then (a, 0)
  else if f.isFloat then (withSign f a false, 0)
  else (patternOf f.width (signedOf f.width a).natAbs, 0)

/-- −a of classes I and Z (R270). -/
def elemNeg (f : Format) (a : Nat) : Nat × Nat :=
  if isAbsent f a then (a, 0)
  else if f.isFloat then (withSign f a (!signBit f a), 0)
  else (patternOf f.width (-signedOf f.width a), 0)

/-- a with the sign of b (R270). -/
def elemSgnj (f : Format) (a b : Nat) : Nat × Nat :=
  if isAbsent f a || isAbsent f b then (a, 0) else (withSign f a (signBit f b), 0)

/-! Conversions between element formats (R56). -/

/-- An element of one format converted to another (R56). -/
def convertElem (ef sf : Format) (env : Env) (x : Nat) : Nat × Nat :=
  if isAbsent sf x then (Format.absentCode ef, 0)
  else if sf.isFloat then
    let v := decodeFloat sf env.fz x
    if ef.isFloat then encodeFloat ef env (Format.fracBits sf) v else encodeInt ef env.mode v
  else
    let v := signedOf sf.width x
    if ef.isFloat then roundReal ef env (decide (v < 0)) v.natAbs 1 0
    else (patternOf ef.width (saturate ef.width v), 0)

/-! Special functions (R271). -/

/-- A result of fp32 flushed under FZ (R52, R271): underflow for it, never inexact. -/
def flushResult (env : Env) (r : Nat × Nat) : Nat × Nat :=
  let m := r.1 % 2 ^ 31
  if env.fz && m != 0 && decide (m < 2 ^ 23) then (r.1 - m, orFlags r.2 flagUF) else r

/-- A result that is not exact, with underflow where it is tiny; inexact is not raised (R52, R271). That a zero delivered for a
nonzero exact result counts as tiny is DEDUCED (log entry 74). -/
def tinyResult (p : Nat) : Nat × Nat := (p, if p % 2 ^ 31 < 2 ^ 23 then flagUF else 0)

/-- A finite value in fixed point (R271). -/
def fixOf : Val → Int
  | .real n m d e => toInt n (if 0 ≤ e + 512 then m * 2 ^ (e + 512).toNat / d else m / (d * 2 ^ (-(e + 512)).toNat))
  | _ => 0

/-- One unit in the last place of fp32 at an exact result, in fixed point. -/
def fixUlp (x : Int) : Int := if x.natAbs = 0 then 2 ^ 363 else 2 ^ (max (Nat.log2 x.natAbs) 386 - 23)

/-- A result of a special function: the free pattern where it lies within the bound of R271 about the exact result and
within the range the table gives, and otherwise the exact result rounded (R271; log entry 9). -/
def boundedPattern (raw : Word) (exact tol : Int) (lo hi : Val) : Nat :=
  let v := decodeFloat .fp32 false raw.toNat
  let near := match v with
    | .real _ _ _ _ => decide ((fixOf v - exact).natAbs ≤ tol.natAbs + 2 ^ 200) && !ltVal v lo && !ltVal hi v
    | _ => false
  if near then raw.toNat else (roundReal .fp32 Env.plain (decide (exact < 0)) exact.natAbs 1 (-512)).1

/-- Plus and minus infinity, 0 and 1 as the ends of a range. -/
def valTop : Val := .inf false
def valBottom : Val := .inf true
def valZero : Val := .real false 0 1 0
def valOne (neg : Bool) : Val := .real neg 1 1 0

/-- The bound on sine and cosine: 2 ulp up to 2 to the 16, 2 to the −21 beyond (R271). -/
def sineBound (x : Val) (exact : Int) : Int :=
  match x with
  | .real _ m d e => if ltVal (.real false 65536 1 0) (.real false m d e) then 2 ^ 491 else 2 * fixUlp exact
  | _ => 0

/-- The value is an integral power of two, with its exponent (R271). -/
def powerOfTwo (v : Val) : Option Int :=
  match v with
  | .real false m 1 e => if m ≠ 0 ∧ 2 ^ Nat.log2 m = m then some ((Nat.log2 m : Int) + e) else none
  | _ => none

/-- The value is an integer (R271). -/
def integral (v : Val) : Option Int :=
  match v with
  | .real n m d e => let (q, r, _) := scaled m d e 0; if r = 0 then some (toInt n q) else none
  | _ => none

/-- A special function of one fp32 operand: absent and NaN operands, then the function (R44, R53, R271). -/
def special (env : Env) (a : Nat) (op : Val → Nat × Nat) : Nat × Nat :=
  if isAbsent .fp32 a then (a, 0)
  else
    let x := decodeFloat .fp32 env.fz a
    ieeeOp .fp32 [x] fun _ => flushResult env (op x)

/-- The canonical NaN with invalid. -/
def invalid32 : Nat × Nat := (0x7FC00000, flagNV)

/-- 2 to the a within one ulp (R271). -/
def freeExp2 (x : Val) (a : Nat) : Nat :=
  let y : Int := fixExp2 (fixOf x)
  boundedPattern (Config.exp2Raw (BitVec.ofNat 32 a)) y (fixUlp y) valZero valTop

/-- 2 to the a (R271): exact for integers with a normal power, overflow above the largest finite value, underflow where
the result would lie below 2 to the −150; otherwise within one ulp, which the model leaves free. -/
def floatExp2 (env : Env) (a : Nat) : Nat × Nat :=
  special env a fun x =>
    match x with
    | .inf true => (0, 0)
    | .inf false => (0x7F800000, 0)
    | _ =>
      if !ltVal x (.real false 128 1 0) then (0x7F800000, flagOF)
      else if ltVal x (.real true 150 1 0) then (0, flagUF)
      else match integral x with
        | some k =>
          if -126 ≤ k then (((k + 127) * 2 ^ 23).toNat, 0)
          else if -149 ≤ k ∧ freeExp2 x a = 2 ^ (k + 149).toNat then (freeExp2 x a, 0)
          else tinyResult (freeExp2 x a)
        | none => tinyResult (freeExp2 x a)

/-- log2 a (R271). -/
def floatLog2 (env : Env) (a : Nat) : Nat × Nat :=
  special env a fun x =>
    match x with
    | .inf true => invalid32
    | .inf false => (0x7F800000, 0)
    | .real n m _ e =>
      if m = 0 then (0xFF800000, flagDZ)
      else if n then invalid32
      else match powerOfTwo x with
        | some k => ((roundReal .fp32 Env.plain (decide (k < 0)) k.natAbs 1 0).1, 0)
        | none =>
          let y := fixLog2 m e
          (boundedPattern (Config.log2Raw (BitVec.ofNat 32 a)) y (fixUlp y) valBottom valTop, 0)
    | _ => invalid32

/-- 1 / √a (R271). -/
def floatRsqrt (env : Env) (a : Nat) : Nat × Nat :=
  special env a fun x =>
    match x with
    | .inf true => invalid32
    | .inf false => (0, 0)
    | .real n m _ e =>
      if m = 0 then (if n then 0xFF800000 else 0x7F800000, flagDZ)
      else if n then invalid32
      else
        let y : Int := isqrt (2 ^ (1024 - e).toNat / m) 600 0
        (boundedPattern (Config.rsqrtRaw (BitVec.ofNat 32 a)) y (fixUlp y) valZero valTop, 0)
    | _ => invalid32

/-- sin a (R271). -/
def floatSin (env : Env) (a : Nat) : Nat × Nat :=
  special env a fun x =>
    match x with
    | .inf _ => invalid32
    | .real n m _ _ =>
      if m = 0 then (n.toNat * 2 ^ 31, 0)
      else
        let y := fixSine (fixOf x) 0
        tinyResult (boundedPattern (Config.sinRaw (BitVec.ofNat 32 a)) y (sineBound x y) (valOne true) (valOne false))
    | _ => invalid32

/-- cos a (R271). -/
def floatCos (env : Env) (a : Nat) : Nat × Nat :=
  special env a fun x =>
    match x with
    | .inf _ => invalid32
    | .real _ m _ _ =>
      if m = 0 then (0x3F800000, 0)
      else
        let y := fixSine (fixOf x) 1
        tinyResult (boundedPattern (Config.cosRaw (BitVec.ofNat 32 a)) y (sineBound x y) (valOne true) (valOne false))
    | _ => invalid32

/-- tanh a (R271). -/
def floatTanh (env : Env) (a : Nat) : Nat × Nat :=
  special env a fun x =>
    match x with
    | .inf n => (0x3F800000 + n.toNat * 2 ^ 31, 0)
    | .real n m _ _ =>
      if m = 0 then (n.toNat * 2 ^ 31, 0)
      else
        let y := fixTanh (fixOf x)
        tinyResult (boundedPattern (Config.tanhRaw (BitVec.ofNat 32 a)) y (2 * fixUlp y) (valOne true) (valOne false))
    | _ => invalid32

/-- 1 / (1 + e to the −a) (R271). -/
def floatSigm (env : Env) (a : Nat) : Nat × Nat :=
  special env a fun x =>
    match x with
    | .inf true => (0, 0)
    | .inf false => (0x3F800000, 0)
    | _ =>
      let y := fixSigm (fixOf x)
      tinyResult (boundedPattern (Config.sigmRaw (BitVec.ofNat 32 a)) y (2 * fixUlp y) valZero (valOne false))

/-! The block formats (R47 to R50, R57). -/

/-- The mantissa width m of a block format (R47). -/
def Format.mant : Format → Nat
  | .bx4 => 2
  | .bx6 => 4
  | _ => 7

/-- The group size in bytes (R47). -/
def Format.groupSize : Format → Nat
  | .bx4 => 8
  | .bx6 => 12
  | _ => 18

/-- An element of a group whose bytes are the little-endian number `g` (R47, R48). -/
def blockElem (f : Format) (g i : Nat) : Val :=
  let m := Format.mant f
  let x := field g 0 8
  let mu := field g (8 + 2 * (i / 4)) 2
  let fl := field g (16 + (m + 1) * i) (m + 1)
  if x = 255 ∨ fl = 2 ^ m then .absent
  else .real (decide (sextNat fl (m + 1) < 0)) (sextNat fl (m + 1)).natAbs 1 ((x : Int) - 127 - mu - m + 1)

/-- The magnitude of a value, an infinity taken as 2 to the 128 (R49). -/
def Val.magnitude : Val → Nat × Nat × Int
  | .real _ n d e => (n, d, e)
  | .inf _ => (1, 1, 128)
  | _ => (0, 1, 0)

/-- A magnitude is less than another. -/
def magLt (a b : Nat × Nat × Int) : Bool :=
  let e := min a.2.2 b.2.2
  decide (a.1 * 2 ^ (a.2.2 - e).toNat * b.2.1 < b.1 * 2 ^ (b.2.2 - e).toNat * a.2.1)

/-- The value is present. -/
def Val.present : Val → Bool
  | .absent => false
  | _ => true

/-- The largest magnitude of the present values; zero when there is none (R49). -/
def maxMagnitude (vs : List Val) : Nat × Nat × Int :=
  vs.foldl (fun m v => if v.present && magLt m v.magnitude then v.magnitude else m) (0, 1, 0)

/-- 16 values encoded into one group, as its little-endian number, with the flags (R49). An infinity is taken as 2^128, which
its scale divides exactly, so that it raises overflow and not inexact (DEDUCED: log entry 74). -/
def encodeBlock (f : Format) (mode : Rounding) (vs : List Val) : Nat × Nat :=
  let m := Format.mant f
  let isNaN (v : Val) : Bool := match v with
    | .nan _ _ _ => true
    | _ => false
  let fl0 := if vs.any isNaN then flagNV else 0
  let vs := vs.map fun v => if isNaN v then .absent else v
  if vs.all fun v => !v.present then (255, fl0)
  else
    let amax := maxMagnitude vs
    let e : Int := if amax.1 = 0 then -127 else leadExp amax.1 amax.2.1 amax.2.2
    let x := (max 0 (min 254 (e + 127))).toNat
    let mu (u : Nat) : Nat :=
      let qmax := maxMagnitude ((vs.drop (4 * u)).take 4)
      ([1, 2, 3] : List Nat).foldl (fun (a k : Nat) => if magLt qmax (1, 1, (x : Int) - 127 - k + 1) then k else a) 0
    let elem (i : Nat) (v : Val) : Nat × Nat :=
      match v with
      | .absent => (2 ^ m, 0)
      | v =>
        let neg := v.isNeg
        let (n, d, ex) := v.magnitude
        let (q, r, den) := scaled n d ex ((x : Int) - 127 - mu (i / 4) - m + 1)
        let k := roundInt mode neg q r den
        let fl := joinFlags [if v = .inf true ∨ v = .inf false then flagOF else 0, if r = 0 then 0 else flagNX,
          if k = 0 ∧ n ≠ 0 then flagUF else 0]
        (patternOf (m + 1) (toInt neg (min k (2 ^ m - 1))), fl)
    let es := vs.zipIdx.map fun (v, i) => elem i v
    let mus := mu 0 + 4 * mu 1 + 16 * mu 2 + 64 * mu 3
    let body := es.foldr (fun p acc => p.1 + 2 ^ (m + 1) * acc) 0
    (x + 256 * mus + 65536 * body, orFlags fl0 (joinFlags (es.map Prod.snd)))

/-- The block of an element in a two-dimensional operand, by the geometry code: rows and columns (R50, R64). -/
def geometry : Nat → Nat × Nat
  | 0 => (1, 16)
  | 1 => (2, 8)
  | 2 => (4, 4)
  | 3 => (8, 2)
  | _ => (16, 1)

/-! Microscaling inputs (R58, R59). -/

/-- A small IEEE-like element of `eb` exponent and `mb` fraction bits, without infinities or NaNs. -/
def miniFloat (eb mb bias x : Nat) : Val :=
  let neg := x.testBit (eb + mb)
  let e := field x mb eb
  let m := field x 0 mb
  if e = 0 then .real neg m 1 (1 - (bias : Int) - mb) else .real neg (m + 2 ^ mb) 1 ((e : Int) - bias - mb)

/-- An element of an MX type by its code in `strmx`, before the block's scale (R58, R59, R251). -/
def mxElem (type x : Nat) : Val :=
  match type with
  | 0 => miniFloat 2 1 1 x
  | 1 => miniFloat 2 3 1 x
  | 2 => miniFloat 3 2 3 x
  | 3 => if x % 128 = 127 then .nan (x.testBit 7) 1 false else miniFloat 4 3 7 x
  | 4 =>
    if x % 128 = 124 then .inf (x.testBit 7)
    else if x % 128 > 124 then .nan (x.testBit 7) 1 false
    else miniFloat 5 2 15 x
  | _ => .real (decide (sextNat x 8 < 0)) (sextNat x 8).natAbs 1 (-6)

/-- The bits of an element of an MX type (R251). -/
def mxWidth : Nat → Nat
  | 0 => 4
  | 1 => 6
  | 2 => 6
  | _ => 8

/-- A value scaled by a power of two. -/
def Val.scale (v : Val) (k : Int) : Val :=
  match v with
  | .real n a d e => .real n a d (e + k)
  | v => v

/-- One MX block of 32 elements as two groups of BX6 or BX9, with the flags (R58, R59). -/
def mxBlock (type : Nat) (elems : List Nat) (sc : Nat) : List Nat × Nat :=
  let out : Format := if type = 0 then .bx6 else .bx9
  if sc = 255 then ([255, 255], flagNV)
  else if type = 0 ∧ sc ≤ 252 then
    let grp (es : List Nat) : Nat :=
      sc + 2 + 65536 * es.foldr (fun x acc => twice x + 32 * acc) 0
    ([grp (elems.take 16), grp (elems.drop 16)], 0)
  else
    let vs := elems.map fun x => (mxElem type x).scale ((sc : Int) - 127)
    let a := encodeBlock out .rne (vs.take 16)
    let b := encodeBlock out .rne (vs.drop 16)
    let moved := vs.zipIdx.any fun (v, i) =>
      match v, blockElem out (if i < 16 then a.1 else b.1) (i % 16) with
      | .real n m d e, w => !eqVal (.real n m d e) w
      | _, _ => false
    ([a.1, b.1], joinFlags [a.2, b.2, if type = 0 ∧ moved then flagNX else 0])
where
  /-- Twice an E2M1 element as a 5-bit mantissa: no E2M1 value needs more. -/
  twice (x : Nat) : Nat :=
    match miniFloat 2 1 1 x with
    | .real n m _ e => patternOf 5 (toInt n (scaled m 1 (e + 1) 0).1)
    | _ => 0

end Sys2Proof.Machine
end

