-- ==== Sys2Proof/Machine/Operands.lean ====
section
/-! DEFINITION. Operand forms: the values of scalar and vector sources, guards and lane predicates, the delivery of results
by unit, element-wise work on lanes, and the energy an operation is charged (R149 to R155, R164, R260, R364). -/

namespace Sys2Proof.Machine

open Sys2Proof

/-- The file of a scalar unit. -/
def UnitAB.file : UnitAB → File
  | .a => .a
  | .b => .b

/-- The place of a scalar unit in slot order. -/
def UnitAB.slot : UnitAB → Nat
  | .a => 1
  | .b => 2

/-- The file of a vector unit. -/
def UnitVW.file : UnitVW → File
  | .v => .v
  | .w => .w

/-- The place of a vector unit in slot order. -/
def UnitVW.slot : UnitVW → Nat
  | .v => 4
  | .w => 5

/-! Energy (R363, R364). -/

/-- An energy counter after a charge: it saturates at 2^48 − 1 and says so. -/
def addEnergy (e : Dword) (n : Nat) : Dword :=
  let c := bits e 0 48 + n
  if c < 2 ^ 48 then withBits e 0 48 c else setBit (withBits e 0 48 (2 ^ 48 - 1)) 63 true

/-- The weight of a class on a core. -/
def weightOf (c : Core) (cls : Nat) : Nat := (c.eweights.getD cls 0).toNat

/-- The core that keeps the energy of a core's task: the leading one of a twin pair (R387). -/
def energyHome (s : State) (core : Nat) : Nat :=
  match groupOn s core with
  | some g => if g.trailing.contains core then g.members.getD (g.rankOf core) core else core
  | none => core

/-- Energy charged in a column, for its thermal sensor (R434). -/
def noteCharge (s : State) (core w : Nat) : State := modCore s core fun c => { c with charged := c.charged + w }

/-- `n` events of a class, weighed by a core's registers, charged to its task or its lichen context. -/
def addCharge (s : State) (core cls n : Nat) (task : Bool) : State :=
  let w := weightOf (coreOf s core) cls * n
  if w = 0 then s
  else
    let s := noteCharge s core w
    if task then modTask s (energyHome s core) fun t => { t with energy := addEnergy t.energy w }
    else modCore s core fun c => { c with lichen := { c.lichen with energy := addEnergy c.lichen.energy w } }

/-- `n` events charged to the context that issued them: the task while its group runs on the core, the lichen context
otherwise (R364). -/
def chargeTo (s : State) (core gid cls n : Nat) : State :=
  addCharge s core cls n (match groupOn s core with
    | some g => g.gid == gid
    | none => false)

/-- `n` events of a class charged to the issuing context. In a lichen cycle the lichen context's counter stands in the
view the cycle runs on. -/
def charge (s : State) (cls n : Nat) : State :=
  if s.cur.lichen then
    let w := weightOf (coreOf s s.cur.core) cls * n
    if w = 0 then s else modCur (noteCharge s s.cur.core w) fun t => { t with energy := addEnergy t.energy w }
  else addCharge s s.cur.core cls n true

/-- The rows that `n` bytes of a near range touch. -/
def rowsOf (ea n : Nat) : Nat := (ea + n - 1) / 16 - ea / 16 + 1

/-! Sources (R149, R151). -/

/-- The poison of each byte of a near range of the issuing core's column. -/
def nearPoison (s : State) (ea n : Nat) : List Bool := tabulate n fun i => poisonedAt s (nearPA s.cur.core (ea + i)) 1

/-- Word `i` of a byte string. -/
def wordAt (bs : List Byte) (i : Nat) : Word := leWord ((bs.drop (4 * i)).take 4)

/-- The entries of q0 to q3 that a bundle sees: one pushed in a cycle is visible from the next (R317). -/
def visibleEntries (s : State) (q : Nat) : List QEntry :=
  ((curTask s).queues.getD q []).filter fun e => decide (e.since ≤ s.now)

/-- The entry at the head of a queue: of q0 to q3 the bytes of a drain's entry, of q4 to q7 a message (R149). -/
def headBytes (s : State) (q : Nat) : List Byte :=
  if q < 4 then
    match visibleEntries s q with
    | e :: _ => e.bytes
    | [] => []
  else ((coreOf s s.cur.core).inbound.getD (q - 4) []).headD []

/-- The queue has no entry (R151). -/
def queueEmpty (s : State) (q : Nat) : Bool :=
  if q < 4 then (visibleEntries s q).isEmpty
  else ((coreOf s s.cur.core).inbound.getD (q - 4) []).isEmpty

/-- An entry of a scalar unit's latch stack. -/
def latchOf (t : Task) (fl : File) (i : Nat) : Word :=
  match fl with
  | .a => t.latches.a.getD i 0
  | .b => t.latches.b.getD i 0
  | .m => t.latches.m.getD i 0
  | .f => t.latches.f.getD i 0
  | .n => t.latches.n.getD i 0
  | .c | .v | .w | .x | .preds | .vpreds => 0

/-- An entry of a vector unit's latch stack. -/
def latchLanes (t : Task) (u : UnitVW) (i : Nat) : Lanes :=
  fullLanes (match u with
    | .v => t.latches.v.getD i zeroLanes
    | .w => t.latches.w.getD i zeroLanes)

/-- The value of a source of a scalar slot whose file is `fl` (R149). -/
def srcVal (s : State) (fl : File) : SSrc → Word
  | .reg r => readReg (curTask s) fl r.val
  | .latch i => latchOf (curTask s) fl i.val
  | .qhead q => wordAt (headBytes s q.val) 0
  | .const c => BitVec.ofNat 32 c.val
  | .lit v => v

/-- The lanes of a source of a vector slot: lane L reads word L mod 32 of a queue entry, word L mod 4 of a message (R149). -/
def srcLanes (s : State) (u : UnitVW) : VSrc → Lanes
  | .reg r => readLanes (curTask s) u r.val
  | .latch i => latchLanes (curTask s) u i.val
  | .qhead q =>
    let bs := headBytes s q.val
    tabulate 128 fun l => wordAt bs (if q.val < 4 then l % 32 else l % 4)
  | .lit v => List.replicate 128 v

/-- The value of a k register at issue. -/
def kVal (s : State) (k : Fin 16) : Word := readReg (curTask s) .c k.val

/-! Guards (R152, R154). -/

/-- A guard reads true. -/
def guardHolds (s : State) : Guard → Bool
  | .p i => readPred (curTask s) i.val
  | .t i => s.cur.path == i.val

/-- The operation's guard reads true; a form without a guard always issues (R153). -/
def guarded (s : State) (i : Instr) : Bool :=
  match i.guard with
  | some g => guardHolds s g
  | none => true

/-! Results by unit (R150, R164, R165). -/

/-- A result of a scalar unit for its own file: it enters the unit's latch stack. -/
def giveScalar (s : State) (fl : File) (slot lat d : Nat) (v : Word) : State :=
  issueResult s lat slot (some (.scalar fl v)) (regDest fl d v) 0 false

/-- A result without a latch entry: of the C and X units and of `xmov` and `xmovp` (R16, R150). -/
def giveOnly (s : State) (slot lat : Nat) (ds : List Dest) : State := issueResult s lat slot none ds 0 false

/-- The latency of `xmov` from a scalar file to a file (R165). -/
def xmovLatency : File → Nat
  | .v | .w => 3
  | _ => 2

/-- The latency of `xmov` from a vector file (R165). -/
def xmovVecLatency : File → Nat
  | .v | .w => 2
  | _ => 4

/-- An `xmov` of a 32-bit value to a register of a file (R215, R222, R229). -/
def giveXmov (s : State) (slot : Nat) (fl : File) (d : Nat) (v : Word) : State :=
  giveOnly s slot (xmovLatency fl) (regDest fl d v)

/-- A predicate pair and its complement (R15, R221). -/
def givePair (s : State) (slot k : Nat) (c : Bool) : State := giveOnly s slot 2 [.pair k c (!c)]

/-! Lanes and elements (R153, R260). -/

/-- The lane predicate of a vector operation, as read at issue. -/
def lanesOf (s : State) (lp : Fin 16) : Mask := readVPred (curTask s) lp.val

/-- The number of lanes set. -/
def laneCount (m : Mask) : Nat := ((List.range 128).filter fun i => m.getLsbD i).length

/-- The elements of a word, lowest first. -/
def elemsOf (f : Format) (w : Word) : List Nat := tabulate f.perLane fun i => field w.toNat (i * f.width) f.width

/-- A word of elements. -/
def ofElems (f : Format) (es : List Nat) : Word :=
  BitVec.ofNat 32 (es.foldr (fun e acc => e % 2 ^ f.width + 2 ^ f.width * acc) 0)

/-- An element operation on each element of a lane, with the flags joined. -/
def mapElems (f : Format) (op : Nat → Nat × Nat) (a : Word) : Word × Nat :=
  let rs := (elemsOf f a).map op
  (ofElems f (rs.map Prod.fst), joinFlags (rs.map Prod.snd))

/-- A binary element operation on each element of two lanes. -/
def zipElems (f : Format) (op : Nat → Nat → Nat × Nat) (a b : Word) : Word × Nat :=
  let rs := ((elemsOf f a).zip (elemsOf f b)).map fun (x, y) => op x y
  (ofElems f (rs.map Prod.fst), joinFlags (rs.map Prod.snd))

/-- A ternary element operation on each element of three lanes. -/
def zipElems3 (f : Format) (op : Nat → Nat → Nat → Nat × Nat) (a b c : Word) : Word × Nat :=
  let rs := ((elemsOf f a).zip ((elemsOf f b).zip (elemsOf f c))).map fun (x, y, z) => op x y z
  (ofElems f (rs.map Prod.fst), joinFlags (rs.map Prod.snd))

/-- The flags of the active lanes joined (R153). -/
def activeFlags (act : Mask) (rs : List (Word × Nat)) : Nat :=
  joinFlags (rs.zipIdx.map fun ((_, f), i) => if act.getLsbD i then f else 0)

/-- What an inactive lane holds: the destination register's lane at issue, or all ones under code 31 (R153). -/
def heldLanes (s : State) (u : UnitVW) : VDst → Lanes
  | .reg r => readLanes (curTask s) u r.val
  | .latchOnly => List.replicate 128 (BitVec.allOnes 32)

/-- The lanes of a result: active ones as computed, the others as held (R153). -/
def mixLanes (act : Mask) (held new : Lanes) : Lanes :=
  (held.zip new).zipIdx.map fun ((h, n), i) => if act.getLsbD i then n else h

/-- A vector result: the latch entry, the write-back and the flags of the active lanes (R55, R150, R153). -/
def giveLanes (s : State) (u : UnitVW) (lat : Nat) (d : VDst) (act : Mask) (rs : List (Word × Nat)) : State :=
  let l := mixLanes act (heldLanes s u d) (rs.map Prod.fst)
  let dst := match d with
    | .reg r => [Dest.lanes u r.val l act]
    | .latchOnly => []
  issueResult s lat (UnitVW.slot u) (some (.vector u l)) dst (stickyFlags (activeFlags act rs)) false

/-- A vector predicate pair: the half and its complement in the active lanes (R15, R274). -/
def giveVPair (s : State) (u : UnitVW) (k : Nat) (act c : Mask) : State :=
  giveOnly s (UnitVW.slot u) 2 [.vpair k (some c) (some (~~~c)) act]

/-- The rounding environment of a vector operation at issue (R65). -/
def envOf (s : State) : Env := Env.ofFmt (curTask s).fmt

end Sys2Proof.Machine
end

