-- ==== Sys2Proof/Machine/Handles.lean ====
section
/-! DEFINITION. Handles and the shared parts of engine commands: the fields of a handle entry and of a command block, the
engine a command goes to, the elements a copy moves, and its reports (R87 to R93, R244 to R249, R253, R387). -/

namespace Sys2Proof.Machine

open Sys2Proof

/-! Handle entries (R91 to R93). -/

def Handle.valid (h : Handle) : Bool := h.w0.getLsbD 63
def Handle.kind (h : Handle) : Nat := bits h.w0 61 2
def Handle.rd (h : Handle) : Bool := h.w0.getLsbD 60
def Handle.wr (h : Handle) : Bool := h.w0.getLsbD 59
def Handle.sr (h : Handle) : Bool := h.w0.getLsbD 58
def Handle.base (h : Handle) : Nat := bits h.w0 0 52
def Handle.program (h : Handle) : Nat := bits h.w1 48 16
def Handle.len (h : Handle) : Nat := bits h.w1 0 41
def Handle.cols (h : Handle) : Nat := bits h.w2 24 11
def Handle.span (h : Handle) : Nat := bits h.w2 0 24

/-- The physical address of an offset (R92). -/
def Handle.pa (h : Handle) (o : Nat) : Nat :=
  if h.kind = 1 then h.base + o / h.span * 2 ^ 24 + o % h.span else h.base + o

/-- The entry of a handle table. -/
def handleOf (s : State) (d h : Nat) : Handle := lookup Handle.initial (die s d).handles h

/-- The address bits above which a linear extent of the region may not change: one slice of one column in the tower, one
store of one column, and the same in a peer's map (R75, R76, R79, R424). -/
def extentShift (pa : Nat) : Nat :=
  match pa / 2 ^ 48 with
  | 1 => 24
  | 2 => 16
  | r => if 8 ≤ r then (match field pa 41 2 with
      | 0 => 41
      | 1 => 24
      | _ => 16) else 48

/-- A linear extent lies in one mapped region (R93). A region of control registers is no extent of an engine. -/
def linearMapped (s : State) (base n : Nat) : Bool :=
  let last := base + n - 1
  base / 2 ^ 48 != 3 && base / 2 ^ extentShift base == last / 2 ^ extentShift base && mapped s base && mapped s last

/-- A tower extent lies within its layer's size and column 1151, and every address of it is mapped (R93). Its base lies in this
device's own tower, in region 1: whether it may lie in the tower part of a peer window the spec does not say (DESIGN CHOICE,
safe: log entry 65). -/
def towerExtentMapped (s : State) (h : Handle) : Bool :=
  h.base / 2 ^ 48 == 1 && decide (field h.base 0 24 + h.span ≤ layerSize (field h.base 43 3))
    && decide (field h.base 24 11 + h.cols ≤ 1152)
    && (List.range h.cols).all fun c =>
      mapped s (h.base + c * 2 ^ 24) && mapped s (h.base + c * 2 ^ 24 + h.span - 1)

/-- An entry passes every check of R93. -/
def handleChecked (s : State) (h : Handle) : Bool :=
  decide (h.kind < 2) && bits h.w0 52 6 == 0 && bits h.w1 41 7 == 0 && bits h.w2 35 29 == 0 && h.w3 == 0
    && h.base % 64 == 0 && h.len != 0 && h.len % 64 == 0
    && (if h.kind = 1 then
          decide (1 ≤ h.cols) && decide (h.cols ≤ 1152) && h.span != 0 && h.span % 16 == 0
            && h.len == h.cols * h.span && towerExtentMapped s h
        else linearMapped s h.base h.len)
    && h.sr == (h.base / 2 ^ 48 == 2) && (!h.sr || (programValid s h.program && programPriv s h.program))


/-- The extent that a handle names (R91). -/
def Handle.extent (e : Handle) : Extent := if e.kind = 1 then .tower e.span e.cols else .linear e.len

/-- A handle names part of an extent that waits for the seal of its handover (R109; log entry 70). -/
def awaitsHandover (s : State) (e : Handle) : Bool :=
  (extentSpans e.base e.extent).any fun x => handingOver s x.1 x.2

/-- An entry as a register read gives it: its reserved bits read zero (R6, R91; log entry 65). -/
def Handle.fields (e : Handle) : Handle where
  w0 := e.w0 &&& 0xFC0FFFFFFFFFFFFF
  w1 := e.w1 &&& 0xFFFF01FFFFFFFFFF
  w2 := e.w2 &&& 0x00000007FFFFFFFF
  w3 := 0

/-- One word of an entry written. While VALID is set, by this write or one before, the entry is checked as written, and it is
stored invalid when a check fails, or when it names an extent that waits for a handover (R93, R109; DESIGN CHOICE, unsafe: log
entries 65 and 70). The reserved bits are kept as written, for that check, and read as zero (`Handle.fields`). -/
def writeHandle (s : State) (d h word : Nat) (v : Dword) : State :=
  let e := handleOf s d h
  let e := match word with
    | 0 => { e with w0 := v }
    | 1 => { e with w1 := v }
    | 2 => { e with w2 := v }
    | _ => { e with w3 := v }
  let e := if e.valid && (!handleChecked s e || awaitsHandover s e) then { e with w0 := setBit e.w0 63 false } else e
  modDie s d fun x => { x with handles := assign x.handles h e }

/-! Writes into the columns of a twin pair (R387). -/

/-- The address in the other column of a pair that runs a twin frond, for near and weight addresses, through the device's own
peer window too (R387, R424). -/
def twinAlso (s : State) (pa : Nat) : Option Nat :=
  let pa := homeOf s pa
  if pa / 2 ^ 48 = 1 ∧ (field pa 43 3 = 1 ∨ field pa 43 3 = 2) then
    match groupOn s (towerCore pa) with
    | some g => if g.twin then some (if field pa 24 1 = 0 then pa + 2 ^ 24 else pa - 2 ^ 24) else none
    | none => none
  else none

/-- A write by an engine, a multicast or a landing: in both columns of a twin pair (R387). -/
def storeBoth (s : State) (w : Writer) (pa : Nat) (bs : List Byte) (bad : Bool) : State :=
  let s := storePoison (dropVeils s pa bs.length) w pa bs bad
  match twinAlso s pa with
  | some pb => storePoison (dropVeils s pb bs.length) w pb bs bad
  | none => s

/-- A piece written by a unit, in both columns of a twin pair, with its poison (R387, R391). -/
def storePieceBoth (s : State) (w : Writer) (p : Piece) : State :=
  let t := storeTagged s w p.pa p.bytes p.bad
  match twinAlso s p.pa with
  | some pb => storeTagged t w pb p.bytes p.bad
  | none => t

/-! Commands (R244 to R247). -/

/-- Word `i` of the block. -/
def Command.word (c : Command) (i : Nat) : Nat := (c.block.getD i 0).toNat
/-- SH and DH, the source and destination offsets, and the signed strides (R247). -/
def Command.sh (c : Command) : Nat := field (c.word 0) 0 12
def Command.dh (c : Command) : Nat := field (c.word 0) 16 12
def Command.so (c : Command) : Nat := c.word 1 + 2 ^ 32 * field (c.word 2) 0 9
def Command.dst (c : Command) : Nat := c.word 3 + 2 ^ 32 * field (c.word 4) 0 9
def Command.ss (c : Command) : Int := sextNat (c.word 7) 32
def Command.ds (c : Command) : Int := sextNat (c.word 8) 32
def Command.lh (c : Command) : Nat := field (c.word 10) 0 12
def Command.lo (c : Command) : Nat := c.word 11

/-- The handles a command names by their place in its block (R247, R258, R398). -/
def Command.names (c : Command) : List Nat :=
  let lo (i : Nat) := field (c.word i) 0 12
  let hi (i : Nat) := field (c.word i) 16 12
  match c.op with
  | 0x04 | 0x05 | 0x07 => [lo 0, hi 0, lo 10]
  | 0x0F => [lo 0, hi 0, lo 3, hi 3, lo 8, hi 8, lo 13]
  | 0x16 => [hi 0]
  | 0x18 | 0x19 | 0x1D => (List.range 16).flatMap fun i => [lo i, hi i]
  | 0x1A | 0x1B | 0x1C => []
  | _ => [lo 0, hi 0]

/-- A handle as the command captured it (R93). -/
def Command.handle (c : Command) (h : Nat) : Handle := lookup Handle.initial c.handles h

/-- The handles captured from the table of the command's die. -/
def captureHandles (s : State) (d : Nat) (hs : List Nat) : List (Nat × Handle) :=
  hs.foldl (fun l h => assign l h (handleOf s d h)) []

/-- The key of a cluster's copy engine for a layer, teller, Crozier, and of a die's streaming engine. -/
def copyEngine (cluster layer : Nat) : Nat := 8 * cluster + layer
def tellerOf (cluster : Nat) : Nat := 8 * cluster + 5
def crozierEngine (cluster : Nat) : Nat := 8 * cluster + 6
def streamEngine (d : Nat) : Nat := 1024 + d

/-- An engine. -/
def engineOf (s : State) (e : Nat) : Engine := lookup Engine.initial s.dom.engines e

/-- The state with an engine changed. -/
def modEngine (s : State) (e : Nat) (f : Engine → Engine) : State :=
  { s with dom := { s.dom with engines := assign s.dom.engines e (f (engineOf s e)) } }

/-- The Crozier of a cluster. -/
def crozierOf (s : State) (cluster : Nat) : Crozier := lookup Crozier.initial s.dom.croziers cluster

/-- The handles that a stage, a take or a judgement accepted now may use: those bound, and those that a `sqbind` accepted
before it binds (R93, R395, R397). -/
def crozierNames (s : State) (cluster : Nat) : List Nat :=
  let e := engineOf s (crozierEngine cluster)
  (crozierOf s cluster).bindings.map Prod.fst
    ++ ((e.queue ++ e.running).filter fun c => c.op == 0x19).flatMap fun c =>
      [0, 3, 6].flatMap fun i => [field (c.word i) 0 12, field (c.word i) 16 12]

/-- The running slots of an engine (R87). -/
def runningSlots (e : Nat) : Nat := if e ≥ 1024 then 8 else if e % 8 ≤ 4 then 4 else 1

/-! The requests of what moves bytes (R85, R88). -/

/-- The bank of a layer that holds a tower address (R80, R82). -/
def bankOf (pa : Nat) : Nat :=
  match field pa 43 3 with
  | 1 => field pa 14 5
  | 2 => field pa 13 5
  | 3 => field pa 15 5
  | _ => field pa 16 5

/-- One request for each row of the tower among some addresses. -/
def towerRequests (s : State) (cls owner : Nat) (pas : List Nat) : List BankRequest :=
  (((pas.map fun a => homeOf s a / 16 * 16).dedup).filter fun a => a / 2 ^ 48 == 1).map fun a =>
    ⟨towerCore a, field a 43 3, bankOf a, cls, owner, 0⟩

/-- The addresses that a write by an engine or a landing writes: in both columns of a twin pair (R387). -/
def writtenPlaces (s : State) (pas : List Nat) : List Nat := pas ++ pas.filterMap (twinAlso s)

/-- A class whose requests a command owns, or an access that has no class of its own (log entry 64). -/
def commandClass (cls : Nat) : Bool := cls == 3 || cls == 4 || cls == 6 || cls == 8 || cls == 9

/-- The requests of a command still stand at banks. -/
def commandAsks (s : State) (id : Nat) : Bool := s.bankReqs.any fun r => commandClass r.cls && r.owner == id

/-- The requests of a command taken back. -/
def dropCommandRequests (s : State) (id : Nat) : State :=
  { s with bankReqs := s.bankReqs.filter fun r => !(commandClass r.cls && r.owner == id) }

/-- The engine a command goes to, or the reason it is refused at issue (R87, R245). A `mcast` goes to the near copy engine of its
issuer's cluster whatever its handles, and is judged there; a copy whose first destination byte lies outside DH goes to the
cluster of DH's base (DESIGN CHOICE, safe: log entry 28). -/
def routeCommand (cluster d : Nat) (c : Command) : Except Nat Nat :=
  match c.op with
  | 0x06 | 0x07 | 0x08 => .ok (streamEngine d)
  | 0x09 => .ok (copyEngine cluster 2)
  | 0x0F => .ok (tellerOf cluster)
  | 0x18 | 0x19 | 0x1A | 0x1B | 0x1C | 0x1D => .ok (crozierEngine cluster)
  | _ =>
    let hd := c.handle c.dh
    let hs := if c.op = 0x16 then [hd] else [hd, c.handle c.sh]
    if hs.any fun h => !h.valid then .error 1
    else if hs.any fun h => decide (2 ≤ h.kind) then .error 1
    else if hs.any fun h => h.program != c.program then .error 2
    else if hs.any fun h => h.base / 2 ^ 48 != 1 then .ok (streamEngine d)
    else
      let pa := if c.dst < hd.len then hd.pa c.dst else hd.base
      .ok (copyEngine (clusterOf (towerCore pa)) (field pa 43 3))

/-! Scopes (R120, R121, R127). -/

/-- An engine's position: a die's streaming engine, or an engine of a cluster (R120). -/
def engineDie (e : Nat) : Nat := if 1024 ≤ e then e - 1024 else e / 8 / 24

/-- Engine `b` lies in the scope set of engine `a` (R120). -/
def inScope (a scope b : Nat) : Bool :=
  match scope with
  | 0 => a == b
  | 2 => a == b || (decide (a < 1024) && decide (b < 1024) && a / 8 == b / 8)
  | 3 => engineDie a == engineDie b
  | _ => true

/-- Every command of the device that has not ended, with its engine. -/
def allCommands (s : State) : List (Nat × Command) :=
  s.dom.engines.flatMap fun (e, g) => (g.queue ++ g.running).map fun c => (e, c)

/-- An engine lies in the scope set of a core. -/
def coreReaches (core scope e : Nat) : Bool :=
  match scope with
  | 0 => false
  | 2 => decide (e < 1024) && e / 8 == clusterOf core
  | 3 => engineDie e == dieOf core
  | _ => true

/-- The commands of a core, of either context, that carry the release flag and have not released, issued before a time. -/
def releasesBefore (s : State) (core t : Nat) : List (Nat × Command) :=
  (allCommands s).filter fun (_, d) => d.rel && d.packet.isNone && d.issuer == core && decide (d.issued < t)

/-- The records of an offer may be read: what acquires at its scope waits for has happened (R127, R197). -/
def Offer.ready (s : State) (o : Offer) : Bool :=
  o.scope == 0 || (accessesDone s o.core o.issued
    && !(releasesBefore s o.core o.issued).any fun (e, d) => coreReaches o.core d.scope e && coreReaches o.core o.scope e)

/-! Elements of copies (R248, R253). -/

/-- An element of a copy: the source and destination offsets, the bytes, the receiver of a multicast, and whether the list
entry says that nothing moves. -/
structure Elem where
  src : Int
  dst : Int
  bytes : Nat
  skip : Bool
deriving DecidableEq, Repr

/-- The element size of a command (R248): OPT[1:0] of `cpyt`, else 4. -/
def Command.es (c : Command) : Nat := if c.op = 3 then 2 ^ field (c.word 9) 0 2 else 4

/-- The members a multicast names, in ascending order (R253). -/
def Command.receivers (c : Command) : List Nat :=
  (List.range 48).filter fun m => if m < 32 then (c.word 12).testBit m else (c.word 13).testBit (m - 32)

/-- The number of elements (R248, R253). -/
def Command.count (c : Command) : Nat :=
  let n0 := c.word 5
  let n1 := c.word 6
  match c.op with
  | 0x01 | 0x08 | 0x16 => n0 / 4
  | 0x02 => n0 * (n1 / 4)
  | 0x03 => n0 * n1
  | 0x04 | 0x05 => n0 * (c.word 12 * (n1 / 4))
  | 0x09 => c.receivers.length * (n0 / 4)
  | _ => 0

/-- A list entry: row block and column block, or none for 0xFFFF_FFFF (R248). -/
def Command.listEntry (c : Command) (e : Nat) : Option (Nat × Nat) :=
  let w := (c.list.getD e 0xFFFFFFFF).toNat
  if w = 0xFFFFFFFF then none else some (field w 0 16, field w 16 16)

/-- Element `k` in iteration order (R248, R253). -/
def Command.elem (c : Command) (k : Nat) : Elem :=
  let n1 := c.word 6
  match c.op with
  | 0x02 =>
    let r := k / (n1 / 4)
    let x := k % (n1 / 4) * 4
    ⟨c.so + r * c.ss + x, c.dst + r * c.ds + x, 4, false⟩
  | 0x03 =>
    let i := k / n1
    let j := k % n1
    ⟨c.so + i * c.ss + (j * c.es : Nat), c.dst + j * c.ds + (i * c.es : Nat), c.es, false⟩
  | 0x04 | 0x05 =>
    let w := n1 / 4
    let br := c.word 12
    let e := k / (br * w)
    let i := k / w % br
    let x := k % w * 4
    match c.listEntry e with
    | none => ⟨c.so, c.dst, 4, true⟩
    | some (rb, cb) =>
      let near (o : Nat) (st : Int) : Int := o + ((e * br + i : Nat) : Int) * st + x
      let far (o : Nat) (st : Int) : Int := o + ((rb * br + i : Nat) : Int) * st + (cb * n1 + x : Nat)
      if c.op = 4 then ⟨far c.so c.ss, near c.dst c.ds, 4, false⟩ else ⟨near c.so c.ss, far c.dst c.ds, 4, false⟩
  | 0x09 =>
    let w := c.word 5 / 4
    let m := c.receivers.getD (k / w) 0
    let h := c.handle c.dh
    let m0 := field h.base 24 11 % 48
    ⟨c.so + (k % w * 4 : Nat), c.dst + ((m : Int) - m0) * h.span + (k % w * 4 : Nat), 4, false⟩
  | _ => ⟨c.so + (4 * k : Nat), c.dst + (4 * k : Nat), 4, false⟩

/-- The command reads a source handle. -/
def Command.reads (c : Command) : Bool := c.op != 0x16

/-- Every offset of every element lies in its handle (R90, R246 reason 4). -/
def Command.extentsOk (c : Command) : Bool :=
  (List.range c.count).all fun k =>
    let e := c.elem k
    e.skip || ((!c.reads || (decide (0 ≤ e.src) && decide (e.src.toNat + e.bytes ≤ (c.handle c.sh).len)))
      && decide (0 ≤ e.dst) && decide (e.dst.toNat + e.bytes ≤ (c.handle c.dh).len))

/-- The bytes of an element lie in mapped memory (R246 reason 8). -/
def Command.elemMapped (s : State) (c : Command) (e : Elem) : Bool :=
  e.skip || ((!c.reads || extentMapped s ((c.handle c.sh).pa e.src.toNat) e.bytes)
    && extentMapped s ((c.handle c.dh).pa e.dst.toNat) e.bytes)

/-- The exact in-place transpose of a square block (R89, R249). -/
def Command.inPlace (c : Command) : Bool :=
  c.op == 3 && c.sh == c.dh && c.so == c.dst && c.ss == c.ds && c.word 5 == c.word 6

/-- A byte that `cpyt` reads is one that it writes, by physical address (R249). -/
def Command.overlaps (s : State) (c : Command) : Bool :=
  let hs := c.handle c.sh
  let hd := c.handle c.dh
  let ok := hs.valid && hd.valid && hs.program == c.program && hd.program == c.program
    && decide (hs.kind < 2) && decide (hd.kind < 2)
  let n := c.count
  let pas (h : Handle) (f : Elem → Int) : List Nat := (List.range n).flatMap fun k =>
    let e := c.elem k
    if f e < 0 then [] else tabulate e.bytes fun i => homeOf s (h.pa ((f e).toNat + i))
  c.op == 3 && field (c.word 9) 0 2 != 3 && ok && !c.inPlace
    && (let ws := pas hd Elem.dst; (pas hs Elem.src).any fun a => ws.contains a)

end Sys2Proof.Machine
end

