-- ==== Sys2Proof/Machine/Checks.lean ====
section
/-! DEFINITION. The checks an operation meets at issue, in the order of R350, the late events that hold it before it issues
(R32), and the one way an operation issues: by its guard, its checks and its effect. -/

namespace Sys2Proof.Machine

open Sys2Proof

/-! Addresses (R224, R230, R239). -/

/-- x + y modulo 2^32, both sources of the M file (R224). -/
def sumAddr (s : State) (x y : SSrc) : Nat := (srcVal s .m x + srcVal s .m y).toNat

/-- The virtual address of a global access: y[15:0] above x (R239). -/
def globalAddr (s : State) (x y : SSrc) : Nat := bits (srcVal s .m y) 0 16 * 2 ^ 32 + (srcVal s .m x).toNat

/-- The value checks of a near access of a core's column: alignment (R225), then the range and the slice (R77, R224). -/
def nearStops (s : State) (slot core ea n align : Nat) : List Stop :=
  (if ea % align = 0 then [] else [Stop.misaligned slot])
    ++ (if ea + n ≤ 2 ^ 18 ∧ mapped s (nearPA core ea) = true then [] else [Stop.layerAbsent slot])

/-- The value checks of a vector access: the member, the bits of the address above the fields, the slice (R225, R230; log
entry 13). -/
def vectorStops (s : State) (a limit : Nat) : List Stop :=
  let core := if limit = 512 then s.cur.core else memberCore (clusterOf s.cur.core) (field a 9 6)
  if limit ≠ 512 ∧ 48 ≤ field a 9 6 then [Stop.misaligned 3]
  else if limit ≤ a then [Stop.layerAbsent 3]
  else if mapped s (nearPA core 0) then [] else [Stop.layerAbsent 3]

/-- The value checks of `rld` and `rst` (R225, R234). -/
def remoteStops (s : State) (a : Nat) : List Stop :=
  if a % 4 ≠ 0 ∨ 48 ≤ field a 18 6 then [Stop.misaligned 3]
  else if 2 ^ 24 ≤ a then [Stop.layerAbsent 3]
  else if mapped s (nearPA (memberCore (clusterOf s.cur.core) (field a 18 6)) 0) then [] else [Stop.layerAbsent 3]

/-- The value checks of a global access: alignment of the near range and of the address, the range (R239). -/
def globalStops (s : State) (near va n align : Nat) : List Stop :=
  nearStops s 3 s.cur.core near n align ++ (if va % align = 0 then [] else [Stop.misaligned 3])

/-! `qst` (R238). -/

/-- The element bytes of an entry's format. -/
def QEntry.es (e : QEntry) : Nat := e.fmt.width / 8

/-- The chunks of an entry (R237). -/
def QEntry.chunks (e : QEntry) : Nat :=
  ((if e.fmt.isBlock then 2 * Format.groupSize e.fmt else 32 * e.es) + 15) / 16

/-- The entry at the head of q0 to q3. -/
def headEntry (s : State) (q : Nat) : Option QEntry := (visibleEntries s q).head?

/-- The value checks of `qst`, by the layout of the head entry (R238). -/
def qstStops (s : State) (q ea : Nat) : List Stop :=
  match headEntry s q with
  | none => []
  | some e =>
    let o := ea % 16
    (if e.layout = 1 then
        (if e.fmt.isBlock ∨ o % e.es ≠ 0 then [Stop.misaligned 3] else [])
      else if o = 0 then [] else [Stop.misaligned 3])
      ++ (if 2 ^ 18 ≤ ea then [Stop.layerAbsent 3] else [])
      ++ (if e.layout = 3 ∧ 511 < field ea 4 9 + e.rb then [Stop.layerAbsent 3] else [])
      ++ (if mapped s (nearPA s.cur.core 0) then [] else [Stop.layerAbsent 3])

/-! Banks named by the operations of a bundle (R84, R85, R290). -/

/-- Every bank. -/
def allBanks : List Nat := List.range 32

/-- The banks of the own near layer that an M-slot operation names, each once (R84). -/
def nearBanks (s : State) : Instr → List Nat
  | .ldb _ _ _ x y | .ldbu _ _ _ x y | .ldh _ _ _ x y | .ldhu _ _ _ x y | .ldw _ _ _ x y | .ldd _ _ x y
  | .stb _ _ _ x y | .sth _ _ _ x y | .stw _ _ _ x y | .std _ _ x y | .pld _ _ x y | .pst _ _ x y =>
    [field (sumAddr s x y) 13 5]
  | .vld _ _ _ _ _ _ | .vst _ _ _ _ _ _ | .vstm _ _ _ _ _ _ | .vldth _ _ _ _ _ _ => allBanks
  | .qst _ q x y =>
    match headEntry s q.val with
    | none => []
    | some e =>
      let b := field (sumAddr s x y) 13 5
      let row := field (sumAddr s x y) 4 9
      match e.layout with
      | 1 => allBanks
      | 2 => tabulate e.chunks fun j => Nat.xor ((b + j) % 32) (row % 32)
      | 3 => tabulate e.chunks fun j => (b + e.chunks * e.cb + j) % 32
      | _ => tabulate e.chunks fun j => (b + j) % 32
  | .bnld _ x y _ =>
    let b := field (srcVal s .n x + srcVal s .n y).toNat 13 5
    [b, b + 1]
  | _ => []

/-! Engine commands at issue (R245, R249). -/

/-- The program whose handles and page table an access of the issuing context goes through; the lichen context has none of its
own, and takes program 0 (DESIGN CHOICE, unsafe: log entry 20). -/
def curProgram (s : State) : Nat :=
  match curGroup s with
  | some g => g.program
  | none => 0

/-- The near address of an engine command's block, as the F file reads it. -/
def blockAddr (s : State) (x : SSrc) : Nat := (srcVal s .f x).toNat

/-- The command captured at issue: its block, its handles, its barrier, its issuer (R244, R245). -/
def captureCommand (s : State) (op : Nat) (slot : Fin 16) (x : Option SSrc) (y : SSrc) (nb rel acq : Bool) : Command :=
  let core := s.cur.core
  let d := dieOf core
  let v := match x with
    | some x => blockAddr s x
    | none => 0
  let hasBlock := op != 0x1A && op != 0x1B && op != 0x1C
  let block := if hasBlock then tabulate 16 fun i => leWord (readBytes s (nearPA core (v + 4 * i)) 4) else []
  let (bc, b) := barRef (clusterOf core) (srcVal s .f y)
  let c : Command :=
    { id := s.nextId, op := op, block := block, stageIdx := if hasBlock then 0 else v, program := curProgram s, die := d,
      handles := [], core := if s.cur.lichen then none else some core,
      issuer := core, gid := s.cur.gid, issued := s.now, slot := slot.val,
      packet := none, node := none, barCluster := bc, bar := b, nb := nb, rel := rel, acq := acq, scope := s.cur.scope,
      writer := writerOf s, kept := [], judged := false, asked := false, hurt := false, list := [], done := 0, written := 0,
      job := none, flags := 0 }
  { c with handles := captureHandles s d (if hasBlock then c.names else crozierNames s (clusterOf core)) }

/-- The value checks of a command with a block (R224, R225, R245). -/
def blockStops (s : State) (x : SSrc) : List Stop := nearStops s 7 s.cur.core (blockAddr s x) 64 64

/-- `cpyt` on overlapping bytes (R249). -/
def cpytStops (s : State) (slot : Fin 16) (x y : SSrc) (nb rel acq : Bool) : List Stop :=
  let c := captureCommand s 3 slot (some x) y nb rel acq
  if c.overlaps s then [Stop.overlap 7] else []

/-- The command that an operation of the F slot issues (R244). -/
def commandOf (i : Instr) (s : State) : Option Command :=
  match i with
  | .cpy _ sl x y nb rel acq => some (captureCommand s 0x01 sl (some x) y nb rel acq)
  | .cpy2d _ sl x y nb rel acq => some (captureCommand s 0x02 sl (some x) y nb rel acq)
  | .cpyt _ sl x y nb rel acq => some (captureCommand s 0x03 sl (some x) y nb rel acq)
  | .cpyg _ sl x y nb rel acq => some (captureCommand s 0x04 sl (some x) y nb rel acq)
  | .cpys _ sl x y nb rel acq => some (captureCommand s 0x05 sl (some x) y nb rel acq)
  | .strm _ sl x y nb rel acq => some (captureCommand s 0x06 sl (some x) y nb rel acq)
  | .strmx _ sl x y nb rel acq => some (captureCommand s 0x07 sl (some x) y nb rel acq)
  | .cpyx _ sl x y nb rel acq => some (captureCommand s 0x08 sl (some x) y nb rel acq)
  | .mcast _ sl x y nb rel acq => some (captureCommand s 0x09 sl (some x) y nb rel acq)
  | .tsort _ sl x y nb rel acq => some (captureCommand s 0x0F sl (some x) y nb rel acq)
  | .cpfill _ sl x y nb rel acq => some (captureCommand s 0x16 sl (some x) y nb rel acq)
  | .sqcfg _ sl x y nb rel acq => some (captureCommand s 0x18 sl (some x) y nb rel acq)
  | .sqbind _ sl x y nb rel acq => some (captureCommand s 0x19 sl (some x) y nb rel acq)
  | .sqstage _ sl x y nb rel acq => some (captureCommand s 0x1A sl (some x) y nb rel acq)
  | .sqtake _ sl x y nb rel acq => some (captureCommand s 0x1B sl (some x) y nb rel acq)
  | .sqjudge _ sl y nb rel acq => some (captureCommand s 0x1C sl none y nb rel acq)
  | .sqstat _ sl x y nb rel acq => some (captureCommand s 0x1D sl (some x) y nb rel acq)
  | _ => none

/-- A command finds its engine's queue full (R87, R245). -/
def commandHeld (i : Instr) (s : State) : Bool :=
  match commandOf i s with
  | none => false
  | some c => match routeCommand (clusterOf s.cur.core) (dieOf s.cur.core) c with
    | .ok e => decide (16 ≤ (engineOf s e).queue.length)
    | .error _ => false

/-! What stops an operation (R145, R146, R350). -/

/-- A source of a lichen bundle lies in the lichen files (R34, R216). -/
def lichenSrc (lim : Nat) : SSrc → Bool
  | .reg r => decide (r.val < lim)
  | _ => true

/-- The form is one that a lichen bundle may hold (R35, R216). -/
def lichenLegal : Instr → Bool
  | .jmp _ _ => true
  | .jmpl _ _ => true
  | .jr _ s => decide (s.val < 4)
  | .call _ _ => true
  | .calll _ _ => true
  | .ret _ => true
  | .mbr _ _ _ _ _ _ _ _ _ _ => true
  | .loop _ c _ => decide (c.val < 4)
  | .loopi _ _ _ => true
  | .lexit _ => true
  | .drain _ => true
  | .trap _ _ => true
  | .csrr _ d _ => decide (d.val < 4)
  | .csrw _ s _ => decide (s.val < 4)
  | .csrwValue _ _ _ => true
  | .seal _ => true
  | .lshare _ _ => true
  | .brk _ _ => true
  | .xmovC _ s fl d => decide (s.val < 4) && fl.lichenAccepts d.val
  | .kli _ d _ => decide (d.val < 4)
  | .kliLong _ d _ => decide (d.val < 4)
  | .add _ _ d x y => decide (d.val < 8) && lichenSrc 8 x && lichenSrc 8 y
  | .sub _ _ d x y => decide (d.val < 8) && lichenSrc 8 x && lichenSrc 8 y
  | .and _ _ d x y => decide (d.val < 8) && lichenSrc 8 x && lichenSrc 8 y
  | .or _ _ d x y => decide (d.val < 8) && lichenSrc 8 x && lichenSrc 8 y
  | .xor _ _ d x y => decide (d.val < 8) && lichenSrc 8 x && lichenSrc 8 y
  | .andn _ _ d x y => decide (d.val < 8) && lichenSrc 8 x && lichenSrc 8 y
  | .sll _ _ d x y => decide (d.val < 8) && lichenSrc 8 x && lichenSrc 8 y
  | .srl _ _ d x y => decide (d.val < 8) && lichenSrc 8 x && lichenSrc 8 y
  | .sra _ _ d x y => decide (d.val < 8) && lichenSrc 8 x && lichenSrc 8 y
  | .rol _ _ d x y => decide (d.val < 8) && lichenSrc 8 x && lichenSrc 8 y
  | .min _ _ d x y => decide (d.val < 8) && lichenSrc 8 x && lichenSrc 8 y
  | .max _ _ d x y => decide (d.val < 8) && lichenSrc 8 x && lichenSrc 8 y
  | .minu _ _ d x y => decide (d.val < 8) && lichenSrc 8 x && lichenSrc 8 y
  | .maxu _ _ d x y => decide (d.val < 8) && lichenSrc 8 x && lichenSrc 8 y
  | .mul _ _ d x y => decide (d.val < 8) && lichenSrc 8 x && lichenSrc 8 y
  | .mulh _ _ d x y => decide (d.val < 8) && lichenSrc 8 x && lichenSrc 8 y
  | .mulhu _ _ d x y => decide (d.val < 8) && lichenSrc 8 x && lichenSrc 8 y
  | .div _ _ d x y => decide (d.val < 8) && lichenSrc 8 x && lichenSrc 8 y
  | .divu _ _ d x y => decide (d.val < 8) && lichenSrc 8 x && lichenSrc 8 y
  | .rem _ _ d x y => decide (d.val < 8) && lichenSrc 8 x && lichenSrc 8 y
  | .remu _ _ d x y => decide (d.val < 8) && lichenSrc 8 x && lichenSrc 8 y
  | .li _ _ d x => decide (d.val < 8) && lichenSrc 8 x
  | .bfx _ _ d x y => decide (d.val < 8) && lichenSrc 8 x && lichenSrc 8 y
  | .bfxu _ _ d x y => decide (d.val < 8) && lichenSrc 8 x && lichenSrc 8 y
  | .bfi _ _ d x y => decide (d.val < 8) && lichenSrc 8 x && lichenSrc 8 y
  | .clz _ _ d x => decide (d.val < 8) && lichenSrc 8 x
  | .ctz _ _ d x => decide (d.val < 8) && lichenSrc 8 x
  | .popc _ _ d x => decide (d.val < 8) && lichenSrc 8 x
  | .sel _ _ d _ x y => decide (d.val < 8) && lichenSrc 8 x && lichenSrc 8 y
  | .cmp _ _ _ _ x y => lichenSrc 8 x && lichenSrc 8 y
  | .lea _ _ d x y _ => decide (d.val < 8) && lichenSrc 8 x && lichenSrc 8 y
  | .xmovAB _ _ fl d x => fl.lichenAccepts d.val && lichenSrc 8 x
  | .xmovpGet _ _ d => decide (d.val < 8)
  | .xmovpSet _ _ _ x => lichenSrc 8 x
  | .sxt _ _ d x _ => decide (d.val < 8) && lichenSrc 8 x
  | .zxt _ _ d x _ => decide (d.val < 8) && lichenSrc 8 x
  | .abs _ _ d x => decide (d.val < 8) && lichenSrc 8 x
  | .bswap _ _ d x => decide (d.val < 8) && lichenSrc 8 x
  | .brev _ _ d x => decide (d.val < 8) && lichenSrc 8 x
  | .cmpu _ _ _ _ x y => lichenSrc 8 x && lichenSrc 8 y
  | .ldb _ fl d x y => fl.lichenAccepts d.val && lichenSrc 8 x && lichenSrc 8 y
  | .ldbu _ fl d x y => fl.lichenAccepts d.val && lichenSrc 8 x && lichenSrc 8 y
  | .ldh _ fl d x y => fl.lichenAccepts d.val && lichenSrc 8 x && lichenSrc 8 y
  | .ldhu _ fl d x y => fl.lichenAccepts d.val && lichenSrc 8 x && lichenSrc 8 y
  | .ldw _ fl d x y => fl.lichenAccepts d.val && lichenSrc 8 x && lichenSrc 8 y
  | .stb _ fl d x y => fl.lichenAccepts d.val && lichenSrc 8 x && lichenSrc 8 y
  | .sth _ fl d x y => fl.lichenAccepts d.val && lichenSrc 8 x && lichenSrc 8 y
  | .stw _ fl d x y => fl.lichenAccepts d.val && lichenSrc 8 x && lichenSrc 8 y
  | .rld _ fl d x y => fl.lichenAccepts d.val && lichenSrc 8 x && lichenSrc 8 y
  | .rst _ fl d x y => fl.lichenAccepts d.val && lichenSrc 8 x && lichenSrc 8 y
  | .qst _ _ x y => lichenSrc 8 x && lichenSrc 8 y
  | .gld _ d x y _ _ => decide (d.val < 8) && lichenSrc 8 x && lichenSrc 8 y
  | .gst _ d x y _ _ => decide (d.val < 8) && lichenSrc 8 x && lichenSrc 8 y
  | .gatom _ d x y _ _ _ => decide (d.val < 8) && lichenSrc 8 x && lichenSrc 8 y
  | .mli _ d y => decide (d.val < 8) && lichenSrc 8 y
  | .madd _ d x y => decide (d.val < 8) && lichenSrc 8 x && lichenSrc 8 y
  | .xmovM _ fl d x => fl.lichenAccepts d.val && lichenSrc 8 x
  | .irst _ fl d x y _ => fl.lichenAccepts d.val && lichenSrc 8 x && lichenSrc 8 y
  | .pld _ vp x y => vp.isNone && lichenSrc 8 x && lichenSrc 8 y
  | .pst _ vp x y => vp.isNone && lichenSrc 8 x && lichenSrc 8 y
  | .cpy _ _ x y _ _ _ => lichenSrc 4 x && lichenSrc 4 y
  | .cpy2d _ _ x y _ _ _ => lichenSrc 4 x && lichenSrc 4 y
  | .cpyt _ _ x y _ _ _ => lichenSrc 4 x && lichenSrc 4 y
  | .cpyg _ _ x y _ _ _ => lichenSrc 4 x && lichenSrc 4 y
  | .cpys _ _ x y _ _ _ => lichenSrc 4 x && lichenSrc 4 y
  | .strm _ _ x y _ _ _ => lichenSrc 4 x && lichenSrc 4 y
  | .strmx _ _ x y _ _ _ => lichenSrc 4 x && lichenSrc 4 y
  | .cpyx _ _ x y _ _ _ => lichenSrc 4 x && lichenSrc 4 y
  | .mcast _ _ x y _ _ _ => lichenSrc 4 x && lichenSrc 4 y
  | .rot _ x y _ _ _ _ => lichenSrc 4 x && lichenSrc 4 y
  | .binit _ x y _ => lichenSrc 4 x && lichenSrc 4 y
  | .bidle _ x => lichenSrc 4 x
  | .barv _ x y => lichenSrc 4 x && lichenSrc 4 y
  | .qpush _ x y _ => lichenSrc 4 x && lichenSrc 4 y
  | .tsort _ _ x y _ _ _ => lichenSrc 4 x && lichenSrc 4 y
  | .fli _ d x => decide (d.val < 4) && lichenSrc 4 x
  | .fadd _ d x y => decide (d.val < 4) && lichenSrc 4 x && lichenSrc 4 y
  | .fsub _ d x y => decide (d.val < 4) && lichenSrc 4 x && lichenSrc 4 y
  | .fsll _ d x y => decide (d.val < 4) && lichenSrc 4 x && lichenSrc 4 y
  | .xmovF _ fl d x => fl.lichenAccepts d.val && lichenSrc 4 x
  | .cpstat _ d x => decide (d.val < 4) && lichenSrc 4 x
  | .cpfill _ _ x y _ _ _ => lichenSrc 4 x && lichenSrc 4 y
  | .sqcfg _ _ x y _ _ _ => lichenSrc 4 x && lichenSrc 4 y
  | .sqbind _ _ x y _ _ _ => lichenSrc 4 x && lichenSrc 4 y
  | .sqstage _ _ x y _ _ _ => lichenSrc 4 x && lichenSrc 4 y
  | .sqtake _ _ x y _ _ _ => lichenSrc 4 x && lichenSrc 4 y
  | .sqjudge _ _ y _ _ _ => lichenSrc 4 y
  | .sqstat _ _ x y _ _ _ => lichenSrc 4 x && lichenSrc 4 y
  | _ => false

/-- FMT as captured by an `mcall` is usable (R65). -/
def fmtOk (f : Word) : Bool :=
  let code (n : Nat) : Bool := n == 1 || n == 2 || (decide (6 ≤ n) && decide (n ≤ 8))
  let blk (n : Nat) : Bool := decide (6 ≤ n)
  let af := bits f 8 4
  let bf := bits f 12 4
  bits f 28 2 != 3 && code af && code bf && blk af == blk bf
    && (!blk af || (decide (bits f 18 3 ≤ 4) && decide (bits f 21 3 ≤ 4)))

/-- The control registers whose write needs privilege (R206). -/
def csrPrivileged (n : Nat) : Bool :=
  decide (8 ≤ n ∧ n ≤ 0x00C) || decide (0x030 ≤ n ∧ n ≤ 0x035) || decide (0x040 ≤ n ∧ n ≤ 0x04F)

/-- The context is in privileged save mode (R181). -/
def inSaveMode (s : State) : Bool :=
  match curGroup s with
  | some g => g.saves s.cur.core
  | none => false

/-- The task was vectored for a pre-emption (R202). -/
def preempted (s : State) : Bool :=
  match curGroup s with
  | some g => g.lastCause == 12
  | none => false

/-- The target of a link-stack return. -/
def linkTop (t : Task) : Word := t.link.getD (t.cd - 1) 0

/-- What the form itself meets whatever its guard: a form no lichen bundle may hold, a head whose queue the bundle does
not pop, a privileged form outside privileged mode, a return outside save mode (R145, R151, R156, R202). -/
def formStops (i : Instr) (s : State) : List Stop :=
  (if s.cur.lichen && !lichenLegal i then [Stop.illegal 0] else [])
    ++ (if i.queueHeads.all fun q => s.cur.pop.getLsbD q then [] else [Stop.illegal 0])
    ++ (match i with
        | .rft _ _ => if inSaveMode s then [] else [Stop.privilege 0]
        | .lshare _ _ | .mload _ _ _ | .mcancel _ => if privileged s then [] else [Stop.privilege 0]
        | _ => [])

/-- A queue head is read from an empty queue (R151). -/
def headStops (i : Instr) (s : State) : List Stop :=
  (i.queueHeads.filter fun q => queueEmpty s q).map fun q => ⟨3, 0, 4, q, none⟩

/-- What an operation with a true guard meets: the conditions on the context and on the values read at issue. Members of a group that
push to one queue in one bundle are each checked against the count before the bundle (DESIGN CHOICE, unsafe: log entry 95). -/
def valueStops (i : Instr) (s : State) : List Stop :=
  let t := curTask s
  let illegalIf (c : Bool) (slot : Nat) : List Stop := if c then [Stop.illegal slot] else []
  let near (n align : Nat) (x y : SSrc) : List Stop := nearStops s 3 s.cur.core (sumAddr s x y) n align
  match i with
  | .call _ _ => illegalIf (t.cd == 8) 0
  | .calll _ _ => illegalIf (t.cd == 8) 0
  | .ret _ => illegalIf (t.cd == 0) 0
  | .loop _ c _ => illegalIf (kVal s c != 0 && t.ld == 4) 0
  | .loopi _ _ n => illegalIf (n != 0 && t.ld == 4) 0
  | .lexit _ => illegalIf (t.ld == 0) 0
  | .susp _ _ _ => illegalIf (t.depth != 0) 0
  | .suspTarget _ _ _ => illegalIf (t.depth != 0) 0
  | .endTask _ => illegalIf (t.depth != 0) 0
  | .irrev _ _ => illegalIf (t.depth != 0) 0
  | .irrevTarget _ _ => illegalIf (t.depth != 0) 0
  | .rgopen _ _ => illegalIf (t.depth == 4) 0
  | .rgclose _ => illegalIf (t.depth == 0) 0
  | .rft _ _ => illegalIf (inSaveMode s && preempted s && t.depth != 0) 0
  | .csrw _ _ n => if csrPrivileged n.toNat && !privileged s then [Stop.privilege 0] else []
  | .csrwValue _ n _ => if csrPrivileged n.toNat && !privileged s then [Stop.privilege 0] else []
  | .trap _ code => [Stop.software 0 code.toNat]
  | .mcall _ idx =>
    illegalIf (((coreOf s s.cur.core).mx.entries.getD idx.val none).isNone || !fmtOk t.fmt) 6
  | .ldb _ _ _ x y | .ldbu _ _ _ x y | .stb _ _ _ x y => near 1 1 x y
  | .ldh _ _ _ x y | .ldhu _ _ _ x y | .sth _ _ _ x y => near 2 2 x y
  | .ldw _ _ _ x y | .stw _ _ _ x y => near 4 4 x y
  | .ldd _ _ x y | .std _ _ x y => near 8 8 x y
  | .vld _ _ _ x y _ | .vst _ _ _ x y _ | .vstm _ _ _ x y _ => vectorStops s (sumAddr s x y) 512
  | .vldth _ _ _ x y e =>
    (if (match e with
        | some (m, _) => m.val
        | none => 0) < 4 then [Stop.illegal 3] else [])
      ++ (if 512 ≤ sumAddr s x y + 15 then [Stop.layerAbsent 3] else vectorStops s (sumAddr s x y) 512)
  | .rld _ _ _ x y | .rst _ _ _ x y => remoteStops s (sumAddr s x y)
  | .rvld _ _ _ x y _ | .rvst _ _ _ x y _ => vectorStops s (sumAddr s x y) (2 ^ 15)
  | .qst _ q x y => qstStops s q.val (sumAddr s x y)
  | .gld _ d x y l _ | .gst _ d x y l _ =>
    globalStops s (readReg t .m d.val).toNat (globalAddr s x y) (4 * (l.val + 1)) 4
  | .gatom _ d x y aop w64 _ =>
    let n := if w64 then 8 else 4
    globalStops s (readReg t .m d.val).toNat (globalAddr s x y) (if aop.val = 1 then 2 * n else n) n
  | .irst _ _ _ x y _ => if globalAddr s x y % 4 = 0 then [] else [Stop.misaligned 3]
  | .pld _ vp x y | .pst _ vp x y => if vp.isSome then near 16 16 x y else near 2 2 x y
  | .cpy _ _ x _ _ _ _ | .cpy2d _ _ x _ _ _ _ | .cpyg _ _ x _ _ _ _ | .cpys _ _ x _ _ _ _ | .strm _ _ x _ _ _ _
  | .strmx _ _ x _ _ _ _ | .cpyx _ _ x _ _ _ _ | .mcast _ _ x _ _ _ _ | .tsort _ _ x _ _ _ _ | .cpfill _ _ x _ _ _ _
  | .sqcfg _ _ x _ _ _ _ | .sqbind _ _ x _ _ _ _ | .sqstat _ _ x _ _ _ _ => blockStops s x
  | .cpyt _ sl x y nb rel acq => blockStops s x ++ cpytStops s sl x y nb rel acq
  | .rot _ x y _ _ l _ =>
    nearStops s 7 s.cur.core (srcVal s .f x).toNat (16 * (l.val + 1)) 16
      ++ nearStops s 7 s.cur.core (srcVal s .f y).toNat (16 * (l.val + 1)) 16
  | .binit _ x _ _ => illegalIf ((barRef (clusterOf s.cur.core) (srcVal s .f x)).1 != clusterOf s.cur.core) 7
  | .bidle _ x => illegalIf ((barRef (clusterOf s.cur.core) (srcVal s .f x)).1 != clusterOf s.cur.core) 7
  | .qpush _ x y q =>
    let m := bits (srcVal s .f y) 0 6
    let target := memberCore (clusterOf s.cur.core) m
    nearStops s 7 s.cur.core (srcVal s .f x).toNat 16 16
      ++ (if 48 ≤ m then [Stop.misaligned 7]
          else if 32 ≤ ((coreOf s target).inbound.getD q.val []).length
              + (s.inFlight.filter fun f => f.target == target && f.queue == q.val).length then
            [Stop.overflow 7 (4 + q.val)]
          else [])
  | .bnld _ x y _ =>
    let ea := (srcVal s .n x + srcVal s .n y).toNat
    (if ea % 16 = 0 ∧ field ea 13 1 = 0 then [] else [Stop.misaligned 8])
      ++ (if ea < 2 ^ 18 ∧ mapped s (nearPA s.cur.core 0) = true then [] else [Stop.layerAbsent 8])
  | _ => []

/-- A stop stands before another (R350): by tier, then by slot, then as R350 names R225 before R224 (log entry 13). -/
def Stop.before (a b : Stop) : Bool :=
  decide (a.tier < b.tier) || (decide (a.tier = b.tier)
    && (decide (a.slot < b.slot) || (decide (a.slot = b.slot) && decide (a.code ≤ b.code))))

/-- The stop that stands first (R350). -/
def firstStop (l : List Stop) : Option Stop := (sortBy Stop.before l).head?

/-- The stops of an operation at issue. -/
def stopsOf (i : Instr) (s : State) : List Stop :=
  formStops i s ++ (if guarded s i then headStops i s ++ valueStops i s else [])

/-- The stop of an operation issued by itself. -/
def stopOf (i : Instr) (s : State) : Option Stop := firstStop (stopsOf i s)

/-! What holds an operation before it issues (R32, R86, R87, R373, R380). -/

/-- The operation stores to a near layer from the M slot. -/
def storesNear : Instr → Bool
  | .stb _ _ _ _ _ | .sth _ _ _ _ _ | .stw _ _ _ _ _ | .std _ _ _ _ | .vst _ _ _ _ _ _ | .vstm _ _ _ _ _ _
  | .rst _ _ _ _ _ | .rvst _ _ _ _ _ _ | .qst _ _ _ _ | .pst _ _ _ _ => true
  | _ => false

/-- Bytes at physical addresses as pieces: bytes that follow one another within a line. -/
def piecesAt : List Nat → List Byte → List Bool → List Piece
  | pa :: pas, b :: bs, x :: xs =>
    match piecesAt pas bs xs with
    | p :: ps =>
      if p.pa = pa + 1 ∧ p.pa % 64 ≠ 0 then { p with pa := pa, bytes := b :: p.bytes, bad := x :: p.bad } :: ps
      else ⟨pa, [b], [x]⟩ :: p :: ps
    | [] => [⟨pa, [b], [x]⟩]
  | _, _, _ => []

/-- The egress entries that the irrevocable bytes among some take, one for each line (R380). -/
def egressPieces (s : State) (pas : List Nat) (bs : List Byte) : Nat :=
  ((piecesAt pas bs (bs.map fun _ => false)).filter fun p => irrevocable s p.pa).length

/-- The egress buffer of a die has no room for some entries (R380). -/
def egressShort (s : State) (d n : Nat) : Bool := n != 0 && decide (8192 < (die s d).egress.length + n)

/-- The egress buffer of a die is full (R380). -/
def egressFull (s : State) (d : Nat) : Bool := egressShort s d 1

/-- The egress entries that an operation takes at issue (R135, R241, R242, R380). -/
def egressNeeds (i : Instr) (s : State) : Nat :=
  let core := s.cur.core
  match i with
  | .irst _ _ _ _ _ _ => 1
  | .gatom _ _ x y _ _ _ =>
    match translate s (clusterOf core) (curProgram s) (globalAddr s x y) ⟨false, false, true⟩ with
    | .ok pa => if irrevocable s pa then 1 else 0
    | .error _ => 0
  | .gst _ _ x y l _ =>
    let n := 4 * (l.val + 1)
    match translateAll s (clusterOf core) (curProgram s) (globalAddr s x y) n ⟨false, true, false⟩ with
    | .ok pas => egressPieces s pas (List.replicate n 0)
    | .error _ => 0
  | _ => 0

/-- How long an M slot's request has lost at a bank of its core's near layer. -/
def mWaited (s : State) (core bank : Nat) : Nat :=
  match s.bankReqs.find? fun r => r.cls == 0 && r.core == core && r.bank == bank with
  | some r => r.waited
  | none => 0

/-- Another request wins the bank against the M slot: it has waited 16 cycles, and longer than the M slot where that has waited
16 too (R85). -/
def mLoses (s : State) (core bank : Nat) : Bool :=
  s.bankReqs.any fun r => r.core == core && r.layer == 2 && r.bank == bank && r.cls != 0
    && decide (16 ≤ r.waited) && (decide (mWaited s core bank < 16) || decide (mWaited s core bank < r.waited))

/-- An `mcall` finds a call that its unit has not accepted, from before a vectoring: it issues once that is accepted (R293, R320;
DESIGN CHOICE: log entry 38). -/
def callStands (i : Instr) (s : State) : Bool :=
  match i with
  | .mcall _ _ => (coreOf s s.cur.core).mx.waiting.isSome
  | _ => false

/-- The late event that holds an operation with a true guard. An access takes 65 egress entries at most, so that a buffer with room
for more is not asked for its lines. -/
def holdOf (i : Instr) (s : State) : Option Nat :=
  let core := s.cur.core
  let lost := !s.cur.lichen && (nearBanks s i).any (mLoses s core)
  if lost then some 2
  else if storesNear i && logHigh s (dieOf core) && !inSaveMode s && !s.cur.lichen then some 7
  else if egressShort s (dieOf core) 256 && egressShort s (dieOf core) (egressNeeds i s) then some 8
  else if callStands i s then some 9
  else if commandHeld i s then some 10
  else none

/-- A group paused by a late event before its bundle issues, in one more cycle of its clock (R32). -/
def pauseGroup (s : State) (gid code : Nat) : State :=
  modGroup s gid fun g => if g.pauseCode = 0 then { g with pauseCode := code, pauseCount := 1 } else { g with pauseCount := g.pauseCount + 1 }

/-! Issue. -/

/-- The operation issues now: its guard holds, and its checks have been made or find nothing. -/
def issues (i : Instr) (s : State) : Bool :=
  guarded s i && (s.cur.checked || ((stopOf i s).isNone && (holdOf i s).isNone))

/-- The one way an operation of a slot issues. Within a bundle its checks have been made; by itself it makes them: a stop
is taken as the exception its rule names, a late event pauses the group. With a false guard it does nothing (R152). -/
def issue (i : Instr) (s : State) (eff : State → State) : Outcome :=
  if s.cur.checked then .next (if guarded s i then eff s else s)
  else match stopOf i s with
    | some st => .next (stopAtIssue s st)
    | none =>
      if guarded s i then
        match holdOf i s with
        | some code => .next (pauseGroup s s.cur.gid code)
        | none => .next (eff s)
      else .next s

end Sys2Proof.Machine
end

