-- ==== Sys2Proof/Machine/Bits.lean ====
section
/-! DEFINITION. The N slot: the bit network, its patterns, and its small file (R287 to R292). -/

namespace Sys2Proof.Machine

open Sys2Proof

/-- The place of the N slot in slot order. -/
def slotN : Nat := 8

/-- The bit a selector byte selects of a 64-bit source, with its inversion (R289). -/
def selectBit (src : Dword) (sel : Byte) : Bool :=
  let n := bits sel 0 7
  Bool.xor (if n < 64 then src.getLsbD n else n == 65) (sel.getLsbD 7)

/-- The word a pattern routes (R291). -/
def routeBits (pat : List Byte) (src : Dword) : Word :=
  (List.range 32).foldl (fun w i => setBit w i (selectBit src (pat.getD i 0))) 0

/-- bnet (R291). -/
def execBnet (g : Guard) (d : Fin 16) (x y : SSrc) (pat : Fin 8) (s : State) : Outcome :=
  issue (.bnet g d x y pat) s fun s =>
    let src : Dword := (srcVal s .n y).setWidth 64 <<< 32 ||| (srcVal s .n x).setWidth 64
    giveScalar (charge s 1 1) .n slotN 2 d.val (routeBits ((curTask s).patterns.getD pat.val []) src)

/-- bnld: 32 bytes of two banks at one row replace a pattern eight cycles later (R290). -/
def execBnld (g : Guard) (x y : SSrc) (pat : Fin 8) (s : State) : Outcome :=
  issue (.bnld g x y pat) s fun s =>
    let ea := (srcVal s .n x + srcVal s .n y).toNat
    let pa := nearPA s.cur.core ea
    issueResult (charge (charge s 1 1) 4 2) 8 slotN none [.pattern pat.val (readBytes s pa 16 ++ readBytes s (pa + 8192) 16)] 0
      (poisonedAt s pa 16 || poisonedAt s (pa + 8192) 16)

/-- Copies of the low bit, byte or half of a word (R287). -/
def fillWord (x : Word) : Nat → Word
  | 0 => if x.getLsbD 0 then BitVec.allOnes 32 else 0
  | 1 => BitVec.ofNat 32 (bits x 0 8 * 0x01010101)
  | _ => BitVec.ofNat 32 (bits x 0 16 * 0x00010001)

/-- nfill (R287). -/
def execNfill (g : Guard) (d : Fin 16) (x : SSrc) (wc : Fin 3) (s : State) : Outcome :=
  issue (.nfill g d x wc) s fun s => giveScalar (charge s 1 1) .n slotN 1 d.val (fillWord (srcVal s .n x) wc.val)

/-- nli (R287). -/
def execNli (g : Guard) (d : Fin 16) (x : SSrc) (s : State) : Outcome :=
  issue (.nli g d x) s fun s => giveScalar (charge s 1 1) .n slotN 1 d.val (srcVal s .n x)

/-- nadd (R287). -/
def execNadd (g : Guard) (d : Fin 16) (x y : SSrc) (s : State) : Outcome :=
  issue (.nadd g d x y) s fun s => giveScalar (charge s 1 1) .n slotN 1 d.val (srcVal s .n x + srcVal s .n y)

/-- The N-slot xmov (R222, R287). -/
def execXmovN (g : Guard) (fl : File) (d : Fin 32) (x : SSrc) (s : State) : Outcome :=
  issue (.xmovN g fl d x) s fun s => giveXmov (charge s 1 1) slotN fl d.val (srcVal s .n x)

end Sys2Proof.Machine
end

