-- ==== Sys2Proof/Machine/Fronds.lean ====
section
/-! DEFINITION. Frond records: the tests at offer, offering a record to a sorus, and what a suspension point writes when it
completes (R19 to R29, R193 to R197, R212, R329, R438). -/

namespace Sys2Proof.Machine

open Sys2Proof

/-- The sixteen words of a record, read for a cluster through the page table of the record's space (R19); none when a
translation fails, or a peer does not find them (R436). -/
def recordOf (s : State) (cluster space ptr : Nat) : Option (List Word) :=
  match translateThere s cluster space (ptr * 64) 64 ⟨true, false, false⟩ with
  | .ok pas => let bs := readAll s pas; some (tabulate 16 fun i => wordAt bs i)
  | .error _ => none

/-- The members of a width code (R21). -/
def widthOf : Nat → Nat
  | 0 => 1
  | 1 => 2
  | 2 => 4
  | 3 => 8
  | 4 => 16
  | 5 => 24
  | 6 => 48
  | _ => 0

/-- The members a frond occupies: twice its width when it is twin (R21). -/
def occupied (code : Nat) (twin : Bool) : Nat := if twin then 2 * widthOf code else widthOf code

/-- A valid wait entry names a cluster 24 to 31 or a nonzero reserved field (R24). -/
def waitInvalid (w : Word) : Bool := w.getLsbD 31 && (decide (24 ≤ bits w 24 5) || bits w 18 6 != 0)

/-- The first test of R24 that a record fails, as its rejection reason; 0 when it passes. -/
def rejection (s : State) (words : List Word) (creatorPriv : Bool) : Nat :=
  let w0 := words.getD 0 0
  let w1 := words.getD 1 0
  let w2 := words.getD 2 0
  let code := bits w2 16 3
  let twin := w1.getLsbD 0
  let base := bits w2 0 6
  let occ := occupied code twin
  if !programValid s (bits w1 16 16) then 8
  else if code = 7 then 1
  else if twin && code == 6 then 7
  else if base ≠ 63 ∧ (base % occ ≠ 0 ∨ 48 < base + occ) then 2
  else if 255 < bits w2 8 8 + widthOf code - 1 then 3
  else if ((words.drop 3).take 4).any waitInvalid then 4
  else if bits w0 0 2 ≠ 0 then 5
  else if w1.getLsbD 3 && !creatorPriv then 6
  else 0

/-- A launch's outstanding count raised for a record that a task offers (R329). -/
def raiseLaunch (s : State) (launch : Word) : State :=
  match s.dom.launches.find? fun e => e.1 == bits launch 0 16 with
  | some (slot, l) =>
    if l.seq % 65536 = bits launch 16 16 then
      { s with dom := { s.dom with launches := assign s.dom.launches slot { l with outstanding := l.outstanding + 1 } } }
    else s
  | none => s

/-- A frond rejected: word 12 with state 5 and the reason, counted retired for its launch (R24). -/
def rejectFrond (s : State) (cluster : Nat) (f : Frond) (reason : Nat) : State :=
  match setFrondWord s cluster f.space f.ptr 12 (statusWord 5 f.faulted 5 f.cause reason) with
  | none => dropFrond s cluster f
  | some s => retireLaunch (removeFrond s cluster f.ptr f.space) cluster f.launch f.ptr

/-- A frond enters a sorus as waiting, after those that entered before it (R197), and is tested at once (R23, R25). -/
def enterFrond (s : State) (cluster : Nat) (f : Frond) : State :=
  let f := { f with tie := s.nextId }
  let s := modSorus { s with nextId := s.nextId + 1 } cluster fun so => { so with fronds := so.fronds ++ [f] }
  let s := noteFrond s cluster f 1 0
  match (sorusOf s cluster).fronds.find? fun x => x.ptr == f.ptr && x.space == f.space with
  | some f => retestFrond s cluster f
  | none => s

/-- A record offered to a sorus: the tests of R24 in their order, then waiting or runnable (R24, R25). -/
def offerFrond (s : State) (cluster ptr space : Nat) (creatorPriv : Bool) (launch : Word) (p31 : Bool) : State :=
  match recordOf s cluster space ptr with
  | none => dropFrond s cluster
      ⟨ptr, space, launch, [0, 0, 0, 0], 0, .waiting, 0, 0, 0, 0, 0, 0, false, false, false, 0, 0, none, p31, false⟩
  | some words =>
    let f : Frond :=
      { ptr := ptr, space := space, launch := launch, waits := (words.drop 3).take 4, faulted := 0, st := .waiting,
        ready := 0, tie := 0, priority := 0, widthCode := 0, stage := 0, base := 0, pinned := false, roam := false,
        twin := false, lastSusp := 0, cause := 0, hold := none, p31 := p31, broken := false }
    match rejection s words creatorPriv with
    | 0 => enterFrond s cluster f
    | reason => rejectFrond s cluster f reason

/-- Words 14 and 15 written by the creator of a record (R196, R328); none when the access fails. -/
def claimRecord (s : State) (cluster space ptr : Nat) (parent launch : Word) : Option State :=
  match setFrondWord s cluster space ptr 14 parent with
  | some s => setFrondWord s cluster space ptr 15 launch
  | none => none

/-- The sorus `spawn` names (R196). -/
def spawnTarget (core : Nat) (w : Word) : Nat :=
  if bits w 0 5 < 24 then 24 * bits w 5 2 + bits w 0 5 else clusterOf core

/-- STATUS.SF set for a record that is not offered, on both cores of a pair (R196, R386). In a pair the flag is set on both when the
trailing core issues the spawn (DEDUCED, unsafe: log entry 17). -/
def spawnFails (s : State) (core : Nat) : State := (insiders s core).foldl (fun s id => setSticky s id flagSF) s

/-- `n` consecutive records offered from a pointer upward (R196, R197). -/
def spawnRecords (s : State) (g : Group) (core cluster : Nat) (priv : Bool) (p : Word) : Nat → State
  | 0 => s
  | n + 1 =>
    let s :=
      match recordOf s (clusterOf core) g.program p.toNat with
      | none => spawnFails s core
      | some words =>
        if words.getD 12 0 ≠ 0 then spawnFails s core
        else match claimRecord s (clusterOf core) g.program p.toNat (BitVec.ofNat 32 g.frond) g.launch with
          | none => spawnFails s core
          | some s =>
            let p31 := match frondOf s g with
              | some f => f.p31
              | none => false
            offerFrond (raiseLaunch s g.launch) cluster p.toNat g.program priv g.launch p31
    spawnRecords s g core cluster priv (p + 1) n

/-! Suspension points (R27, R29, R193, R194, R212). -/

/-- What last suspension a task records when `susp` or `irrev` ends it: 1, or 3 or 4 after a vectoring it did not leave
(R23, R193). -/
def suspensionCode (g : Group) : Nat := if g.lastCause = 0 then 1 else if g.lastCause = 12 then 4 else 3

/-- The words `susp` writes into the record (R193); none when an access fails. -/
def writeSuspension (s : State) (cluster space ptr : Nat) (target : Word) (waits : List Word) : Option State :=
  match setFrondWord s cluster space ptr 0 target with
  | none => none
  | some s => (List.range 4).foldl (fun acc i => match acc with
      | some s => setFrondWord s cluster space ptr (3 + i) (waits.getD i 0)
      | none => none) (some s)

/-- A routine fault still pending when the task ends is recorded as the trap cause (R313). -/
def leftFault (g : Group) : Option Nat :=
  (g.pending.find? fun c => decide (2 ^ 15 ≤ c.detail) && c.code != 14).map Cause.code

/-- The suspension point completes: the contexts are discarded and the frond returns to its sorus or retires (R29, R193,
R194, R212). -/
def completeSuspension (s : State) (g : Group) (p : Suspension) : State :=
  let fr := (frondOf s g).map fun f => { f with cause := (leftFault g).getD f.cause }
  let how := match p.kind with
    | .endTask => 2
    | _ => suspensionCode g
  let s := traceSuspension s g how ((fr.map Frond.cause).getD 0)
  let s := freeRegions (discardGroup s g) g.frond
  match fr with
  | none => s
  | some f =>
    let again (hold : Option Nat) : State :=
      match writeSuspension s g.cluster f.space f.ptr p.target p.waits with
      | none => dropFrond s g.cluster f
      | some s =>
        let f := { f with waits := p.waits, faulted := 0, st := .waiting, lastSusp := how, hold := hold }
        if p.waits.any waitInvalid then rejectFrond s g.cluster f 4
        else if bits p.target 0 2 ≠ 0 then rejectFrond s g.cluster f 5
        else enterFrond (removeFrond s g.cluster f.ptr f.space) g.cluster f
    match p.kind with
    | .endTask => retireFrond s g.cluster { f with lastSusp := 2 }
    | .susp => again none
    | .irrev n => again (some n)

end Sys2Proof.Machine
end

