-- ==== Sys2Proof/Machine/Control.lean ====
section
/-! DEFINITION. The C slot: transfers, calls, loops, suspension, spawning, formats, traps, control registers, containment
regions and seals, and the effects of a bundle's header (R143, R180 to R215). -/

namespace Sys2Proof.Machine

open Sys2Proof

/-! Transfers (R180, R182). -/

/-- PC + 4 × a signed displacement, modulo 2^32 (R180). -/
def dispTarget (s : State) {n : Nat} (d : BitVec n) : Word := s.cur.pc + BitVec.ofInt 32 (4 * d.toInt)

/-- A taken transfer: the next bundle is the target (R182). -/
def transfer (s : State) (t : Word) : State := { s with cur := { s.cur with target := some t } }

/-- The operations of the C slot are charged as scalar operations (R364). -/
def chargeC (s : State) : State := charge s 1 1

/-- A transfer of the C slot. -/
def transferC (i : Instr) (s : State) (target : State → Word) : Outcome :=
  issue i s fun s => transfer (chargeC s) (target s)

/-- jmp (R185). -/
def execJmp (g : Guard) (disp : BitVec 21) (s : State) : Outcome := transferC (.jmp g disp) s fun s => dispTarget s disp

/-- jmpl (R185). -/
def execJmpl (g : Guard) (target : Word) (s : State) : Outcome := transferC (.jmpl g target) s fun _ => target

/-- jr (R185). -/
def execJr (g : Guard) (k : Fin 16) (s : State) : Outcome := transferC (.jr g k) s fun s => kVal s k

/-! Calls (R186). -/

/-- The sequential address pushed on the link stack, and the transfer. -/
def pushLink (s : State) (target : Word) : State :=
  let s := sign s 60 (curTask s).cd s.cur.seq.toNat
  let s := modCur (chargeC s) fun t => { t with link := t.link.set t.cd s.cur.seq, cd := t.cd + 1 }
  transfer s target

/-- call (R186). -/
def execCall (g : Guard) (disp : BitVec 21) (s : State) : Outcome :=
  issue (.call g disp) s fun s => pushLink s (dispTarget s disp)

/-- calll (R186). -/
def execCalll (g : Guard) (target : Word) (s : State) : Outcome := issue (.calll g target) s fun s => pushLink s target

/-- ret (R186). -/
def execRet (g : Guard) (s : State) : Outcome :=
  issue (.ret g) s fun s =>
    let target := linkTop (curTask s)
    let s := sign s 61 (curTask s).cd target.toNat
    transfer (modCur (chargeC s) fun t => { t with cd := t.cd - 1 }) target

/-! The branch tree (R187). -/

/-- The path a shape selects on the four tests. -/
def treePath (shape : Nat) (a b c d : Bool) : Nat :=
  match shape with
  | 0 => if a then 0 else 4
  | 1 => if a then 0 else if b then 1 else 4
  | 2 => if a then 0 else if b then 1 else if c then 2 else 4
  | 3 => if a then 0 else if b then 1 else if c then 2 else if d then 3 else 4
  | 4 => if a then (if b then 0 else 1) else if c then 2 else 4
  | 5 => if a then (if b then 0 else 1) else if c then 2 else 3
  | 6 => if a then (if b then 0 else if c then 1 else 2) else if d then 3 else 4
  | _ => if a then 0 else if b then (if c then 1 else 2) else if d then 3 else 4

/-- The path an `mbr` with a true guard selects at issue. -/
def selectPath (s : State) (shape : Fin 8) (q0 q1 q2 q3 : Fin 16) : Nat :=
  let p (q : Fin 16) : Bool := readPred (curTask s) q.val
  treePath shape.val (p q0) (p q1) (p q2) (p q3)

/-- The path of a bundle's tree at issue: 4 without a tree, and under a false guard (R154). -/
def pathOf (s : State) : Instr → Nat
  | .mbr g shape q0 q1 q2 q3 _ _ _ _ => if guardHolds s g then selectPath s shape q0 q1 q2 q3 else 4
  | _ => 4

/-- mbr (R187). -/
def execMbr (g : Guard) (shape : Fin 8) (q0 q1 q2 q3 : Fin 16) (t0 t1 t2 t3 : BitVec 16) (s : State) : Outcome :=
  issue (.mbr g shape q0 q1 q2 q3 t0 t1 t2 t3) s fun s =>
    let path := selectPath s shape q0 q1 q2 q3
    let s := chargeC s
    let s := { s with cur := { s.cur with path := path } }
    match path with
    | 0 => transfer s (dispTarget s t0)
    | 1 => transfer s (dispTarget s t1)
    | 2 => transfer s (dispTarget s t2)
    | 3 => transfer s (dispTarget s t3)
    | _ => s

/-! Hardware loops (R188 to R192). -/

/-- An entry pushed on the loop stack. -/
def Task.pushLoop (t : Task) (start exit count : Word) : Task :=
  { t with
    loopA := t.loopA.set t.ld (start &&& 0xFFFFFFFC), loopB := t.loopB.set t.ld (exit &&& 0xFFFFFFFC),
    loopC := t.loopC.set t.ld count, ld := t.ld + 1 }

/-- `loop` and `loopi`: with a count of zero the exit is taken; otherwise the entry is pushed, after the mark of the same
bundle when it carries one (R189, R190). -/
def beginLoop (s : State) (count : Word) (exit : BitVec 17) : State :=
  let out := dispTarget s exit
  let s := sign (chargeC s) 62 out.toNat (s.cur.seq.toNat * 2 ^ 32 + count.toNat)
  if count = 0 then transfer s out
  else if s.cur.marked then { s with cur := { s.cur with post := s.cur.post ++ [.pushLoop s.cur.seq out count] } }
  else modCur s fun t => t.pushLoop s.cur.seq out count

/-- loop (R189). -/
def execLoop (g : Guard) (c : Fin 16) (exit : BitVec 17) (s : State) : Outcome :=
  issue (.loop g c exit) s fun s => beginLoop s (kVal s c) exit

/-- loopi (R189). -/
def execLoopi (g : Guard) (exit : BitVec 17) (count : Word) (s : State) : Outcome :=
  issue (.loopi g exit count) s fun s => beginLoop s count exit

/-- The loss counters that rose since the last snapshot, as class and group, in their order (R413, R414). -/
def risenGroups (c : Core) : List (Nat × Nat) :=
  ((List.range 12).flatMap fun k => (List.range 8).map fun g => (k, g)).filter fun (k, g) =>
    (List.range 4).any fun i => decide (lookup 0 c.lossSeen (32 * k + 4 * g + i) < lookup 0 c.loss (32 * k + 4 * g + i))

/-- The increase a type-6 record reports for one counter (R414). -/
def lossRise (c : Core) (n : Nat) : Nat :=
  let v := lookup 0 c.loss n
  if v = 2 ^ 32 - 1 then 0xFFFF else min 0xFFFF (v - lookup 0 c.lossSeen n)

/-- The snapshot of the loss matrix at a hardware-loop exit (R192, R413, R414). -/
def snapshotLoss (s : State) (core : Nat) (key pc : Word) : State :=
  if !traced s 5 then s
  else if Config.tracePathFull core s.now then trace s core 5 pc s.cur.cycle key.toNat
  else
    let c := coreOf s core
    let gs := risenGroups c
    let s := trace s core 5 pc s.cur.cycle (key.toNat + gs.length * 2 ^ 32)
    let s := gs.foldl (fun s (k, g) =>
      let r (i : Nat) : Nat := lossRise c (32 * k + 4 * g + i) * 2 ^ (32 + 16 * i)
      putRecord s core 6 pc s.cur.cycle (k + 16 * g + r 0 + r 1 + r 2 + r 3)) s
    modCore s core fun c => { c with lossSeen := c.loss }

/-- lexit (R191). -/
def execLexit (g : Guard) (s : State) : Outcome :=
  issue (.lexit g) s fun s =>
    let t := curTask s
    let s := sign s 63 t.ld (t.loopB.getD (t.ld - 1) 0).toNat
    let s := modCur (chargeC s) fun t => { t with ld := t.ld - 1 }
    let s := snapshotLoss s s.cur.core (t.loopA.getD (t.ld - 1) 0) s.cur.pc
    transfer s (t.loopB.getD (t.ld - 1) 0)

/-! Suspension, retirement and new fronds (R193 to R197, R212). -/

/-- The suspension the bundle asks for: rank 0's operands supply every value (R28); from its issue a drain entry that finds
its queue full is discarded (R318). -/
def suspendGroup (s : State) (p : Suspension) : State :=
  let s := modCore (chargeC s) s.cur.core fun c => { c with mx := { c.mx with discard := true } }
  modGroup s s.cur.gid fun g => if g.members.headD 0 = s.cur.core then { g with susp := some p } else g

/-- The wait list `susp` writes (R193). -/
def suspWaits (s : State) : Option (Fin 4) → List Word
  | none => [0, 0, 0, 0]
  | some w => tabulate 4 fun i => readReg (curTask s) .c (4 * w.val + i)

/-- susp with a register target (R193). -/
def execSusp (g : Guard) (k : Fin 16) (w : Option (Fin 4)) (s : State) : Outcome :=
  issue (.susp g k w) s fun s => suspendGroup s ⟨.susp, kVal s k, suspWaits s w⟩

/-- susp with a target in its extension word (R193). -/
def execSuspTarget (g : Guard) (target : Word) (w : Option (Fin 4)) (s : State) : Outcome :=
  issue (.suspTarget g target w) s fun s => suspendGroup s ⟨.susp, target, suspWaits s w⟩

/-- end (R194). -/
def execEndTask (g : Guard) (s : State) : Outcome :=
  issue (.endTask g) s fun s => suspendGroup s ⟨.endTask, 0, [0, 0, 0, 0]⟩

/-- The records of an offer read and offered (R196). -/
def makeOffer (s : State) (o : Offer) : State :=
  match groupOf s o.gid with
  | some g => spawnRecords s g o.core o.cluster o.priv o.ptr o.count
  | none => s

/-- Records offered by the issuing task; of a twin pair the trailing core offers them (R196, R386). They wait for what their
reading has to follow, and for the core's earlier offers (R197). -/
def spawnFrom (s : State) (p c : Fin 16) (n : Nat) : State :=
  let s := chargeC s
  let o : Offer := ⟨s.cur.core, s.cur.gid, s.now, s.cur.scope, spawnTarget s.cur.core (kVal s c), privileged s, kVal s p, n⟩
  if !s.cur.external then s
  else if Offer.ready s o && !s.offers.any (fun x => x.core == o.core) then makeOffer s o
  else { s with offers := s.offers ++ [o] }

/-- spawn (R196). -/
def execSpawn (g : Guard) (p c : Fin 16) (s : State) : Outcome := issue (.spawn g p c) s fun s => spawnFrom s p c 1

/-- spawnn (R196). -/
def execSpawnn (g : Guard) (p c n : Fin 16) (s : State) : Outcome :=
  issue (.spawnn g p c n) s fun s => spawnFrom s p c (min (kVal s n).toNat 256)

/-! Formats and ordering (R198 to R200). -/

/-- setfmt: FMT takes effect four cycles later (R66, R198). -/
def execSetfmt (g : Guard) (k : Fin 16) (s : State) : Outcome :=
  issue (.setfmt g k) s fun s => giveOnly (chargeC s) 0 4 [.fmt (kVal s k)]

/-- setfmt with a value in its extension word (R198). -/
def execSetfmtValue (g : Guard) (value : Word) (s : State) : Outcome :=
  issue (.setfmtValue g value) s fun s => giveOnly (chargeC s) 0 4 [.fmt value]

/-- qwait acts through the checks of its bundle (R199). -/
def execQwait (g : Guard) (s : State) : Outcome := issue (.qwait g) s chargeC

/-- drain: at a scope above 0 what the core issues later waits until its accesses so far have performed; the group goes on
(R123 to R125, R200; log entry 7). -/
def execDrain (g : Guard) (s : State) : Outcome :=
  issue (.drain g) s fun s =>
    let s := chargeC s
    if s.cur.scope = 0 then s
    else
      let core := s.cur.core
      modCur s fun t => { t with
        fences := t.fences.filter (fun f => !accessesDone s core f) ++ [s.now],
        hidden := t.hidden.filter (Veil.holds s core) }

/-! Traps and debug (R201 to R203). -/

/-- trap: taken at issue (R201). -/
def execTrap (g : Guard) (code : BitVec 16) (s : State) : Outcome := issue (.trap g code) s fun s => s

/-- rft: the return from an exception. It leaves privileged save mode; after a pre-emption the task ends as a `susp`
with an empty wait list, otherwise it goes on at the target (R202). -/
def execRft (g : Guard) (k : Fin 16) (s : State) : Outcome :=
  issue (.rft g k) s fun s =>
    let target := kVal s k
    if preempted s then
      let s := suspendGroup s ⟨.susp, target, [0, 0, 0, 0]⟩
      modGroup s s.cur.gid fun g =>
        if g.trailing.contains s.cur.core then { g with trailingSave := false }
        else { g with saveMode := false, trailingSave := g.twin }
    else transfer (leaveSaveMode (chargeC s) s.cur.gid s.cur.core) target

/-- brk: a debug stop at the next boundary when the core's debug enable is set (R203, R361). In a lichen bundle it names no
group and stops nothing, which the spec does not say (DESIGN CHOICE, unsafe: log entry 66). -/
def execBrk (g : Guard) (code : BitVec 16) (s : State) : Outcome :=
  issue (.brk g code) s fun s =>
    let s := chargeC s
    if (coreOf s s.cur.core).dbg.en then
      modGroup s s.cur.gid fun g => { g with
        pending := g.pending ++ [⟨14, code.toNat, [g.rankOf s.cur.core], none⟩] }
    else s

/-! Control registers (R204 to R206). -/

/-- CORE: by position; both cores of a twin pair read the leading core's (R11, R387). -/
def coreRegister (id : Nat) : Word :=
  BitVec.ofNat 32 (columnOf id / 48 * 2 ^ 24 + memberOf id * 2 ^ 18 + dieOf id * 2 ^ 11 + columnOf id)

/-- The core whose identity the issuing context reads (R387). -/
def identity (s : State) : Nat := if s.cur.lichen then s.cur.core else energyHome s s.cur.core

/-- STATUS with its two mode bits (R346). -/
def statusRegister (s : State) : Word :=
  (curTask s).status ||| BitVec.ofNat 32 ((inSaveMode s && !s.cur.lichen).toNat * 2 ^ 15 + (privileged s).toNat * 2 ^ 14)

/-- INTERVAL (R368). -/
def intervalRegister (s : State) : Word :=
  BitVec.ofNat 32 (s.pkg.sealing.toNat * 2 ^ 31 + tagCode s.pkg.intnum * 2 ^ 28 + s.pkg.intnum % 2 ^ 28)

/-- The value of a control register as it stands at issue (R204, R206). -/
def csrRead (s : State) (n : Nat) : Word :=
  let t := curTask s
  let e := (taskOf s (identity s)).energy
  match n with
  | 0x000 => t.fmt
  | 0x001 => statusRegister s
  | 0x002 => coreRegister (identity s)
  | 0x003 => t.group
  | 0x004 => t.stage
  | 0x005 => BitVec.ofNat 32 (deviceTime s)
  | 0x006 => t.timeCapture.getD (BitVec.ofNat 32 (deviceTime s / 2 ^ 32))
  | 0x007 => intervalRegister s
  | 0x008 => BitVec.ofNat 32 t.depth
  | 0x010 => BitVec.ofNat 32 (t.cd * 2 ^ 8 + t.ld)
  | 0x030 => t.tvec
  | 0x031 => t.tcause
  | 0x032 => t.tpc
  | 0x033 => BitVec.ofNat 32 (coreOf s s.cur.core).lshare
  | 0x034 => e.setWidth 32
  | 0x035 => t.energyCapture.getD (BitVec.ofNat 32 (bits e 32 32))
  | n =>
    if n ≤ 0x00C then t.rgh.getD (n - 0x009) 0
    else if n ≤ 0x014 then t.loopA.getD (n - 0x011) 0
    else if n ≤ 0x018 then t.loopB.getD (n - 0x015) 0
    else if n ≤ 0x01C then t.loopC.getD (n - 0x019) 0
    else if n ≤ 0x027 then t.link.getD (n - 0x020) 0
    else (coreOf s s.cur.core).eweights.getD (n - 0x040) 0

/-- The value that the leading core's `csrr` of a control register returned in the same bundle, from its signature (R387). -/
def leadingValue (s : State) (n : Nat) : Option Word :=
  match curGroup s with
  | some g =>
    if g.trailing.contains s.cur.core then
      ((g.signatures.getD (g.rankOf s.cur.core) []).find? fun i => i.what == 66 && i.addr == n).map
        fun i => BitVec.ofNat 32 i.data
    else none
  | none => none

/-- The registers that read the leading core's value on a trailing core (R387). -/
def csrPaired (n : Nat) : Bool := n == 5 || n == 6 || n == 7 || n == 0x034 || n == 0x035

/-- The captures a read of TIME or ENERGY makes for the reading context (R206). -/
def captureCsr (s : State) (n : Nat) : State :=
  let e := (taskOf s (identity s)).energy
  if n = 0x005 then modCur s fun t => { t with timeCapture := some (BitVec.ofNat 32 (deviceTime s / 2 ^ 32)) }
  else if n = 0x034 then modCur s fun t => { t with energyCapture := some (BitVec.ofNat 32 (bits e 32 32)) }
  else s

/-- csrr (R204, R206). -/
def execCsrr (g : Guard) (d : Fin 16) (csr : BitVec 12) (s : State) : Outcome :=
  issue (.csrr g d csr) s fun s =>
    let own := csrRead s csr.toNat
    let v := if csrPaired csr.toNat then (leadingValue s csr.toNat).getD own else own
    giveOnly (chargeC (captureCsr (sign s 66 csr.toNat v.toNat) csr.toNat)) 0 2 [.word .c d.val v]

/-- A write of a control register: FMT after four cycles, any other at the next (R66, R205). -/
def writeCsr (s : State) (n : Nat) (v : Word) : State :=
  if n = 0 then giveOnly (chargeC s) 0 4 [.fmt v] else giveOnly (chargeC s) 0 1 [.csr n v]

/-- csrw (R205). -/
def execCsrw (g : Guard) (k : Fin 16) (csr : BitVec 12) (s : State) : Outcome :=
  issue (.csrw g k csr) s fun s => writeCsr s csr.toNat (kVal s k)

/-- csrw with a value in its extension word (R205). -/
def execCsrwValue (g : Guard) (csr : BitVec 12) (value : Word) (s : State) : Outcome :=
  issue (.csrwValue g csr value) s fun s => writeCsr s csr.toNat value

/-! Regions, seals, the share (R208 to R213). -/

/-- rgopen (R208). -/
def execRgopen (g : Guard) (disp : BitVec 17) (s : State) : Outcome :=
  issue (.rgopen g disp) s fun s =>
    let h := dispTarget s disp
    modCur (sign (chargeC s) 64 (curTask s).depth h.toNat) fun t => { t with rgh := t.rgh.set t.depth h, depth := t.depth + 1 }

/-- The egress entries of every die changed. -/
def mapEgress (s : State) (f : Egress → Egress) : State :=
  { s with dies := s.dies.map fun d => { d with egress := d.egress.map f } }

/-- A writer of a core's region at a level becomes one of the enclosing region when the core closes it, or no region's. -/
def Writer.fold (frond level core : Nat) (w : Writer) : Writer :=
  if w = .region frond level core then (if level = 1 then .other else .region frond (level - 1) core) else w

/-- A remote access with its writer changed. -/
def RemoteAccess.mapWriter (f : Writer → Writer) (r : RemoteAccess) : RemoteAccess :=
  match r.op with
  | .store cs w => { r with op := .store cs (f w) }
  | .load _ _ _ _ => r

/-- Every write under way with its writer changed. -/
def mapWriters (s : State) (f : Writer → Writer) : State :=
  let cmd (c : Command) : Command := { c with writer := f c.writer }
  { s with
    dom := { s.dom with
      engines := s.dom.engines.map fun (k, e) => (k, { e with queue := e.queue.map cmd, running := e.running.map cmd }),
      loads := s.dom.loads.map fun l => { l with writer := f l.writer } },
    globals := s.globals.map fun x => { x with writer := f x.writer },
    groups := s.groups.map fun g => { g with tiles := g.tiles.map fun t => { t with writer := f t.writer } },
    cores := s.cores.map fun (k, c) => (k, { c with task := { c.task with remotes := c.task.remotes.map (RemoteAccess.mapWriter f) } }) }

/-- A region of a frond is open at a level or deeper on a core of its group, as it stands. -/
def regionOpen (s : State) (frond depth : Nat) : Bool :=
  s.groups.any fun g => g.frond == frond && g.all.any fun id => decide (depth ≤ (taskOf s id).depth)

/-- The entries of a region that a core closes become the enclosing region's, or are freed; so do the writes under way, the
hold on the core's egress entries, and the entanglement, which stays with the cores that have the region open (R209, R380 to
R382). -/
def foldRegion (s : State) (frond depth core : Nat) : State :=
  let mine (e : RegionUndo) : Bool := e.frond == frond && e.level == depth && e.core == core
  let up : Option (Nat × Nat) := if depth = 1 then none else some (frond, depth - 1)
  let s := mapWriters s (Writer.fold frond depth core)
  let s := mapEgress s fun e => if e.issuer = core ∧ e.region = some (frond, depth) then { e with region := up } else e
  let knotted := s.dom.entangled.contains (frond, depth)
  let left := if regionOpen s frond depth then s.dom.entangled else s.dom.entangled.filter fun e => e != (frond, depth)
  if depth = 1 then
    { s with dom := { s.dom with regionLog := s.dom.regionLog.filter (fun e => !mine e), entangled := left } }
  else
    let s := { s with dom := { s.dom with
      regionLog := s.dom.regionLog.map (fun e => if mine e then { e with level := depth - 1 } else e), entangled := left } }
    boundRegion (if knotted then entangle s frond (depth - 1) else s) frond (depth - 1)

/-- rgclose (R209). -/
def execRgclose (g : Guard) (s : State) : Outcome :=
  issue (.rgclose g) s fun s =>
    let d := (curTask s).depth
    let s := modCur (sign (chargeC s) 65 d 0) fun t => { t with depth := t.depth - 1 }
    match curGroup s with
    | some g => foldRegion s g.frond d s.cur.core
    | none => s

/-- A seal requested by the issuing core; of a twin pair by the trailing one (R211, R386). -/
def sealFrom (s : State) : State := if s.cur.external then requestSeal s else s

/-- seal (R211). -/
def execSeal (g : Guard) (s : State) : Outcome := issue (.seal g) s fun s => sealFrom (chargeC s)

/-- irrev: a seal, and a suspension that the sorus holds until the interval has sealed (R212). -/
def execIrrev (g : Guard) (k : Fin 16) (s : State) : Outcome :=
  issue (.irrev g k) s fun s =>
    sealFrom (suspendGroup s ⟨.irrev s.pkg.intnum, kVal s k, [0, 0, 0, 0]⟩)

/-- irrev with a target in its extension word (R212). -/
def execIrrevTarget (g : Guard) (target : Word) (s : State) : Outcome :=
  issue (.irrevTarget g target) s fun s =>
    sealFrom (suspendGroup s ⟨.irrev s.pkg.intnum, target, [0, 0, 0, 0]⟩)

/-- lshare: from the next bundle boundary (R213). -/
def execLshare (g : Guard) (share : BitVec 7) (s : State) : Outcome :=
  issue (.lshare g share) s fun s => giveOnly (chargeC s) 0 1 [.csr 0x033 (share.setWidth 32)]

/-! Immediates and copies (R214, R215). -/

/-- The C-slot xmov (R215). -/
def execXmovC (g : Guard) (k : Fin 16) (fl : File) (d : Fin 32) (s : State) : Outcome :=
  issue (.xmovC g k fl d) s fun s => giveXmov (chargeC s) 0 fl d.val (kVal s k)

/-- kli (R214). -/
def execKli (g : Guard) (d : Fin 16) (imm : BitVec 17) (s : State) : Outcome :=
  issue (.kli g d imm) s fun s => giveOnly (chargeC s) 0 1 [.word .c d.val (imm.signExtend 32)]

/-- kli with a value in its extension word (R214). -/
def execKliLong (g : Guard) (d : Fin 16) (value : Word) (s : State) : Outcome :=
  issue (.kliLong g d value) s fun s => giveOnly (chargeC s) 0 1 [.word .c d.val value]

/-! The header's effects (R143, R144, R171, R190). -/

/-- An idle bundle: nothing (R144). -/
def execIdleBundle (s : State) : Outcome := .next s

/-- The innermost loop closed by a mark: back to its start, or out of it (R190). -/
def closeLoop (s : State) : State :=
  let t := curTask s
  let i := t.ld - 1
  let c := t.loopC.getD i 0
  let s := sign s 67 t.ld (c.toNat * 2 ^ 32 + (t.loopA.getD i 0).toNat)
  if 1 < c.toNat then
    transfer (modCur s fun t => { t with loopC := t.loopC.set i (c - 1) }) (t.loopA.getD i 0)
  else
    let s := modCur s fun t => { t with loopC := t.loopC.set i 0, ld := i }
    snapshotLoss s s.cur.core (t.loopA.getD i 0) s.cur.pc

/-- The loop-end mark: nothing when the C slot has taken a transfer; an illegal bundle without a loop (R143, R190). -/
def execLoopEndMark (s : State) : Outcome :=
  if s.cur.target.isSome then .next s
  else if (curTask s).ld = 0 then .next (stopAtIssue s (Stop.illegal 0))
  else .next (closeLoop s)

/-- Each queue named is popped once; a queue that is empty is an underflow (R143, R151). -/
def popQueue (s : State) (q : Nat) : State :=
  if q < 4 then modCur s fun t => { t with queues := modifyAt t.queues q fun l => l.drop 1 }
  else modCore s s.cur.core fun c => { c with inbound := modifyAt c.inbound (q - 4) fun l => l.drop 1 }

/-- The queues a mask names. -/
def queuesOf (mask : BitVec 8) : List Nat := (List.range 8).filter fun q => mask.getLsbD q

/-- The pops of a bundle (R143, R151). -/
def execQueuePop (mask : BitVec 8) (s : State) : Outcome :=
  match (queuesOf mask).filter fun q => queueEmpty s q with
  | [] => .next ((queuesOf mask).foldl popQueue s)
  | q :: _ =>
    if s.cur.checked then .next ((queuesOf mask).foldl popQueue s)
    else .next (stopAtIssue s ⟨3, 0, 4, q, none⟩)

end Sys2Proof.Machine
end

