-- ==== Sys2Proof/Machine/Egress.lean ====
section
/-! DEFINITION. The egress buffers: how an irrevocable write enters one, and the read-modify-write of an atomic
(R133, R135, R241, R376, R380). -/

namespace Sys2Proof.Machine

open Sys2Proof

/-- Cycles of the arithmetic clock in a number of microseconds (R1). -/
def cyclesOfMicros (n : Nat) : Nat := 1250 * n

/-- The region a writer belongs to. -/
def regionOf : Writer → Option (Nat × Nat)
  | .region f l _ => some (f, l)
  | .other => none

/-- EHWM, where 0 acts as 1 (R380). -/
def egressMark (s : State) : Nat := max 1 (bits s.pkg.egrcfg 0 14)

/-- A seal asked for by egress pressure: its cut keeps MINGAP from the previous one; a seal under way that has not cut meets
the request as it stands (R376, R380). -/
def requestEgressSeal (s : State) : State :=
  match s.seals.phase with
  | .none =>
    let t := requestSeal s
    if t.seals.phase = .none then t else { t with seals := { t.seals with egressWanted := true } }
  | .agreement =>
    let t := requestSeal s
    { t with seals := { t.seals with egressWanted := true } }
  | .quiesce => s
  | .checkpoint => s

/-- An irrevocable write takes one entry of the buffer of a die; at the mark a seal is requested (R380). -/
def egressAdd (s : State) (d : Nat) (e : Egress) : State :=
  let s := modDie s d fun x => { x with egress := x.egress ++ [e] }
  if egressMark s ≤ (die s d).egress.length then requestEgressSeal s else s

/-! Atomics (R133, R241). -/

/-- The new value of an atomic's location: `n` is its width in bits (R44, R241). -/
def atomicResult (aop n mem operand second : Nat) : Nat :=
  match aop with
  | 0 => operand
  | 1 => if mem = operand then second else mem
  | 2 => (mem + operand) % 2 ^ n
  | 3 => (floatAdd .fp32 Env.plain mem operand).1
  | 4 => Nat.land mem operand
  | 5 => Nat.lor mem operand
  | 6 => Nat.xor mem operand
  | 7 => if sextNat mem n ≤ sextNat operand n then mem else operand
  | 8 => if sextNat mem n ≤ sextNat operand n then operand else mem
  | 9 => min mem operand
  | _ => max mem operand

end Sys2Proof.Machine
end

