-- ==== Sys2Proof/Machine/Streams.lean ====
section
/-! DEFINITION. What the computing commands of the streaming engine and of the teller work out: the handle checks of a
command, reads and writes through handles, `strm`, `strmx`, `cpyx` and `tsort` (R58, R90, R99, R100, R246 to R252, R258,
R437). An error is the reason a command is refused for. -/

namespace Sys2Proof.Machine

open Sys2Proof

/-! Handles at work (R90, R92, R246). -/

/-- The region that serves an address, and the layer of the tower, where 0 is none of them; a window of the device itself is
served as what it names (R424). -/
def servedRegion (s : State) (pa : Nat) : Nat := namedAddress s pa / 2 ^ 48
def servedLayer (s : State) (pa : Nat) : Nat := if servedRegion s pa = 1 then field (namedAddress s pa) 43 3 else 0

/-- The command is one of the copies, which alone write the weight layer (R70). -/
def Command.isCopy (c : Command) : Bool := decide (c.op ≤ 9) || c.op == 0x16

/-- A handle a command names, when the command may use it so (R90, R246 reasons 1, 2, 3 and 6). Without SR it does not write
the stores (R79), and only a copy writes the weight layer (R70): the reasons 3 and 5 that these two give are DEDUCED (log
entry 67). -/
def Command.useHandle (s : State) (c : Command) (h : Nat) (rd wr : Bool) : Except Nat Handle :=
  let e := c.handle h
  if !e.valid || decide (2 ≤ e.kind) then .error 1
  else if e.program != c.program then .error 2
  else if (rd && !e.rd) || (wr && !e.wr) || (wr && !e.sr && servedRegion s e.base == 2) then .error 3
  else if rd && servedLayer s e.base == 1 then .error 6
  else if wr && !c.isCopy && servedLayer s e.base == 1 then .error 5
  else .ok e

/-- An extent lies in a handle and in mapped memory (R246 reasons 4 and 8). -/
def Handle.reach (s : State) (h : Handle) (o n : Nat) : Except Nat Unit :=
  if h.len < o + n then .error 4
  else if (List.range n).all fun i => mapped s (h.pa (o + i)) then .ok ()
  else .error 8

/-- Bytes read through a handle, each with its poison (R391). -/
def Handle.bytesAt (s : State) (h : Handle) (o n : Nat) : List (Byte × Bool) :=
  tabulate n fun i => (readByte s (h.pa (o + i)), poisonedAt s (h.pa (o + i)) 1)

/-- The bytes of an extent, or the reason it cannot be read. -/
def Handle.readAt (s : State) (h : Handle) (o n : Nat) : Except Nat (List (Byte × Bool)) :=
  match h.reach s o n with
  | .error r => .error r
  | .ok _ => .ok (h.bytesAt s o n)

/-- Bytes cut where their lines, the columns of a tower handle, and 64 bytes of their own order end (R377); `i` counts the
bytes before them. -/
def cutPieces (h : Handle) (o i : Nat) : Nat → List (Byte × Bool) → List Piece
  | 0, _ => []
  | _, [] => []
  | fuel + 1, bs =>
    let line := min (64 - h.pa o % 64) (64 - i % 64)
    let n := max 1 (if h.kind = 1 then min line (h.span - o % h.span) else line)
    ⟨h.pa o, (bs.take n).map Prod.fst, (bs.take n).map Prod.snd⟩ :: cutPieces h (o + n) (i + n) fuel (bs.drop n)

/-- The writes of bytes through a handle, or the reason they cannot be made. -/
def Handle.writeAt (s : State) (h : Handle) (o : Nat) (bs : List (Byte × Bool)) : Except Nat (List Piece) :=
  match h.reach s o bs.length with
  | .error r => .error r
  | .ok _ => .ok (cutPieces h o 0 bs.length bs)

/-- Bytes as a number, and whether any is poisoned. -/
def numberOf (bs : List (Byte × Bool)) : Nat := leNat (bs.map Prod.fst)
def spoilt (bs : List (Byte × Bool)) : Bool := bs.any Prod.snd

/-- The bytes of a number, all with one poison. -/
def taggedBytes (n v : Nat) (bad : Bool) : List (Byte × Bool) := (leBytes n v).map fun b => (b, bad)

/-- Words written clean. -/
def cleanWords (l : List Nat) : List (Byte × Bool) := l.flatMap fun v => taggedBytes 4 v false

/-- Element `i` of a string of elements of `n` bytes. -/
def elemAt (bs : List (Byte × Bool)) (n i : Nat) : List (Byte × Bool) := (bs.drop (n * i)).take n

/-- A streaming job that ends well: its bytes are counted as they are written (R102). -/
def Job.plain (pieces : List Piece) (flags : Nat) (reads : List SourcePart) : Job := ⟨pieces, 2, 0, flags, 0, 0, none, reads⟩

/-- A job that stops where poison enters the engine's state (R437). -/
def Job.poisoned (pieces : List Piece) : Job := ⟨pieces, 5, 16, 0, 0, 0, none, []⟩

/-- The parts of a source of `n` bytes of which each `inUnit` go into `outUnit` bytes of the output, from its byte `first` on
(R394). -/
def linearParts (first : Nat) (h : Handle) (o n inUnit outUnit : Nat) : List SourcePart :=
  (List.range ((n + inUnit - 1) / inUnit)).map fun k =>
    ⟨first + outUnit * k, first + outUnit * (k + 1), h, o + inUnit * k, min inUnit (n - inUnit * k)⟩

/-- What a command reads through a handle: offset and bytes. -/
abbrev Span := Handle × Nat × Nat

/-- The addresses of the 16-byte parts of a span. -/
def spanRows (x : Span) : List Nat :=
  let (h, o, n) := x
  (((List.range (n / 16 + 2)).map fun i => o / 16 * 16 + 16 * i).filter fun p => decide (p < o + n)).map fun p => h.pa (max p o)

/-- Every byte of a span is there for a peer to answer (R436). -/
def spanAnswers (s : State) (x : Span) : Bool := (spanRows x).all fun pa => peerAnswers s pa

/-- The words of a block with these places are zero (R247). -/
def Command.zeros (c : Command) (l : List Nat) : Bool := l.all fun i => c.word i == 0

/-- The reserved bits of words 0, 2 and 4 are zero (R247). -/
def Command.headOk (c : Command) : Bool :=
  field (c.word 0) 12 4 == 0 && field (c.word 0) 28 4 == 0 && field (c.word 2) 9 23 == 0 && field (c.word 4) 9 23 == 0

/-! `strm` (R250). -/

/-- The bytes that `n` elements of a format take, block formats in groups of 16. -/
def elemsBytes (f : Format) (n : Nat) : Nat :=
  if f.isBlock then (n + 15) / 16 * Format.groupSize f else n * (f.width / 8)

/-- The elements of a chunk stream: of every complete chunk that fits, with the offset of a chunk that does not (R99,
R100). -/
def expandChunks (s : State) (h : Handle) (f : Format) (n : Nat) :
    Nat → Nat → List (Nat × Bool) → List (Nat × Bool) × Nat × Option Nat
  | 0, pos, acc => (acc, pos, none)
  | fuel + 1, pos, acc =>
    if acc.length = n then (acc, pos, none)
    else if h.len < pos + 2 then (acc, pos, some pos)
    else
      let ctl := h.bytesAt s pos 2
      let w := numberOf ctl
      let k := w % 2 ^ 15 + 1
      let es := f.width / 8
      if n < acc.length + k ∨ (w.testBit 15 = false ∧ h.len < pos + 2 + k * es) then (acc, pos, some pos)
      else if w.testBit 15 then
        expandChunks s h f n fuel (pos + 2) (acc ++ List.replicate k (Format.absentCode f, spoilt ctl))
      else
        let bs := h.bytesAt s (pos + 2) (k * es)
        expandChunks s h f n fuel (pos + 2 + k * es + k * es % 2)
          (acc ++ tabulate k fun i => (numberOf (elemAt bs es i), spoilt ctl || spoilt (elemAt bs es i)))

/-- The bytes of a group that hold an element's own field: the two before the elements go into each of them (R50, R437). -/
def spoiltInGroup (f : Format) (g : List (Byte × Bool)) (i : Nat) : Bool :=
  let w := Format.mant f + 1
  let first := (16 + w * i) / 8
  spoilt (g.take 2) || spoilt ((g.drop first).take ((16 + w * i + w - 1) / 8 - first + 1))

/-- The elements of a plain source as values of their format, with the poison of the bytes that each is made of (R437). -/
def sourceVals (f : Format) (bs : List (Byte × Bool)) (n : Nat) : List (Val × Bool) :=
  if f.isBlock then
    let g := Format.groupSize f
    tabulate n fun i => (blockElem f (numberOf (elemAt bs g (i / 16))) (i % 16), spoiltInGroup f (elemAt bs g (i / 16)) (i % 16))
  else
    let es := f.width / 8
    tabulate n fun i => (decodeVal f false (numberOf (elemAt bs es i)), spoilt (elemAt bs es i))

/-- One converted element of an IEEE or integer format (R56). -/
def convertVal (df sf : Format) (mode : Rounding) (v : Val) : Nat × Nat :=
  if df.isFloat then encodeFloat df ⟨mode, false⟩ (if sf.isFloat then Format.fracBits sf else 23) v
  else encodeInt df mode v

/-- One converted element that is not of a block format. -/
def convertPattern (df sf : Format) (mode : Rounding) (x : Nat) : Nat × Nat := convertElem df sf ⟨mode, false⟩ x

/-- Values packed in groups of 16, the last padded with absent (R57, R250). -/
def packGroups (df : Format) (mode : Rounding) (vs : List (Val × Bool)) : List (Byte × Bool) × Nat :=
  let gs := (List.range ((vs.length + 15) / 16)).map fun i =>
    let g := (vs.drop (16 * i)).take 16
    let r := encodeBlock df mode (g.map Prod.fst ++ List.replicate (16 - g.length) .absent)
    (taggedBytes (Format.groupSize df) r.1 (g.any Prod.snd), r.2)
  (gs.flatMap Prod.fst, joinFlags (gs.map Prod.snd))

/-- Elements delivered one after another. -/
def packElems (df : Format) (rs : List ((Nat × Nat) × Bool)) : List (Byte × Bool) × Nat :=
  (rs.flatMap fun ((v, _), bad) => taggedBytes (df.width / 8) v bad, joinFlags (rs.map fun ((_, f), _) => f))

/-- OPT of a `strm`: formats, rounding and expansion, when it is well formed (R250). SO and DO are offsets of bytes, and only EXP
asks an even SO (DESIGN CHOICE, unsafe: log entry 94). -/
def strmOptions (c : Command) : Except Nat (Format × Format × Rounding × Bool) :=
  let o := c.word 9
  match Format.ofCode (field o 0 4), Format.ofCode (field o 4 4) with
  | some sf, some df =>
    let raw := !(sf.isFloat || sf.isInt || sf.isBlock) || !(df.isFloat || df.isInt || df.isBlock)
    let exp := o.testBit 10
    if !c.headOk || field o 11 21 != 0 || !c.zeros [6, 7, 8, 10, 11, 12, 13, 14, 15] || (raw && sf != df)
        || (exp && (!(sf.isFloat || sf.isInt) || c.so % 2 != 0)) then .error 5
    else .ok (sf, df, Rounding.ofCode (field o 8 2), exp)
  | _, _ => .error 5

/-- The elements of a stream with EXP set converted (R99, R100). -/
def expandedOut (sf df : Format) (mode : Rounding) (es : List (Nat × Bool)) : List (Byte × Bool) × Nat :=
  if df.isBlock then packGroups df mode (es.map fun (x, b) => (decodeVal sf false x, b))
  else packElems df (es.map fun (x, b) => (convertPattern df sf mode x, b))

/-- The elements of a plain source converted (R56, R250). From a format into the same one, which R56 has no row for, a raw format
is copied and the others are decoded and encoded, so that a signalling NaN is quieted (DESIGN CHOICE, unsafe: log entry 74). -/
def convertedOut (sf df : Format) (mode : Rounding) (bs : List (Byte × Bool)) (n : Nat) : List (Byte × Bool) × Nat :=
  if sf = df ∧ !(sf.isFloat || sf.isInt || sf.isBlock) then (bs, 0)
  else if df.isBlock then packGroups df mode (sourceVals sf bs n)
  else if sf.isBlock then packElems df ((sourceVals sf bs n).map fun (v, b) => (convertVal df sf mode v, b))
  else packElems df ((List.range n).map fun i =>
    let e := elemAt bs (sf.width / 8) i
    (convertPattern df sf mode (numberOf e), spoilt e))

/-- The end of what an expansion reads: behind its last chunk, or behind the control word that stops it where that word lies in the
handle (R99, R100). -/
def chunksEnd (h : Handle) (stop : Nat) (broken : Option Nat) : Nat :=
  if broken.isSome && decide (stop + 2 ≤ h.len) then stop + 2 else stop

/-- The parts of a chunk stream, by the elements they become (R99, R394). -/
def chunkParts (s : State) (h : Handle) (sf df : Format) (stop : Nat) : Nat → Nat → Nat → List SourcePart
  | 0, _, _ => []
  | fuel + 1, pos, n =>
    if stop ≤ pos then []
    else
      let w := numberOf (h.bytesAt s pos 2)
      let k := w % 2 ^ 15 + 1
      let es := sf.width / 8
      let out (i : Nat) : Nat := if df.isBlock then i / 16 * Format.groupSize df else i * (df.width / 8)
      let size := if w.testBit 15 then 0 else k * es
      ⟨out n, out n + 1, h, pos, 2⟩ :: (linearParts (out n) h (pos + 2) size (16 * es) (out 16)
        ++ chunkParts s h sf df stop fuel (pos + 2 + size + size % 2) (n + k))

/-- What a `strm` meets before it reads: its options, its handles and what of their extents is sure (R90, R250). -/
def strmBegins (s : State) (c : Command) : Except Nat (Format × Format × Rounding × Bool) := do
  let (sf, df, mode, exp) ← strmOptions c
  let hs ← c.useHandle s c.sh true false
  let hd ← c.useHandle s c.dh false true
  let _ ← hd.reach s c.dst (elemsBytes df (c.word 5))
  if !exp then let _ ← hs.reach s c.so (elemsBytes sf (c.word 5))
  return (sf, df, mode, exp)

/-- The work of a `strm` (R250). -/
def strmJob (s : State) (c : Command) : Except Nat Job := do
  let (sf, df, mode, exp) ← strmBegins s c
  let hs := c.handle c.sh
  let hd := c.handle c.dh
  let n := c.word 5
  if exp then
    let (es, stop, broken) := expandChunks s hs sf n (n + 1) c.so []
    let _ ← hs.reach s c.so (min (chunksEnd hs stop broken - c.so) (hs.len - c.so))
    let (out, fl) := expandedOut sf df mode es
    let ps ← hd.writeAt s c.dst out
    let parts := chunkParts s hs sf df stop (n + 1) c.so 0
    match broken with
    | some o => return ⟨ps, 5, 7, fl, BitVec.ofNat 32 o, 0, none, parts⟩
    | none => return Job.plain ps fl parts
  else
    let (out, fl) := convertedOut sf df mode (hs.bytesAt s c.so (elemsBytes sf n)) n
    let ps ← hd.writeAt s c.dst out
    return Job.plain ps fl (linearParts 0 hs c.so (elemsBytes sf n) (elemsBytes sf 16) (elemsBytes df 16))

/-! `strmx` (R251). -/

/-- The format of the groups that a `strmx` writes (R58, R59). -/
def mxTarget (t : Nat) : Format := if t = 0 then .bx6 else .bx9

/-- What a `strmx` meets before it reads (R90, R251). SO, DO and LO are offsets of bytes (DESIGN CHOICE, unsafe: log entry 94). -/
def strmxBegins (s : State) (c : Command) : Except Nat Unit := do
  let t := field (c.word 9) 0 4
  if !c.headOk || field (c.word 9) 4 28 != 0 || field (c.word 10) 12 20 != 0 || !c.zeros [6, 7, 8, 12, 13, 14, 15] then
    .error 5
  if 5 < t then .error 9
  let hs ← c.useHandle s c.sh true false
  let hd ← c.useHandle s c.dh false true
  let hl ← c.useHandle s c.lh true false
  let _ ← hs.reach s c.so (4 * mxWidth t * c.word 5)
  let _ ← hl.reach s c.lo (c.word 5)
  hd.reach s c.dst (2 * Format.groupSize (mxTarget t) * c.word 5)

/-- The work of a `strmx` (R58, R59, R251): the first group of a block is made of its elements 0 to 15, the second of the others
(R58, R437). -/
def strmxJob (s : State) (c : Command) : Except Nat Job := do
  strmxBegins s c
  let t := field (c.word 9) 0 4
  let hs := c.handle c.sh
  let hl := c.handle c.lh
  let n := c.word 5
  let w := mxWidth t
  let g := Format.groupSize (mxTarget t)
  let bs := hs.bytesAt s c.so (4 * w * n)
  let scales := hl.bytesAt s c.lo n
  let blocks := (List.range n).map fun k =>
    let b := elemAt bs (4 * w) k
    let sc := elemAt scales 1 k
    let r := mxBlock t (tabulate 32 fun i => field (numberOf b) (w * i) w) (numberOf sc)
    (r.1.zipIdx.flatMap fun (x, i) => taggedBytes g x (spoilt (elemAt b (2 * w) i) || spoilt sc), r.2)
  let ps ← (c.handle c.dh).writeAt s c.dst (blocks.flatMap Prod.fst)
  let parts := (List.range n).flatMap fun k =>
    [⟨2 * g * k, 2 * g * (k + 1), hs, c.so + 4 * w * k, 4 * w⟩, ⟨2 * g * k, 2 * g * (k + 1), hl, c.lo + k, 1⟩]
  return Job.plain ps (joinFlags (blocks.map Prod.snd)) parts

/-! `cpyx` (R252). -/

/-- One bit of the CRC-32C register. -/
def crcBit (x : Nat) : Nat := if x % 2 = 1 then Nat.xor (x / 2) 0x82F63B78 else x / 2

/-- The register after one byte (R252). -/
def crcByte (crc : Nat) (b : Byte) : Nat := (List.range 8).foldl (fun x _ => crcBit x) (Nat.xor crc b.toNat)

/-- The register after a string of bytes. -/
def crcBytes (crc : Nat) (bs : List Byte) : Nat := bs.foldl crcByte crc

/-- The options and unused words of a `cpyx` are well formed (R247, R252). -/
def cpyxOk (c : Command) : Bool :=
  let ci := field (c.word 9) 0 2
  c.headOk && field (c.word 9) 3 29 == 0 && ci != 3 && c.zeros [6, 7, 8, 10, 11, 15]
    && (ci == 1 || c.word 12 == 0) && (if ci = 2 then decide (c.word 13 < 16) else c.word 13 == 0)
    && ((c.word 9).testBit 2 || c.word 14 == 0)
    && decide (4 ≤ c.word 5) && c.word 5 % 4 == 0 && c.so % 4 == 0 && c.dst % 4 == 0

/-- The status slot a `cpyx` chains from, while its issuer runs (R252). -/
def chainSlot (s : State) (c : Command) : Option (Word × Word) :=
  match groupOn s c.issuer with
  | some g => if g.gid = c.gid ∧ c.core.isSome then (taskOf s c.issuer).slots[c.word 13 % 16]? else none
  | none => none

/-- A `cpyx` waits for the command that its chain slot names (R252). For its own status slot it does not wait, and is refused with
reason 10 (DESIGN CHOICE, safe: log entry 89). -/
def chainWaits (s : State) (c : Command) : Bool :=
  c.op == 0x08 && field (c.word 9) 0 2 == 2 && (match chainSlot s c with
    | some (w, _) => bits w 28 4 == 1 && (taskOf s c.issuer).slotCmds.getD (c.word 13 % 16) 0 != c.id
    | none => false)

/-- The register a `cpyx` starts from (R252, R246 reason 10). -/
def crcStart (s : State) (c : Command) : Except Nat Nat :=
  match field (c.word 9) 0 2 with
  | 0 => .ok 0xFFFFFFFF
  | 1 => .ok (c.word 12)
  | _ => match chainSlot s c with
    | some (w0, w1) => if bits w0 0 6 = 8 ∧ (bits w0 28 4 = 2 ∨ bits w0 28 4 = 3) then .ok w1.toNat else .error 10
    | none => .error 10

/-- What a `cpyx` meets before it reads, and the register it starts from (R90, R252). -/
def cpyxBegins (s : State) (c : Command) : Except Nat Nat := do
  if !cpyxOk c then .error 5
  let hs ← c.useHandle s c.sh true false
  let hd ← c.useHandle s c.dh false true
  let _ ← hs.reach s c.so (c.word 5)
  let _ ← hd.reach s c.dst (c.word 5)
  crcStart s c

/-- The work of a `cpyx` (R252): it stops at the element in which a poisoned byte meets the register (R437). -/
def cpyxJob (s : State) (c : Command) : Except Nat Job := do
  let start ← cpyxBegins s c
  let hs := c.handle c.sh
  let hd := c.handle c.dh
  let bs := hs.bytesAt s c.so (c.word 5)
  let parts := linearParts 0 hs c.so (c.word 5) 64 64
  if spoilt bs then
    let good := (bs.takeWhile fun b => !b.2).length / 4 * 4
    let ps ← hd.writeAt s c.dst (bs.take good)
    return { Job.poisoned ps with reads := parts }
  else
    let ps ← hd.writeAt s c.dst bs
    let crc := crcBytes start (bs.map Prod.fst)
    let differs := (c.word 9).testBit 2 && Nat.xor crc 0xFFFFFFFF != c.word 14
    return ⟨ps, if differs then 3 else 2, if differs then 11 else 0, 0, BitVec.ofNat 32 crc, 0, none, parts⟩

/-! `tsort` (R258). -/

/-- KF, T, NB, GR and SHP of a `tsort`. -/
def Command.keyFormat (c : Command) : Format :=
  match field (c.word 7) 12 2 with
  | 0 => .i32
  | 1 => .i16
  | _ => .i8
def Command.tileRows (c : Command) : Nat := field (c.word 7) 20 8 + 1
def Command.buckets (c : Command) : Nat := field (c.word 7) 0 10 + 1
def Command.gathers (c : Command) : Bool := (c.word 7).testBit 14
def Command.shapes (c : Command) : Bool := (c.word 7).testBit 15
def Command.rowFormat (c : Command) : Format := (Format.ofCode (field (c.word 12) 0 4)).getD .bx9

/-- The block of a `tsort` is well formed (R258). -/
def tsortOk (c : Command) : Bool :=
  let pair (i : Nat) : Bool := field (c.word i) 12 4 == 0 && field (c.word i) 28 4 == 0
  pair 0 && pair 3 && field (c.word 7) 28 4 == 0 && field (c.word 7) 16 4 == 0 && field (c.word 7) 10 2 == 0
    && field (c.word 7) 12 2 != 3 && c.word 15 == 0
    && (if c.gathers then
          pair 8 && field (c.word 12) 4 28 == 0 && (c.rowFormat.isFloat || c.rowFormat.isInt)
            && c.word 11 % (c.rowFormat.width / 8) == 0
        else c.zeros [8, 9, 10, 11, 12])
    && (if c.shapes then field (c.word 13) 12 20 == 0 else c.zeros [13, 14])

/-- The rows of each bucket, and how many keys lie outside every bucket (R258). -/
def Command.sorted (c : Command) (keys : List (Byte × Bool)) : List (List Nat) × Nat :=
  let es := c.keyFormat.width / 8
  let ks := (List.range (c.word 6)).filterMap fun i =>
    let x := numberOf (elemAt keys es i)
    if x = Format.absentCode c.keyFormat then none else some (signedOf (8 * es) x, i)
  let inside (k : Int) : Bool := decide (0 ≤ k) && decide (k < c.buckets)
  ((List.range c.buckets).map fun (b : Nat) => (ks.filter fun (k, _) => k == (b : Int)).map Prod.snd,
    (ks.filter fun (k, _) => !inside k).length)

/-- The running sums of a list, from zero. -/
def sumsBefore (l : List Nat) : List Nat := (l.foldl (fun (acc, n) x => (acc ++ [n], n + x)) (([] : List Nat), 0)).1

/-- The gathered rows of a bucket, and its padding (R258). -/
def gatherRows (s : State) (c : Command) (hr hg : Handle) (first pad : Nat) (rows : List Nat) : Except Nat (List Piece) := do
  let rb := c.word 11
  let es := c.rowFormat.width / 8
  let blank := (List.replicate (rb / es) ()).flatMap fun _ => taggedBytes es (Format.absentCode c.rowFormat) false
  let ps ← (List.range pad).mapM fun j => do
    let bs ← (match rows[j]? with
      | some r => hr.readAt s (c.word 9 + rb * r) rb
      | none => .ok blank)
    hg.writeAt s (c.word 10 + rb * (first + j)) bs
  return ps.flatten

/-- What a `tsort` meets before it reads its keys (R90, R258). -/
def tsortBegins (s : State) (c : Command) : Except Nat Unit := do
  if !tsortOk c then .error 5
  let hk ← c.useHandle s (field (c.word 0) 0 12) true false
  let _ ← c.useHandle s (field (c.word 0) 16 12) false true
  let _ ← c.useHandle s (field (c.word 3) 0 12) false true
  let _ ← c.useHandle s (field (c.word 3) 16 12) false true
  hk.reach s (c.word 1) (c.word 6 * (c.keyFormat.width / 8))

/-- The rows that a `tsort` gathers, each before it is written, behind what it writes first (R258, R394). -/
def gatherParts (c : Command) (first : Nat) (lists : List (List Nat)) (pads : List Nat) : List SourcePart :=
  let rows := (lists.zip pads).flatMap fun (l, pad) => l.map some ++ List.replicate (pad - l.length) none
  rows.zipIdx.flatMap fun (r, i) => match r with
    | some r => linearParts (first + c.word 11 * i) (c.handle (field (c.word 8) 0 12)) (c.word 9 + c.word 11 * r) (c.word 11) 64 64
    | none => []

/-- The work of a `tsort` (R258). -/
def tsortJob (s : State) (c : Command) : Except Nat Job := do
  tsortBegins s c
  let lo (i : Nat) := field (c.word i) 0 12
  let hi (i : Nat) := field (c.word i) 16 12
  let hk := c.handle (lo 0)
  let hp := c.handle (hi 0)
  let hc := c.handle (lo 3)
  let ho := c.handle (hi 3)
  let es := c.keyFormat.width / 8
  let nb := c.buckets
  let keys := hk.bytesAt s (c.word 1) (c.word 6 * es)
  if spoilt keys then return Job.poisoned []
  let (lists, oor) := c.sorted keys
  let counts := lists.map List.length
  let pads := counts.map fun n => c.tileRows * ((n + c.tileRows - 1) / c.tileRows)
  let firsts := sumsBefore pads
  let p0 ← hp.writeAt s (c.word 2) (cleanWords lists.flatten)
  let p1 ← hc.writeAt s (c.word 4) (cleanWords counts)
  let p2 ← ho.writeAt s (c.word 5) (cleanWords (sumsBefore counts))
  let p3 ← (if c.gathers then do
      let hr ← c.useHandle s (lo 8) true false
      let hg ← c.useHandle s (hi 8) false true
      let ps ← (List.range nb).mapM fun b => gatherRows s c hr hg (firsts.getD b 0) (pads.getD b 0) (lists.getD b [])
      return ps.flatten
    else .ok [])
  let p4 ← (if c.shapes then do
      let hs ← c.useHandle s (lo 13) false true
      hs.writeAt s (c.word 14) (cleanWords ((List.range nb).flatMap fun b => [pads.getD b 0, firsts.getD b 0, b, 0]))
    else .ok [])
  let ps := p0 ++ p1 ++ p2 ++ p3 ++ p4
  let before := ((p0 ++ p1 ++ p2).map fun p => p.bytes.length).sum
  let parts := if c.gathers then gatherParts c before lists pads else []
  return ⟨ps, if oor = 0 then 2 else 3, if oor = 0 then 0 else 12, 0, BitVec.ofNat 32 oor, 4, none, parts⟩

/-! What the computing commands read (R88, R250 to R252, R258). -/

/-- The source of a `strm`, as far as its chunks reach when it expands them. -/
def strmSpans (s : State) (c : Command) : List Span :=
  match strmOptions c with
  | .error _ => []
  | .ok (sf, _, _, exp) =>
    let h := c.handle c.sh
    if exp then
      let (_, stop, broken) := expandChunks s h sf (c.word 5) (c.word 5 + 1) c.so []
      [(h, c.so, chunksEnd h stop broken - c.so)]
    else [(h, c.so, elemsBytes sf (c.word 5))]

/-- The keys of a `tsort`, and the rows it gathers. -/
def tsortSpans (s : State) (c : Command) : List Span :=
  let h := c.handle (field (c.word 0) 0 12)
  let n := c.word 6 * (c.keyFormat.width / 8)
  let rows := if c.gathers then (c.sorted (h.bytesAt s (c.word 1) n)).1.flatten else []
  (h, c.word 1, n) :: rows.map fun r => (c.handle (field (c.word 8) 0 12), c.word 9 + c.word 11 * r, c.word 11)

end Sys2Proof.Machine
end

