-- ==== Sys2Proof/Machine/Crozier.lean ====
section
/-! DEFINITION. The Crozier solver sequencer: what each of its commands works out (R395 to R405). Its arithmetic is fp32
under RNE with subnormals at full value (R398). -/

namespace Sys2Proof.Machine

open Sys2Proof

/-! fp32 with flags (R398). -/

/-- A computation on fp32 patterns that gathers flags. -/
abbrev Solver := StateM Nat

/-- A result with its flags gathered. -/
def keepFlags (r : Nat × Nat) : Solver Nat := do
  modify fun f => orFlags f r.2
  return r.1

def addF (a b : Nat) : Solver Nat := keepFlags (floatAdd .fp32 Env.plain a b)
def subF (a b : Nat) : Solver Nat := keepFlags (floatSub .fp32 Env.plain a b)
def mulF (a b : Nat) : Solver Nat := keepFlags (floatMul .fp32 Env.plain a b)
def divF (a b : Nat) : Solver Nat := keepFlags (floatDiv .fp32 Env.plain a b)
def sqrtF (a : Nat) : Solver Nat := keepFlags (floatSqrt .fp32 Env.plain a)
def fmaF (a b c : Nat) : Solver Nat := keepFlags (floatFma .fp32 Env.plain false false a b c)
def maxF (a b : Nat) : Solver Nat := keepFlags (floatMinMax .fp32 Env.plain true a b)

/-- The value of a pattern. -/
def val32 (x : Nat) : Val := decodeVal .fp32 false x

/-- The pattern is the absent code (R39). -/
def absent32 (x : Nat) : Bool := isAbsent .fp32 x

/-- A finite value. -/
def isFinite (x : Nat) : Bool :=
  match val32 x with
  | .real _ _ _ _ => true
  | _ => false

/-- A NaN. -/
def isNaN32 (x : Nat) : Bool :=
  match val32 x with
  | .nan _ _ _ => true
  | _ => false

/-- Order of values. -/
def below (a b : Nat) : Bool := ltVal (val32 a) (val32 b)
def atMost (a b : Nat) : Bool := !below b a

/-- The lesser of two values, and a value held between two others (R8). -/
def lesser (a b : Nat) : Nat := if atMost a b then a else b
def clampF (x lo hi : Nat) : Nat := if below x lo then lo else if below hi x then hi else x

/-- One and positive infinity. -/
def oneF : Nat := 0x3F800000
def infF : Nat := 0x7F800000

/-- A count as fp32. -/
def countF (n : Nat) : Nat := (roundReal .fp32 Env.plain false n 1 0).1

/-- The absent pattern. -/
def absentF : Nat := Format.absentCode .fp32

/-! The configuration (R395, R399). -/

/-- A word of the tableau record. -/
def Crozier.tab (z : Crozier) (i : Nat) : Nat := (z.tableau.getD i 0).toNat

/-- a_ij, b_j, d_j and c_i (R399). -/
def Crozier.ca (z : Crozier) (i j : Nat) : Nat := z.tab ((i - 2) * (i - 1) / 2 + j - 1)
def Crozier.cb (z : Crozier) (j : Nat) : Nat := z.tab (20 + j)
def Crozier.cd (z : Crozier) (j : Nat) : Nat := z.tab (27 + j)
def Crozier.cc (z : Crozier) (i : Nat) : Nat := if i = 1 then 0 else z.tab (33 + i)

/-- The sample record of a number. -/
def Crozier.sample (z : Crozier) (r : Nat) : Sample := lookup Sample.initial z.samples r

/-- The sample is active (R396). -/
def Crozier.active (z : Crozier) (r : Nat) : Bool := (z.sample r).state == 1

/-- The words of the record that belong to a stage above S (R399). -/
def Crozier.unusedWords (stages : Nat) : List Nat :=
  (List.range 8).flatMap fun i =>
    if i ≤ stages then []
    else ((List.range i).filter fun j => decide (1 ≤ j)).map (fun j => (i - 2) * (i - 1) / 2 + j - 1) ++ [20 + i, 27 + i, 33 + i]

/-- A tableau record that `sqcfg` accepts (R399). -/
def Crozier.tableauOk (stages : Nat) (t : List Nat) : Bool :=
  let w (i : Nat) := t.getD i 0
  let zero (x : Nat) : Bool := eqVal (val32 x) (val32 0)
  (List.range 48).all (fun i => isFinite (w i)) && (List.range 16).all (fun i => w (48 + i) == 0)
    && (Crozier.unusedWords stages).all (fun i => zero (w i))
    && below 0 (w 41) && atMost (w 41) oneF
    && below 0 (w 42) && atMost (w 42) (w 43)
    && below 0 (w 44) && atMost 0 (w 45)
    && below 0 (w 46) && atMost (w 46) (w 47)

/-- The words of a byte string. -/
def wordsOf (bs : List (Byte × Bool)) (n : Nat) : List Nat := tabulate n fun i => numberOf (elemAt bs 4 i)

/-- A Crozier job without poison: one arrival of 4 bytes when every write has been performed (R397). -/
def solved (ps : List Piece) (fl : Nat) (w1 : Nat) (z : Crozier) : Job := ⟨ps, 2, 0, fl, BitVec.ofNat 32 w1, 4, some z, []⟩

/-- What a sqcfg meets before it reads its tableau (R90, R399). -/
def sqcfgBegins (s : State) (c : Command) : Except Nat Unit := do
  let w2 := c.word 2
  if field (c.word 0) 12 20 != 0 || field w2 24 8 != 0 || field (c.word 3) 16 16 != 0 || field w2 0 3 < 2
      || field w2 4 4 == 0 || !c.zeros ((List.range 12).map (· + 4)) then .error 5
  if c.word 1 % 4 != 0 then .error 4
  let h ← c.useHandle s (field (c.word 0) 0 12) true false
  h.reach s (c.word 1) 256

/-- sqcfg (R399). -/
def sqcfgJob (s : State) (c : Command) : Except Nat Job := do
  sqcfgBegins s c
  let w2 := c.word 2
  let stages := field w2 0 3
  let bs := (c.handle (field (c.word 0) 0 12)).bytesAt s (c.word 1) 256
  if spoilt bs then return Job.poisoned []
  let t := wordsOf bs 64
  if !Crozier.tableauOk stages t then .error 15
  return solved [] 0 0
    { configured := true, bound := false, stages := stages, fsal := w2.testBit 3, order := field w2 4 4,
      maxRej := field w2 8 8, ns := field w2 16 8 + 1, n := field (c.word 3) 0 16 + 1,
      tableau := t.map (BitVec.ofNat 32), bindings := [], samples := [], taken := 0 }

/-! The bindings (R396, R400). -/

/-- A binding: Y, K, XIN, XOUT, TIN, MASK by its place. -/
def Crozier.binding (z : Crozier) (i : Nat) : Nat × Nat := z.bindings.getD i (0, 0)

/-- A bound handle as the command captured it, with the bound offset, when the command may use it so (R90, R93). -/
def Crozier.buffer (s : State) (c : Command) (z : Crozier) (i : Nat) (rd wr : Bool) : Except Nat (Handle × Nat) :=
  match c.useHandle s (z.binding i).1 rd wr with
  | .error r => .error r
  | .ok h => .ok (h, (z.binding i).2)

/-- The words of MASK (R396). -/
def Crozier.maskBytes (z : Crozier) : List (Byte × Bool) :=
  let m := (List.range z.ns).foldl (fun m r => if z.active r then m + 2 ^ r else m) 0
  taggedBytes (4 * ((z.ns + 31) / 32)) m false

/-- The write of MASK. -/
def Crozier.putMask (s : State) (c : Command) (z : Crozier) : Except Nat (List Piece) := do
  let (h, o) ← z.buffer s c 5 false true
  h.writeAt s o z.maskBytes

/-- A row of `n` words at a bound buffer: the buffer's place, the byte offset within it. -/
def Crozier.readRow (s : State) (c : Command) (z : Crozier) (buf off : Nat) : Except Nat (List (Byte × Bool)) := do
  let (h, o) ← z.buffer s c buf true false
  h.readAt s (o + off) (4 * z.n)

/-- A row written. -/
def Crozier.putRow (s : State) (c : Command) (z : Crozier) (buf off : Nat) (bs : List (Byte × Bool)) :
    Except Nat (List Piece) := do
  let (h, o) ← z.buffer s c buf false true
  h.writeAt s (o + off) bs

/-- The offset of sample r's row, and of its row in history slot j (R396). -/
def Crozier.rowAt (z : Crozier) (r : Nat) : Nat := 4 * (r * z.n)
def Crozier.slotAt (z : Crozier) (j r : Nat) : Nat := 4 * ((j - 1) * z.ns * z.n + r * z.n)

/-- The record `sqbind` gives a sample, with the flags (R400). -/
def startSample (z : Crozier) (t0 h0 tend req : Nat) : Sample × Nat :=
  let state :=
    if req % 2 = 0 then 0
    else if !(isFinite t0 && isFinite h0 && isFinite tend) || atMost h0 0 then 3
    else if atMost tend t0 then 2
    else 1
  let d := subF tend t0 0
  let h := if state = 1 then lesser (clampF h0 (z.tab 46) (z.tab 47)) d.1 else h0
  (⟨state, BitVec.ofNat 32 t0, BitVec.ofNat 32 h, BitVec.ofNat 32 tend, false, 0, 0⟩, if state = 1 then d.2 else 0)

/-- The handle of Y or K lies in the mid or far layer of a tower (R400). -/
def solverLayer (h : Handle) : Bool :=
  h.kind == 1 && h.base / 2 ^ 48 == 1 && (field h.base 43 3 == 3 || field h.base 43 3 == 4)

/-- What a sqbind meets before it reads its initial values (R90, R400). -/
def sqbindBegins (s : State) (c : Command) (z : Crozier) : Except Nat Unit := do
  if !z.configured then .error 14
  let pair (i : Nat) : Bool := field (c.word i) 12 4 == 0 && field (c.word i) 28 4 == 0
  if !(pair 0 && pair 3 && pair 6) || field (c.word 9) 12 20 != 0 || !c.zeros [11, 12, 13, 14, 15] then .error 5
  if [1, 2, 4, 5, 7, 8, 10].any fun i => c.word i % 4 != 0 then .error 4
  let lo (i : Nat) := field (c.word i) 0 12
  let hi (i : Nat) := field (c.word i) 16 12
  let row := 4 * z.ns * z.n
  let y ← c.useHandle s (lo 0) true true
  let k ← c.useHandle s (hi 0) true true
  if !(solverLayer y && solverLayer k) then .error 5
  let xi ← c.useHandle s (lo 3) false true
  let xo ← c.useHandle s (hi 3) true false
  let ti ← c.useHandle s (lo 6) false true
  let _ ← c.useHandle s (hi 6) false true
  let ih ← c.useHandle s (lo 9) true false
  let _ ← y.reach s (c.word 1) row
  let _ ← k.reach s (c.word 2) (z.stages * row)
  let _ ← xi.reach s (c.word 4) row
  let _ ← xo.reach s (c.word 5) row
  let _ ← ti.reach s (c.word 7) (4 * z.ns)
  ih.reach s (c.word 10) (16 * z.ns)

/-- sqbind (R400). -/
def sqbindJob (s : State) (c : Command) (z : Crozier) : Except Nat Job := do
  sqbindBegins s c z
  let lo (i : Nat) := field (c.word i) 0 12
  let hi (i : Nat) := field (c.word i) 16 12
  let bs := (c.handle (lo 9)).bytesAt s (c.word 10) (16 * z.ns)
  let ws := wordsOf bs (4 * z.ns)
  let w (r i : Nat) := ws.getD (4 * r + i) 0
  if (List.range z.ns).any fun r => w r 3 / 2 != 0 then .error 5
  let starts := (List.range z.ns).map fun r => (r, startSample z (w r 0) (w r 1) (w r 2) (w r 3))
  let z' := { z with
    bound := true, bindings :=
      [(lo 0, c.word 1), (hi 0, c.word 2), (lo 3, c.word 4), (hi 3, c.word 5), (lo 6, c.word 7), (hi 6, c.word 8)],
    samples := starts.map fun (r, x) => (r, x.1), taken := 0 }
  let ps ← z'.putMask s c
  if spoilt bs then return Job.poisoned []
  return solved ps (joinFlags (starts.map fun (_, x) => x.2)) 0 z'

/-! Stages (R401, R402). -/

/-- The stage a command names, when it may (R259, R398, R401, R402). -/
def stageOf (c : Command) (z : Crozier) : Except Nat Nat :=
  if c.stageIdx < 1 ∨ 7 < c.stageIdx then .error 5
  else if !(z.configured && z.bound) then .error 14
  else if z.stages < c.stageIdx then .error 5
  else .ok c.stageIdx

/-- The history rows of a sample, of slots 1 to `m`. -/
def historyOf (s : State) (c : Command) (z : Crozier) (r m : Nat) : Except Nat (List (List (Byte × Bool))) :=
  (List.range m).mapM fun j => z.readRow s c 1 (z.slotAt (j + 1) r)

/-- Element `e` of a row. -/
def rowElem (bs : List (Byte × Bool)) (e : Nat) : Nat := numberOf (elemAt bs 4 e)

/-- An element that is computed from a state and a history takes a poisoned byte: the history counts only where the state is
present (R401, R403, R437). -/
def spoiltElem (y : List (Byte × Bool)) (ks : List (List (Byte × Bool))) (e : Nat) : Bool :=
  spoilt (elemAt y 4 e) || (!absent32 (rowElem y e) && ks.any fun k => spoilt (elemAt k 4 e))

/-- One element of a stage's model input (R401). -/
def stageElem (z : Crozier) (i h : Nat) (y : Nat) (ks : List Nat) : Solver Nat :=
  if absent32 y then return absentF
  else ks.zipIdx.foldlM (fun acc (k, j) => do
    let ha ← mulF h (z.ca i (j + 1))
    fmaF ha k acc) y

/-- One sample's row of XIN, and its TIN word (R401). An element that is absent in Y takes nothing from the history, and so none of
its poison (R437). -/
def stageRow (s : State) (c : Command) (z : Crozier) (i r : Nat) : Except Nat (List (Byte × Bool) × Nat × Nat) := do
  if !z.active r then return ((List.range z.n).flatMap fun _ => taggedBytes 4 absentF false, absentF, 0)
  let x := z.sample r
  let y ← z.readRow s c 0 (z.rowAt r)
  let ks ← historyOf s c z r (i - 1)
  let t := fmaF (z.cc i) x.h.toNat x.t.toNat 0
  let es := (List.range z.n).map fun e =>
    let v := stageElem z i x.h.toNat (rowElem y e) (ks.map fun k => rowElem k e) 0
    (taggedBytes 4 v.1 (spoiltElem y ks e), v.2)
  return (es.flatMap Prod.fst, t.1, orFlags t.2 (joinFlags (es.map Prod.snd)))

/-- The rows that go into a row of output, from its byte `first` on, 64 bytes at a time (R394). -/
def Crozier.rowParts (c : Command) (z : Crozier) (first : Nat) (rows : List (Nat × Nat)) : List SourcePart :=
  (List.range ((4 * z.n + 63) / 64)).flatMap fun k => rows.map fun (buf, off) =>
    ⟨first + 64 * k, first + 64 * (k + 1), c.handle (z.binding buf).1, (z.binding buf).2 + off + 64 * k, min 64 (4 * z.n - 64 * k)⟩

/-- The rows of the state and of the history of a sample, of slots 1 to `m` (R396). -/
def Crozier.sourceRows (z : Crozier) (r m : Nat) : List (Nat × Nat) :=
  (0, z.rowAt r) :: (List.range m).map fun j => (1, z.slotAt (j + 1) r)

/-- sqstage: sample by sample, its TIN word and then its row of XIN (R7, R401). -/
def sqstageJob (s : State) (c : Command) (z : Crozier) : Except Nat Job := do
  let i ← stageOf c z
  if !(List.range i).all (fun j => j = 0 || z.taken.getLsbD j) then .error 14
  let rows ← (List.range z.ns).mapM fun r => stageRow s c z i r
  let (xh, xo) ← z.buffer s c 2 false true
  let (th, to') ← z.buffer s c 4 false true
  let ps ← rows.zipIdx.mapM fun (x, r) => do
    let pt ← th.writeAt s (to' + 4 * r) (cleanWords [x.2.1])
    let px ← xh.writeAt s (xo + 4 * z.n * r) x.1
    return pt ++ px
  let parts := (List.range z.ns).flatMap fun r =>
    if z.active r then z.rowParts c ((4 + 4 * z.n) * r + 4) (z.sourceRows r (i - 1)) else []
  return { solved ps.flatten (joinFlags (rows.map fun x => x.2.2)) 0 z with reads := parts }

/-- sqtake (R402). -/
def sqtakeJob (s : State) (c : Command) (z : Crozier) : Except Nat Job := do
  let i ← stageOf c z
  let ps ← ((List.range z.ns).filter fun r => z.active r).mapM fun r => do
    let bs ← z.readRow s c 3 (z.rowAt r)
    z.putRow s c 1 (z.slotAt i r) bs
  let live := (List.range z.ns).filter fun r => z.active r
  let parts := live.zipIdx.flatMap fun (r, k) => z.rowParts c (4 * z.n * k) [(3, z.rowAt r)]
  return { solved ps.flatten 0 0 { z with taken := setBit z.taken i true } with reads := parts }

/-! The judgement (R403, R404). -/

/-- One element of the norm: the new state, and the running sum, compensation and count (R403). -/
def normElem (z : Crozier) (h y : Nat) (ks : List Nat) (acc : Nat × Nat × Nat) : Solver (Nat × Nat × Nat × Nat) := do
  let (sm, cm, np) := acc
  if absent32 y then return (y, sm, cm, np)
  let (yn, u) ← ks.zipIdx.foldlM (fun (yn, u) (k, j) => do
    let hb ← mulF h (z.cb (j + 1))
    let yn ← fmaF hb k yn
    let u ← fmaF (z.cd (j + 1)) k u
    return (yn, u)) (y, 0)
  let er ← mulF h u
  if absent32 yn || absent32 er then return (yn, sm, cm, np)
  let big ← maxF (elemAbs .fp32 y).1 (elemAbs .fp32 yn).1
  let sc ← fmaF (z.tab 45) big (z.tab 44)
  let q ← divF er sc
  let q2 ← mulF q q
  let t ← addF sm q2
  if isFinite sm && isFinite q2 && isFinite t then
    let err := unitsOf (val32 sm) + unitsOf (val32 q2) - unitsOf (val32 t)
    if err = 0 then return (yn, t, cm, np + 1)
    let cm ← addF cm (roundReal .fp32 Env.plain (decide (err < 0)) err.natAbs 1 (-300)).1
    return (yn, t, cm, np + 1)
  else return (yn, t, cm, np + 1)
where
  /-- A finite value as an integer in units of 2 to the −300. -/
  unitsOf : Val → Int
    | .real n m _ e => toInt n (m * 2 ^ (e + 300).toNat)
    | _ => 0

/-- What the norm has so far: the new row with its poison, the sum, its compensation, the count, and whether a poisoned byte
has entered it (R403, R437). -/
structure Norm where
  row : List (Nat × Bool)
  sum : Nat
  comp : Nat
  count : Nat
  hit : Bool

/-- Element `e` taken into the norm (R403). Where a poisoned byte would enter it the command stops, with the flags of the
elements before (R437). -/
def normStep (z : Crozier) (h : Nat) (y : List (Byte × Bool)) (ks : List (List (Byte × Bool))) (a : Norm) (e : Nat) :
    Solver Norm := do
  if a.hit then return a
  let before ← get
  let (yn, sm, cm, np) ← normElem z h (rowElem y e) (ks.map fun k => rowElem k e) (a.sum, a.comp, a.count)
  if spoiltElem y ks e && np != a.count then
    set before
    return { a with hit := true }
  return ⟨a.row ++ [(yn, spoiltElem y ks e)], sm, cm, np, false⟩

/-- The norm of a sample's step, with the new row (R403). -/
def normOf (z : Crozier) (h : Nat) (y : List (Byte × Bool)) (ks : List (List (Byte × Bool))) : Solver (Nat × Norm) := do
  let a ← (List.range z.n).foldlM (normStep z h y ks) ⟨[], 0, 0, 0, false⟩
  if a.hit || a.count == 0 then return (0, a)
  let m ← addF a.sum a.comp
  let q ← divF m (countF a.count)
  let err ← sqrtF q
  return (err, a)

/-- The factor of the next step (R404). -/
def stepFactor (z : Crozier) (err : Nat) (rj : Bool) : Solver Nat := do
  let fx := if rj then oneF else z.tab 43
  if isNaN32 err || err == infF then return z.tab 42
  if eqVal (val32 err) (val32 0) then return fx
  let l ← keepFlags (floatLog2 Env.plain err)
  let e ← divF (elemNeg .fp32 l).1 (countF (z.order + 1))
  let p ← keepFlags (floatExp2 Env.plain e)
  let f ← mulF (z.tab 41) p
  return clampF f (z.tab 42) fx

/-- The step decided: the sample's record, and whether it is accepted (R404). -/
def decide404 (z : Crozier) (x : Sample) (err : Nat) : Solver (Sample × Bool) := do
  let h := x.h.toNat
  let f ← stepFactor z err x.rj
  let hf ← mulF h f
  let hn := clampF hf (z.tab 46) (z.tab 47)
  if !isNaN32 err && atMost err oneF then
    let t ← addF x.t.toNat h
    let x := { x with t := BitVec.ofNat 32 t, conrej := 0, rj := false }
    if atMost x.tend.toNat t then return ({ x with state := 2 }, true)
    let d ← subF x.tend.toNat t
    return ({ x with h := BitVec.ofNat 32 (lesser hn d) }, true)
  else
    let x := { x with conrej := min (x.conrej + 1) 255, totrej := min (x.totrej + 1) 255, rj := true }
    if atMost h (z.tab 46) || (z.maxRej != 0 && decide (z.maxRej ≤ x.conrej)) then return ({ x with state := 3 }, false)
    let d ← subF x.tend.toNat x.t.toNat
    return ({ x with h := BitVec.ofNat 32 (lesser hn d) }, false)

/-- What a judgement has done so far: the Crozier, the writes, what it has read on the way, the flags, the rejected and the
accepted, and whether poison has stopped it. -/
structure Judged where
  z : Crozier
  pieces : List Piece
  reads : List SourcePart
  flags : Nat
  rejected : Nat
  accepted : Nat
  stopped : Bool

/-- One sample judged (R403, R404, R437). Its rows are read whole before the next byte is written (R394). -/
def judgeSample (s : State) (c : Command) (a : Judged) (r : Nat) : Except Nat Judged := do
  let z := a.z
  if a.stopped || !z.active r then return a
  let x := z.sample r
  let y ← z.readRow s c 0 (z.rowAt r)
  let ks ← historyOf s c z r z.stages
  let ((err, n), fl) := normOf z x.h.toNat y ks 0
  let out := (a.pieces.map fun p => p.bytes.length).sum
  let parts := (z.rowParts c 0 (z.sourceRows r z.stages)).map fun p => { p with first := out, last := out + 1 }
  let a : Judged := { a with reads := a.reads ++ parts }
  if n.hit then return { a with stopped := true, flags := orFlags a.flags fl }
  let ((x', ok), fl') := decide404 z x err 0
  let z' := { z with samples := assign z.samples r x' }
  let fl := joinFlags [a.flags, fl, fl']
  if ok then
    let ps ← z.putRow s c 0 (z.rowAt r) (n.row.flatMap fun (v, bad) => taggedBytes 4 v bad)
    let pk ← (if z.fsal then z.putRow s c 1 (z.slotAt 1 r) (ks.getD (z.stages - 1) []) else .ok [])
    return { a with z := z', pieces := a.pieces ++ ps ++ pk, flags := fl, accepted := a.accepted + 1 }
  else return { a with z := z', flags := fl, rejected := a.rejected + 1 }

/-- sqjudge (R403, R404): where poison stops it, what the samples before have left stays (R437). -/
def sqjudgeJob (s : State) (c : Command) (z : Crozier) : Except Nat Job := do
  if !(z.configured && z.bound) then .error 14
  if !(List.range z.stages).all (fun j => z.taken.getLsbD (j + 1)) then .error 14
  let a ← (List.range z.ns).foldlM (judgeSample s c) ⟨z, [], [], 0, 0, 0, false⟩
  if a.stopped then return { Job.poisoned a.pieces with flags := a.flags, croz := some a.z, reads := a.reads }
  let z' := { a.z with taken := if z.fsal then a.z.taken &&& 2 else 0 }
  let ps ← z'.putMask s c
  let live := ((List.range z'.ns).filter fun r => z'.active r).length
  return { solved (a.pieces ++ ps) a.flags (a.rejected + a.accepted * 2 ^ 9 + live * 2 ^ 18) z' with reads := a.reads }

/-! Status (R405). -/

/-- A sample record as `sqstat` writes it (R395). -/
def Sample.record (x : Sample) : Nat :=
  x.t.toNat + x.h.toNat * 2 ^ 32 + x.state * 2 ^ 64 + x.rj.toNat * 2 ^ 66 + x.conrej * 2 ^ 72 + x.totrej * 2 ^ 80
    + x.tend.toNat * 2 ^ 96

/-- sqstat (R405). -/
def sqstatJob (s : State) (c : Command) (z : Crozier) : Except Nat Job := do
  if !z.configured then .error 14
  if field (c.word 0) 12 20 != 0 || !c.zeros ((List.range 14).map (· + 2)) then .error 5
  if c.word 1 % 16 != 0 then .error 4
  let h ← c.useHandle s (field (c.word 0) 0 12) false true
  let ps ← h.writeAt s (c.word 1) ((List.range z.ns).flatMap fun r => taggedBytes 16 (Sample.record (z.sample r)) false)
  return solved ps 0 0 z

/-- What a Crozier command works out. -/
def crozierJob (s : State) (cluster : Nat) (c : Command) : Except Nat Job :=
  let z := crozierOf s cluster
  match c.op with
  | 0x18 => sqcfgJob s c
  | 0x19 => sqbindJob s c z
  | 0x1A => sqstageJob s c z
  | 0x1B => sqtakeJob s c z
  | 0x1C => sqjudgeJob s c z
  | _ => sqstatJob s c z

/-- What a Crozier command meets whatever the bytes that it reads hold (R90). -/
def crozierBegins (s : State) (cluster : Nat) (c : Command) : Except Nat Unit :=
  let z := crozierOf s cluster
  match c.op with
  | 0x18 => sqcfgBegins s c
  | 0x19 => sqbindBegins s c z
  | _ => (crozierJob s cluster c).map fun _ => ()

/-- What a Crozier command reads (R396 to R404). -/
def crozierSpans (s : State) (cluster : Nat) (c : Command) : List Span :=
  let z := crozierOf s cluster
  let live := (List.range z.ns).filter fun r => z.active r
  let row (i off : Nat) : Span := (c.handle (z.binding i).1, (z.binding i).2 + off, 4 * z.n)
  let history (r m : Nat) : List Span := (List.range m).map fun j => row 1 (z.slotAt (j + 1) r)
  match c.op with
  | 0x18 => [(c.handle (field (c.word 0) 0 12), c.word 1, 256)]
  | 0x19 => [(c.handle (field (c.word 9) 0 12), c.word 10, 16 * z.ns)]
  | 0x1A => live.flatMap fun r => row 0 (z.rowAt r) :: history r (c.stageIdx - 1)
  | 0x1B => live.map fun r => row 3 (z.rowAt r)
  | 0x1C => live.flatMap fun r => row 0 (z.rowAt r) :: history r z.stages
  | _ => []

end Sys2Proof.Machine
end

