-- ==== Sys2Proof/Machine/Fabric.lean ====
section
/-! DEFINITION. The F slot: its register forms, the issue and the report of engine commands, rotation, barriers and
messages (R243 to R257). -/

namespace Sys2Proof.Machine

open Sys2Proof

/-- The place of the F slot in slot order. -/
def slotF : Nat := 7

/-- The operations of the F slot are charged as scalar operations (R364). -/
def chargeF (s : State) : State := charge s 1 1

/-! Register forms (R243). -/

/-- A result of the F slot for its own file. -/
def giveF (s : State) (lat : Nat) (d : Fin 16) (v : Word) : State := giveScalar (chargeF s) .f slotF lat d.val v

/-- fli (R243). -/
def execFli (g : Guard) (d : Fin 16) (x : SSrc) (s : State) : Outcome :=
  issue (.fli g d x) s fun s => giveF s 1 d (srcVal s .f x)

/-- fadd (R243). -/
def execFadd (g : Guard) (d : Fin 16) (x y : SSrc) (s : State) : Outcome :=
  issue (.fadd g d x y) s fun s => giveF s 1 d (srcVal s .f x + srcVal s .f y)

/-- fsub (R243). -/
def execFsub (g : Guard) (d : Fin 16) (x y : SSrc) (s : State) : Outcome :=
  issue (.fsub g d x y) s fun s => giveF s 1 d (srcVal s .f x - srcVal s .f y)

/-- fsll (R243). -/
def execFsll (g : Guard) (d : Fin 16) (x y : SSrc) (s : State) : Outcome :=
  issue (.fsll g d x y) s fun s => giveF s 1 d (srcVal s .f x <<< bits (srcVal s .f y) 0 5)

/-- The F-slot xmov (R222, R243). -/
def execXmovF (g : Guard) (fl : File) (d : Fin 32) (x : SSrc) (s : State) : Outcome :=
  issue (.xmovF g fl d x) s fun s => giveXmov (chargeF s) slotF fl d.val (srcVal s .f x)

/-- The word of a status slot that `cpstat` names (R243). -/
def slotWord (t : Task) (x : Word) : Word :=
  let e := t.slots.getD (bits x 0 4) (0, 0)
  if x.getLsbD 4 then e.2 else e.1

/-- cpstat (R243). -/
def execCpstat (g : Guard) (d : Fin 16) (x : SSrc) (s : State) : Outcome :=
  issue (.cpstat g d x) s fun s => giveF s 2 d (slotWord (curTask s) (srcVal s .f x))

/-! Reports of engine commands (R246). -/

/-- Word 0 of a status slot (R246). -/
def slotStatus (state reason flags op : Nat) : Word :=
  BitVec.ofNat 32 (state * 2 ^ 28 + reason * 2 ^ 16 + flags % 32 * 2 ^ 8 + op)

/-- A status slot of a core takes a command's report, unless another command holds it (R246). -/
def writeSlot (s : State) (c : Command) (core : Nat) (w0 w1 : Word) : State :=
  modTask s core fun t =>
    if t.slotCmds.getD c.slot 0 = c.id then { t with slots := t.slots.set c.slot (w0, w1) } else t

/-- The status of a command recorded where its issuer reads it, on both cores of a twin pair (R246, R386, R387). -/
def reportCommand (s : State) (c : Command) (state reason : Nat) (w1 : Word) : State :=
  match c.core with
  | some core => (insiders s core).foldl (fun s id => writeSlot s c id (slotStatus state reason c.flags c.op) w1) s
  | none => s

/-- The barrier cause of a command's reason (R101, R246). -/
def reasonCause (reason : Nat) : Nat :=
  match reason with
  | 7 => 4
  | 8 => 5
  | 16 => 7
  | _ => 3

/-- A node of a packet's graph changed. -/
def Packet.setNode (p : Packet) (n : Nat) (f : Node → Node) : Packet := { p with nodes := modifyAt p.nodes n f }

/-- The state with an accepted packet changed. -/
def modPacket (s : State) (seq : Nat) (f : Packet → Packet) : State :=
  { s with dom := { s.dom with packets := s.dom.packets.map fun p => if p.seq = seq then f p else p } }

/-- A copy packet's command has ended: the packet, or the node of its graph, is complete, or has failed with the reason
(R326, R331, R336). -/
def reportPacket (s : State) (c : Command) (failed : Bool) (reason : Nat) : State :=
  match c.packet, c.node with
  | none, _ => s
  | some q, none => modPacket s q fun p => { p with ready := true, detail := if failed then 4 * 4096 + reason else 0 }
  | some q, some n => modPacket s q fun p => Packet.setNode p n fun x =>
      { x with st := if failed then .failed else .completed, reason := if failed then reason else 0 }

/-- A command ends: its barrier marked when it is refused or faulted, its status, its packet (R90, R246). -/
def closeCommand (s : State) (c : Command) (state reason : Nat) (w1 : Word) : State :=
  let failed := 4 ≤ state
  let s := if failed ∧ c.nb = false then markFaulted s c.barCluster c.bar (reasonCause reason) else s
  reportPacket (reportCommand s c state reason w1) c failed reason

/-! Engine commands as they issue (R244, R245). -/

/-- The identifier of a command issued by a trailing core: the one its leading core gave it in the same bundle (R386). -/
def leadingId (s : State) (slot : Nat) : Option Nat :=
  match curGroup s with
  | some g =>
    if g.trailing.contains s.cur.core then
      ((g.signatures.getD (g.rankOf s.cur.core) []).find? fun i => i.what == 48 && i.addr == slot).map SigItem.data
    else none
  | none => none

/-- The status slot takes state 1, and an earlier command in it reports no more (R246). -/
def openSlot (s : State) (slot op id : Nat) : State :=
  if s.cur.lichen then s
  else modCur s fun t => { t with
    slots := t.slots.set slot (slotStatus 1 0 0 op, 0), slotCmds := t.slotCmds.set slot id }

/-- A command issues: its block and handles are captured, its slot shows it accepted, and its engine takes it, or it is
refused at once when a handle that decides the engine will not do (R244, R245). The four rows of its block are charged (R364). -/
def issueCommand (i : Instr) (op : Nat) (slot : Fin 16) (x : Option SSrc) (y : SSrc) (nb rel acq : Bool) (s : State) :
    Outcome :=
  issue i s fun s =>
    let s := chargeF s
    let c := captureCommand s op slot x y nb rel acq
    let c := { c with id := (leadingId s slot.val).getD c.id }
    let s := charge s 4 (c.block.length / 4)
    let s := openSlot { s with nextId := max (s.nextId + 1) (c.id + 1) } slot.val op c.id
    let block := c.block.foldr (fun w n => w.toNat + 2 ^ 32 * n) 1
    let s := sign (sign s 48 slot.val c.id) 49 (op * 2 ^ 32 + c.barCluster * 1024 + c.bar)
      (block * 2 ^ 32 + c.stageIdx * 8 + (if nb then 4 else 0) + (if rel then 2 else 0) + (if acq then 1 else 0))
    if s.cur.external then
      match routeCommand (clusterOf s.cur.core) (dieOf s.cur.core) c with
      | .error reason => closeCommand s c 4 reason 0
      | .ok e => modEngine s e fun g => { g with queue := g.queue ++ [c] }
    else s

/-- cpy (R244, R248). -/
def execCpy (g : Guard) (slot : Fin 16) (x y : SSrc) (nb rel acq : Bool) (s : State) : Outcome :=
  issueCommand (.cpy g slot x y nb rel acq) 0x01 slot (some x) y nb rel acq s

/-- cpy2d (R244, R248). -/
def execCpy2d (g : Guard) (slot : Fin 16) (x y : SSrc) (nb rel acq : Bool) (s : State) : Outcome :=
  issueCommand (.cpy2d g slot x y nb rel acq) 0x02 slot (some x) y nb rel acq s

/-- cpyt (R244, R248, R249). -/
def execCpyt (g : Guard) (slot : Fin 16) (x y : SSrc) (nb rel acq : Bool) (s : State) : Outcome :=
  issueCommand (.cpyt g slot x y nb rel acq) 0x03 slot (some x) y nb rel acq s

/-- cpyg (R244, R248). -/
def execCpyg (g : Guard) (slot : Fin 16) (x y : SSrc) (nb rel acq : Bool) (s : State) : Outcome :=
  issueCommand (.cpyg g slot x y nb rel acq) 0x04 slot (some x) y nb rel acq s

/-- cpys (R244, R248). -/
def execCpys (g : Guard) (slot : Fin 16) (x y : SSrc) (nb rel acq : Bool) (s : State) : Outcome :=
  issueCommand (.cpys g slot x y nb rel acq) 0x05 slot (some x) y nb rel acq s

/-- strm (R244, R250). -/
def execStrm (g : Guard) (slot : Fin 16) (x y : SSrc) (nb rel acq : Bool) (s : State) : Outcome :=
  issueCommand (.strm g slot x y nb rel acq) 0x06 slot (some x) y nb rel acq s

/-- strmx (R244, R251). -/
def execStrmx (g : Guard) (slot : Fin 16) (x y : SSrc) (nb rel acq : Bool) (s : State) : Outcome :=
  issueCommand (.strmx g slot x y nb rel acq) 0x07 slot (some x) y nb rel acq s

/-- cpyx (R244, R252). -/
def execCpyx (g : Guard) (slot : Fin 16) (x y : SSrc) (nb rel acq : Bool) (s : State) : Outcome :=
  issueCommand (.cpyx g slot x y nb rel acq) 0x08 slot (some x) y nb rel acq s

/-- mcast (R244, R253). -/
def execMcast (g : Guard) (slot : Fin 16) (x y : SSrc) (nb rel acq : Bool) (s : State) : Outcome :=
  issueCommand (.mcast g slot x y nb rel acq) 0x09 slot (some x) y nb rel acq s

/-- tsort (R244, R258). -/
def execTsort (g : Guard) (slot : Fin 16) (x y : SSrc) (nb rel acq : Bool) (s : State) : Outcome :=
  issueCommand (.tsort g slot x y nb rel acq) 0x0F slot (some x) y nb rel acq s

/-- cpfill (R244, R248). -/
def execCpfill (g : Guard) (slot : Fin 16) (x y : SSrc) (nb rel acq : Bool) (s : State) : Outcome :=
  issueCommand (.cpfill g slot x y nb rel acq) 0x16 slot (some x) y nb rel acq s

/-- sqcfg (R244, R259). -/
def execSqcfg (g : Guard) (slot : Fin 16) (x y : SSrc) (nb rel acq : Bool) (s : State) : Outcome :=
  issueCommand (.sqcfg g slot x y nb rel acq) 0x18 slot (some x) y nb rel acq s

/-- sqbind (R244, R259). -/
def execSqbind (g : Guard) (slot : Fin 16) (x y : SSrc) (nb rel acq : Bool) (s : State) : Outcome :=
  issueCommand (.sqbind g slot x y nb rel acq) 0x19 slot (some x) y nb rel acq s

/-- sqstage (R244, R259). -/
def execSqstage (g : Guard) (slot : Fin 16) (x y : SSrc) (nb rel acq : Bool) (s : State) : Outcome :=
  issueCommand (.sqstage g slot x y nb rel acq) 0x1A slot (some x) y nb rel acq s

/-- sqtake (R244, R259). -/
def execSqtake (g : Guard) (slot : Fin 16) (x y : SSrc) (nb rel acq : Bool) (s : State) : Outcome :=
  issueCommand (.sqtake g slot x y nb rel acq) 0x1B slot (some x) y nb rel acq s

/-- sqjudge (R244, R259). -/
def execSqjudge (g : Guard) (slot : Fin 16) (y : SSrc) (nb rel acq : Bool) (s : State) : Outcome :=
  issueCommand (.sqjudge g slot y nb rel acq) 0x1C slot none y nb rel acq s

/-- sqstat (R244, R259). -/
def execSqstat (g : Guard) (slot : Fin 16) (x y : SSrc) (nb rel acq : Bool) (s : State) : Outcome :=
  issueCommand (.sqstat g slot x y nb rel acq) 0x1D slot (some x) y nb rel acq s

/-! Rotation (R254). -/

/-- The core a rank's tile goes to: its neighbour on the ring of its own parity. -/
def ringNeighbour (g : Group) (core : Nat) (dir : Bool) : Nat :=
  let ring := if g.trailing.contains core then g.trailing else g.members
  let w := ring.length
  let r := Group.rankOf g core
  ring.getD (if dir then (r + w - 1) % w else (r + 1) % w) core

/-- The requests a tile makes of the banks it enters, one for each row (R85, R254). -/
def tileRequests (target ea n id : Nat) : List BankRequest :=
  requestsAt target 5 id ((List.range (n / 16)).map fun j => ea + 16 * j)

/-- A tile leaves with its requests (R254). -/
def Tile.send (s : State) (t : Tile) (put : State → State) : State :=
  let s := put s
  { s with nextId := s.nextId + 1, bankReqs := s.bankReqs ++ tileRequests t.target t.addr t.bytes.length t.id }

/-- The cycles from a `rot` to the delivery of its tile (R254). -/
def rotLatency (n : Nat) : Nat := 8 + (n + 255) / 256

/-- A tile sent to a ring neighbour: its barrier counts it once for a twin pair (R254, R386). -/
def sendTile (s : State) (g : Group) (target ea : Nat) (bs : List Byte) (bad : List Bool) (bar : Option Nat) : State :=
  let t : Tile := ⟨s.nextId, s.cur.cycle + rotLatency bs.length, target, ea, bs, if s.cur.external then bar else none, bad,
    writerOf s⟩
  t.send s fun s => modGroup s g.gid fun g => { g with tiles := g.tiles ++ [t] }

/-- A tile of the lichen context, which has no group and rotates into its own column (R254). -/
def sendLichenTile (s : State) (ea : Nat) (bs : List Byte) (bad : List Bool) (bar : Option Nat) : State :=
  let t : Tile := ⟨s.nextId, s.now + rotLatency bs.length, s.cur.core, ea, bs, bar, bad, .other⟩
  t.send s fun s => modCore s s.cur.core fun c => { c with lichen := { c.lichen with tiles := c.lichen.tiles ++ [t] } }

/-- rot (R254). -/
def execRot (g : Guard) (x y : SSrc) (cnt dir : Bool) (len1 bar : Fin 1024) (s : State) : Outcome :=
  issue (.rot g x y cnt dir len1 bar) s fun s =>
    let n := 16 * (len1.val + 1)
    let a := (srcVal s .f x).toNat
    let ea := (srcVal s .f y).toNat
    let bs := readBytes s (nearPA s.cur.core a) n
    let bad := nearPoison s a n
    let bar := if cnt then some bar.val else none
    let s := sign (charge (chargeF s) 4 (n / 16)) 50 (ea * 2 ^ 16 + len1.val) (leNat bs)
    match curGroup s with
    | some g => sendTile s g (ringNeighbour g s.cur.core dir) ea bs bad bar
    | none => sendLichenTile s ea bs bad bar

/-! Barriers (R255, R256). -/

/-- A barrier initialised, or returned to idle: an over-arrival is a cause of the issuer's group with the barrier as its
detail, or one of the lichen context (R104, R255, R362). -/
def startBarrier (s : State) (x : BarStart) : State :=
  let cluster := x.key / 1024
  let b := x.key % 1024
  let z := barrierOf s cluster b
  match x.start with
  | none => setBarrier s cluster b { z with init := false, arrived := 0, expected := 0, fault := false, fcause := 0 }
  | some (expected, scope) =>
    let (z, test, past) := z.start expected scope x.gid
    let s := setBarrier s cluster b z
    let s := if test then retestAll s else s
    if past = false then s
    else if x.lichen then lichenFault s x.core
    else modGroup s x.gid fun g => { g with pending := g.pending ++ [⟨6, b, [g.rankOf x.core], none⟩] }

/-- In a cycle under way it waits for the arrivals and the faults of the cycle (R106). -/
def noteStart (s : State) (x : BarStart) : State := if s.gather then { s with starts := s.starts ++ [x] } else startBarrier s x

/-- binit (R104, R255). -/
def execBinit (g : Guard) (x y : SSrc) (scope : Fin 7) (s : State) : Outcome :=
  issue (.binit g x y scope) s fun s =>
    let (bc, b) := barRef (clusterOf s.cur.core) (srcVal s .f x)
    let expected := (srcVal s .f y).toNat
    let s := sign (chargeF s) 51 (bc * 1024 + b) (expected * 8 + scope.val)
    if s.cur.external then
      noteStart s ⟨s.cur.core, s.cur.gid, s.cur.lichen, barKey bc b, some (expected, scope.val)⟩
    else s

/-- bidle: the barrier returns to idle with its generation (R255). -/
def execBidle (g : Guard) (x : SSrc) (s : State) : Outcome :=
  issue (.bidle g x) s fun s =>
    let (bc, b) := barRef (clusterOf s.cur.core) (srcVal s .f x)
    let s := sign (chargeF s) 52 (bc * 1024 + b) 0
    if s.cur.external then noteStart s ⟨s.cur.core, s.cur.gid, s.cur.lichen, barKey bc b, none⟩ else s

/-- barv: an arrival, once the accesses before it have performed (R102, R255). -/
def execBarv (g : Guard) (x y : SSrc) (s : State) : Outcome :=
  issue (.barv g x y) s fun s =>
    let core := s.cur.core
    let (bc, b) := barRef (clusterOf core) (srcVal s .f x)
    let n := (srcVal s .f y).toNat
    let s := sign (chargeF s) 53 (bc * 1024 + b) n
    if !s.cur.external then s
    else if accessesDone s core s.now then arrive s bc b n
    else { s with lateArrivals := s.lateArrivals ++ [⟨core, s.now, barKey bc b, n⟩] }

/-! Messages (R257). -/

/-- qpush: the message leaves for the inbound queue (R257). -/
def execQpush (g : Guard) (x y : SSrc) (q : Fin 4) (s : State) : Outcome :=
  issue (.qpush g x y q) s fun s =>
    let a := (srcVal s .f x).toNat
    let target := memberCore (clusterOf s.cur.core) (bits (srcVal s .f y) 0 6)
    let bs := readBytes s (nearPA s.cur.core a) 16
    let bad := poisonedAt s (nearPA s.cur.core a) 16
    let s := sign (charge (chargeF s) 4 1) 54 (target * 4 + q.val) (leNat bs)
    if s.cur.external then { s with inFlight := s.inFlight ++ [⟨target, q.val, bs, s.now, s.cur.core, bad⟩] } else s

end Sys2Proof.Machine
end

