-- ==== Sys2Proof/Machine/Engines.lean ====
section
/-! DEFINITION. The engines: how a command starts, is refused, moves its bytes and ends (R87 to R90, R111, R126 to R128,
R246 to R253, R377, R380). -/

namespace Sys2Proof.Machine

open Sys2Proof

/-! The start of a copy (R247, R248, R253). -/

/-- The words beyond the first five that a copy uses (R248, R253). -/
def usedWords (op : Nat) : List Nat :=
  match op with
  | 0x01 => [5]
  | 0x02 => [5, 6, 7, 8]
  | 0x03 => [5, 6, 7, 8, 9]
  | 0x04 => [5, 6, 7, 8, 10, 11, 12]
  | 0x05 => [5, 6, 7, 8, 9, 10, 11, 12]
  | 0x09 => [5, 12, 13]
  | _ => [5, 12]

/-- EF of a `cpys` with SKIP set (R232, R248). -/
def skipFormat (c : Command) : Option Format :=
  if c.op = 5 ∧ (c.word 9).testBit 4 then Format.ofCode (field (c.word 9) 12 4) else none

/-- The block of a copy is well formed (R247, R248, R253). -/
def copyFormOk (c : Command) : Bool :=
  let n0 := c.word 5
  let n1 := c.word 6
  let o := c.word 9
  c.headOk && c.zeros (((List.range 11).map (· + 5)).filter fun i => !(usedWords c.op).contains i)
    && c.so % c.es == 0 && c.dst % c.es == 0 && c.word 7 % c.es == 0 && c.word 8 % c.es == 0
    && (match c.op with
        | 0x01 => decide (4 ≤ n0) && n0 % 4 == 0
        | 0x02 => decide (1 ≤ n0) && decide (4 ≤ n1) && n1 % 4 == 0
        | 0x03 => decide (1 ≤ n0) && decide (1 ≤ n1) && o / 4 == 0 && o % 4 != 3
        | 0x04 | 0x05 =>
          decide (1 ≤ c.word 12) && n1 % 4 == 0 && field (c.word 10) 12 20 == 0 && c.lo % 4 == 0
            && (c.op == 4 || (field o 0 4 == 0 && field o 5 7 == 0 && field o 16 16 == 0
                && (if o.testBit 4 then decide (field o 12 4 ≤ 5) else field o 12 4 == 0)))
        | 0x16 => n0 % 4 == 0 && c.sh == 0 && c.so == 0
        | _ => n0 % 16 == 0 && field (c.word 13) 16 16 == 0)

/-- A tower handle of the near layer of a cluster (R253). -/
def nearOf (h : Handle) (cluster : Nat) : Bool :=
  h.kind == 1 && h.base / 2 ^ 48 == 1 && field h.base 43 3 == 2 && clusterOf (towerCore h.base) == cluster
    && field h.base 24 11 / 48 == (field h.base 24 11 + h.cols - 1) / 48

/-- Every receiver of a multicast lies in its destination handle (R253). -/
def receiversOk (c : Command) : Bool :=
  let h := c.handle c.dh
  let m0 := field h.base 24 11 % 48
  c.receivers.all fun m =>
    let o : Int := c.dst + ((m : Int) - m0) * h.span
    decide (m0 ≤ m) && decide (m < m0 + h.cols) && decide (0 ≤ o) && decide (o.toNat + c.word 5 ≤ h.len)

/-- What a copy meets before it reads its list: its form and its handles, the list's among them (R90, R246). -/
def copyBegins (s : State) (c : Command) : Except Nat Unit := do
  if !copyFormOk c then .error 5
  if c.op != 0x16 then let _ ← c.useHandle s c.sh true false
  let hd ← c.useHandle s c.dh false true
  if c.op == 0x09 then
    if !(nearOf (c.handle c.sh) (clusterOf c.issuer) && nearOf hd (clusterOf c.issuer)) then .error 5
    if !receiversOk c then .error 13
  if c.op = 4 ∨ c.op = 5 then
    let hl ← c.useHandle s c.lh true false
    hl.reach s c.lo (4 * c.word 5)

/-- A copy as it starts, with its list read, or the reason it is refused (R90, R246). -/
def startCopy (s : State) (c : Command) : Except Nat Command := do
  copyBegins s c
  let list := if c.op = 4 ∨ c.op = 5 then
      (wordsOf ((c.handle c.lh).bytesAt s c.lo (4 * c.word 5)) (c.word 5)).map (BitVec.ofNat 32)
    else []
  let c := { c with list := list }
  if !c.extentsOk then .error 4
  if !(List.range c.count).all (fun k => c.elemMapped s (c.elem k)) then .error 8
  return c

/-- The command copies bytes element by element. -/
def Command.copies (c : Command) : Bool := c.op ≤ 5 || c.op == 0x09 || c.op == 0x16

/-- The command is one of the streaming engine's, whose bytes are counted as they are written. -/
def Command.streams (c : Command) : Bool := 6 ≤ c.op && c.op ≤ 8

/-- What a computing command works out. -/
def jobOf (s : State) (e : Nat) (c : Command) : Except Nat Job :=
  match c.op with
  | 0x06 => strmJob s c
  | 0x07 => strmxJob s c
  | 0x08 => cpyxJob s c
  | 0x0F => tsortJob s c
  | _ => crozierJob s (e / 8) c

/-- A command judged: a copy with its list read, a computing command with its work done; or the reason it is refused (R90,
R246). -/
def judgeCommand (s : State) (e : Nat) (c : Command) : Except Nat Command :=
  if c.copies then
    match startCopy s c with
    | .error r => .error r
    | .ok c => .ok { c with judged := true, asked := false }
  else
    match jobOf s e c with
    | .error r => .error r
    | .ok j => .ok { c with judged := true, asked := false, job := some j, flags := j.flags }

/-- What a command meets whatever the bytes that it reads hold (R90, R246). -/
def commandBegins (s : State) (e : Nat) (c : Command) : Except Nat Unit :=
  match c.op with
  | 0x06 => (strmBegins s c).map fun _ => ()
  | 0x07 => (strmxBegins s c).map fun _ => ()
  | 0x08 => (cpyxBegins s c).map fun _ => ()
  | 0x0F => (tsortBegins s c).map fun _ => ()
  | _ => if c.copies then copyBegins s c else crozierBegins s (e / 8) c

/-- What a command reads to be judged: the list of a gather or a scatter, the sources of a computing command. -/
def judgeSpans (s : State) (e : Nat) (c : Command) : List Span :=
  match c.op with
  | 0x04 | 0x05 => [(c.handle c.lh, c.lo, 4 * c.word 5)]
  | 0x06 => strmSpans s c
  | 0x07 => [(c.handle c.sh, c.so, 4 * mxWidth (field (c.word 9) 0 4) * c.word 5), (c.handle c.lh, c.lo, c.word 5)]
  | 0x08 => [(c.handle c.sh, c.so, c.word 5)]
  | 0x0F => tsortSpans s c
  | _ => if c.copies then [] else crozierSpans s (e / 8) c

/-! What an engine sees (R117, R124, R141). -/

/-- The party a command reads as: the core that issued it, or no core. -/
def Command.reader (c : Command) : Nat := if c.packet.isNone then c.issuer else noCore

/-- Memory as a command sees it: stores that others than its issuer may not see yet do not show, nor those that wait for the
compare of a pair, and bytes of its issuer's column that the issuer has stored since read as they were (R117, R124, R126,
R141). -/
def viewOf (s : State) (c : Command) : State :=
  let t := behindVeils s (veiledFrom s noCore ++ hiddenFrom s c.reader)
  { t with
    mem := c.kept.foldl (fun m k => writeCells m k.1 [k.2.1]) t.mem,
    poison := t.poison ++ ((c.kept.filter fun k => k.2.2).map fun k => granule k.1) }

/-- Some rows hold bytes that a command may not see yet: its read of them is held (R124). -/
def readsHidden (s : State) (c : Command) (rows : List Nat) : Bool :=
  let hs := hiddenFrom s c.reader
  !hs.isEmpty && rows.any fun a => hs.any fun v => v.pa / 16 == homeOf s a / 16

/-! What holds a running command (R111, R124, R127, R252, R377). -/

/-- A layer whose crossing admits no request (R111). -/
def crossingShut (s : State) (pa : Nat) : Bool :=
  let h := homeOf s pa
  h / 2 ^ 48 == 1 && ((field h 43 3 == 3 && (die s (field h 46 2)).midPend.isSome)
    || (field h 43 3 == 4 && (die s (field h 46 2)).farPend.isSome))

/-- An acquiring command waits for the releases of its issuing core before it, from either of its contexts, and for the core's
accesses and matrix reads before it (R127). -/
def acquireWaits (s : State) (e : Nat) (c : Command) : Bool :=
  c.acq && ((allCommands s).any (fun (f, d) =>
      d.rel && d.issuer == c.issuer && d.packet.isSome == c.packet.isSome && decide (d.id < c.id)
        && inScope f d.scope e && inScope e c.scope f)
    || (c.packet.isNone && !accessesDone s c.issuer c.issued))

/-- The command stands at a 64-byte boundary of its iteration order, or at a point where a teller or a Crozier stops (R377). -/
def Command.atBoundary (c : Command) : Bool :=
  if c.judged = false then true
  else if c.copies then c.done * c.es % 64 == 0 || decide (c.count ≤ c.done)
  else match c.job with
    | some j => !c.streams || c.written % 64 == 0 || j.pieces.isEmpty
    | none => true

/-- In the checkpoint phase of a seal a command stops at its next boundary (R377). -/
def enginesHalted (s : State) (c : Command) : Bool := s.seals.phase == .checkpoint && c.atBoundary

/-- What holds a running command before it moves on. -/
def commandHolds (s : State) (e : Nat) (c : Command) : Bool :=
  enginesHalted s c || (!c.judged && (acquireWaits s e c || chainWaits s c)) || c.handles.any fun x => crossingShut s x.2.base

/-! The requests of a command (R85, R88). -/


/-- The class of a command's reads at a bank, and of its writes (R85, R411). -/
def readClass (e : Nat) : Nat := if 1024 ≤ e then 4 else if e % 8 = 5 then 8 else if e % 8 = 6 then 9 else 4
def writeClass (e : Nat) (c : Command) : Nat :=
  if c.op = 0x09 then 6 else if 1024 ≤ e then 3 else if e % 8 = 5 then 8 else if e % 8 = 6 then 9 else 3


/-! The writes of engines (R130, R370, R372, R373, R380, R391). -/


/-- A piece waits for what only a seal frees: an egress entry, or a log entry while the log is at its mark, for either column of a
twin pair (R373, R380, R387). -/
def pieceWaits (s : State) (c : Command) (p : Piece) : Bool :=
  if irrevocable s p.pa then egressFull s c.die
  else (writtenPlaces s [p.pa]).any fun pa =>
    let h := homeOf s pa
    let line := h / 64 * 64
    inDomain s h && decide (0 < newEntries s c.writer line) && logHigh s (logDie line)

/-- One piece written by a command, in both columns of a twin pair; none while it has to wait (R373, R380, R387). -/
def putPiece (s : State) (c : Command) (p : Piece) : Option State :=
  if pieceWaits s c p then none
  else if irrevocable s p.pa then
    some (egressAdd s c.die ⟨c.issuer, s.pkg.intnum, regionOf c.writer,
      if c.nb then none else some (c.barCluster, c.bar), .bytes p.pa p.bytes p.bad⟩)
  else
    some (storePieceBoth s c.writer p)

/-- Every piece written, or none. -/
def putPieces (s : State) (c : Command) : List Piece → Option State
  | [] => some s
  | p :: ps => match putPiece s c p with
    | some s => putPieces s c ps
    | none => none

/-- The bytes of a command counted as they are written; a releasing command counts when it releases (R102, R128, R130). -/
def countBytes (s : State) (c : Command) (n : Nat) : State :=
  if c.nb || c.rel then s else arrive s c.barCluster c.bar n

/-! Progress. -/

/-- The physical addresses of an element: source and destination. -/
def elemPlaces (c : Command) (k : Nat) : Nat × Nat :=
  let e := c.elem k
  ((c.handle c.sh).pa e.src.toNat, (c.handle c.dh).pa e.dst.toNat)

/-- How many elements from `k` on make one unit: elements that follow one another in memory, within a line of the
destination and 64 bytes of iteration order (R377). -/
def unitLength (c : Command) (k : Nat) : Nat → Nat
  | 0 => 1
  | fuel + 1 =>
    let e := c.elem k
    let f := c.elem (k + 1)
    let (a, d) := elemPlaces c k
    let (a', d') := elemPlaces c (k + 1)
    if c.inPlace || decide (c.count ≤ k + 1) || e.skip || f.skip || (skipFormat c).isSome || d' != d + e.bytes || d' % 64 == 0
        || (k + 1) * c.es % 64 == 0 || (c.reads && a' != a + e.bytes) then 1
    else 1 + unitLength c (k + 1) fuel

/-- The bytes a copy writes for an element, with their poison: the pattern of a `cpfill`, or the source's (R248). -/
def elemBytes (s : State) (c : Command) (k : Nat) : List (Byte × Bool) :=
  let e := c.elem k
  if c.reads then (c.handle c.sh).bytesAt s e.src.toNat e.bytes else taggedBytes e.bytes (c.word 12) false

/-- The write of one element (R248). -/
def elemPiece (s : State) (c : Command) (k : Nat) : Piece :=
  let bs := elemBytes s c k
  ⟨(elemPlaces c k).2, bs.map Prod.fst, bs.map Prod.snd⟩

/-- The writes of an element of an in-place transpose: above the diagonal it is exchanged with its mirror, which then needs
no write of its own (R89, R249). -/
def mirrorPieces (s : State) (c : Command) (k : Nat) : List Piece :=
  let i := k / c.word 6
  let j := k % c.word 6
  if j < i then [] else if i = j then [elemPiece s c k] else [elemPiece s c k, elemPiece s c (j * c.word 6 + i)]

/-- The pieces of a unit of `n` elements: nothing for a list entry that says so, the present elements of a scatter with
SKIP (R248), an exchange in an in-place transpose (R249). -/
def unitPieces (s : State) (c : Command) (k n : Nat) : List Piece :=
  let e := c.elem k
  let pa := (elemPlaces c k).2
  if e.skip then []
  else if c.inPlace then mirrorPieces s c k
  else match skipFormat c with
    | some f =>
      let es := f.width / 8
      ((List.range (e.bytes / es)).filter fun j => !isAbsent f (numberOf (elemAt (elemBytes s c k) es j))).map fun j =>
        let bs := elemAt (elemBytes s c k) es j
        ⟨pa + j * es, bs.map Prod.fst, bs.map Prod.snd⟩
    | none =>
      let bs := (List.range n).flatMap fun i => elemBytes s c (k + i)
      [⟨pa, bs.map Prod.fst, bs.map Prod.snd⟩]

/-- What a running command writes next. -/
def nextPieces (s : State) (c : Command) : List Piece :=
  if c.judged = false then []
  else if c.copies then (if c.done < c.count then unitPieces (viewOf s c) c c.done (unitLength c c.done 15) else [])
  else match c.job with
    | some j => j.pieces.take 1
    | none => []

/-- A running command changed, and removed with its requests. -/
def modRunning (s : State) (e id : Nat) (f : Command → Command) : State :=
  modEngine s e fun g => { g with running := g.running.map fun d => if d.id = id then f d else d }
def dropRunning (s : State) (e id : Nat) : State :=
  modEngine (dropCommandRequests s id) e fun g => { g with running := g.running.filter fun d => d.id != id }

/-- The class of an engine's transfers (R364). -/
def transferClass (e : Nat) : Nat := if 1024 ≤ e then 12 else 11

/-- Transfers of a command charged to the context that issued it, or to the lichen context (R364). -/
def chargeTransfer (s : State) (e : Nat) (c : Command) (n : Nat) : State :=
  if n = 0 then s else chargeTo s c.issuer (if c.core.isSome then c.gid else 0) (transferClass e) n

/-- Bytes of a command written: each 64 of them are charged as they are complete (R364). -/
def noteWritten (s : State) (e : Nat) (c : Command) (n : Nat) (f : Command → Command) : State :=
  modRunning (chargeTransfer s e c ((c.written + n) / 64 - c.written / 64)) e c.id fun d => { f d with written := c.written + n }

/-- A running command that ends; what it has moved beyond its last 64 bytes is charged (R364). -/
def endCommand (s : State) (e : Nat) (c : Command) (state reason : Nat) (w1 : Word) : State :=
  closeCommand (chargeTransfer (dropRunning s e c.id) e c (if c.written % 64 = 0 then 0 else 1)) c state reason w1

/-- A running command meets an address that is no longer mapped (R246 reason 8, R394). -/
def loseCommand (s : State) (e : Nat) (c : Command) : State := endCommand s e c 5 8 0

/-- A command meets an address that a peer does not have (R436). -/
def failPeer (s : State) (e : Nat) (c : Command) : State := endCommand s e c 5 8 0

/-- A command asks for the banks of what it does next, if it uses any. -/
def askFor (s : State) (e : Nat) (c : Command) (reads writes : List Nat) : State :=
  modRunning { s with bankReqs :=
    s.bankReqs ++ towerRequests s (readClass e) c.id reads
      ++ towerRequests s (writeClass e c) c.id (writtenPlaces s writes) } e c.id
    fun d => { d with asked := true }

/-- A command ends before it has moved anything: it is refused, or what it can no longer read has been lost since it started
(R246, R394). -/
def refuseCommand (s : State) (e : Nat) (c : Command) (r : Nat) : State :=
  endCommand s e c (if (c.asked ∨ c.hurt) ∧ r = 8 then 5 else 4) r 0

/-- A command that is not judged asks for what it reads, and is judged once that is granted: what it can then no longer read
has been lost since it started (R85, R394), what a peer does not have fails it (R436), and what the bytes hold is judged last (R90).
Rows that are hidden from it hold it (R124). -/
def judgeStep (s : State) (e : Nat) (c : Command) : State :=
  let v := viewOf s c
  match commandBegins v e c with
  | .error r => refuseCommand s e c r
  | .ok _ =>
    let spans := judgeSpans v e c
    let rows := spans.flatMap spanRows
    if readsHidden s c rows then s
    else if c.asked = false ∧ (towerRequests s (readClass e) c.id rows).isEmpty = false then askFor s e c rows []
    else if !spans.all (spanAnswers s) then failPeer s e c
    else match judgeCommand v e c with
      | .error r => refuseCommand s e c r
      | .ok d => modRunning s e c.id fun _ => d

/-- The places of `n` elements of a copy are there for a peer to answer. -/
def unitAnswers (s : State) (c : Command) (k n : Nat) : Bool :=
  (List.range n).all fun i =>
    let (a, d) := elemPlaces c (k + i)
    (c.elem (k + i)).skip || ((!c.reads || peerAnswers s a) && peerAnswers s d)

/-- The rows that `n` elements of a copy read and write; an exchange reads and writes both its places (R249). -/
def unitReads (c : Command) (k n : Nat) : List Nat :=
  let bytes (k : Nat) : List Nat := tabulate (c.elem k).bytes fun i => (elemPlaces c k).1 + i
  if !c.reads || (c.elem k).skip then []
  else if c.inPlace then bytes k ++ bytes (k % c.word 6 * c.word 6 + k / c.word 6)
  else (List.range n).flatMap fun i => bytes (k + i)

/-- The next unit of a copy (R248, R253). -/
def moveCopy (s : State) (e : Nat) (c : Command) : State :=
  let n := unitLength c c.done 15
  if !(List.range n).all (fun i => c.elemMapped s (c.elem (c.done + i))) then loseCommand s e c
  else if !unitAnswers s c c.done n then failPeer s e c
  else if readsHidden s c (unitReads c c.done n) then s
  else
    let ps := unitPieces (viewOf s c) c c.done n
    if c.asked = false then
      askFor s e c (unitReads c c.done n) (ps.flatMap fun p => tabulate p.bytes.length fun i => p.pa + i)
    else match putPieces s c ps with
    | none => s
    | some s =>
      let s := noteWritten s e c (ps.map fun p => p.bytes.length).sum fun d => { d with done := c.done + n, asked := false }
      countBytes s c (n * c.es)

/-- A part of a source is still mapped (R394). -/
def SourcePart.mapped (s : State) (x : SourcePart) : Bool :=
  (List.range x.len).all fun i => Sys2Proof.Machine.mapped s (x.handle.pa (x.offset + i))

/-- The next piece of a computing command, with the parts of its source that go into it: it stops at the first byte of either that
has been lost (R394). -/
def movePiece (s : State) (e : Nat) (c : Command) (j : Job) : State :=
  match j.pieces with
  | [] => s
  | p :: ps =>
    let next := c.written + p.bytes.length
    if !extentMapped s p.pa p.bytes.length || !(j.reads.takeWhile fun x => decide (x.first < next)).all (SourcePart.mapped s) then
      loseCommand s e c
    else if !peerAnswers s p.pa then failPeer s e c
    else if c.asked = false then askFor s e c [] (tabulate p.bytes.length fun i => p.pa + i)
    else match putPiece s c p with
      | none => s
      | some s =>
        let left := j.reads.dropWhile fun x => decide (x.last ≤ next)
        let s := noteWritten s e c p.bytes.length fun d =>
          { d with job := some { j with pieces := ps, reads := left }, asked := false }
        if c.streams then countBytes s c p.bytes.length else s

/-- What a running command does next when nothing holds it and its banks have been granted. -/
def stepCommand (s : State) (e : Nat) (c : Command) : State :=
  if c.judged = false then judgeStep s e c
  else if c.copies then (if c.done < c.count then moveCopy s e c else s)
  else match c.job with
    | some j => movePiece s e c j
    | none => s

/-- A running command moves on, unless something holds it or it waits for banks. -/
def moveCommand (s : State) (e id : Nat) : State :=
  match (engineOf s e).running.find? fun c => c.id == id with
  | none => s
  | some c => if commandHolds s e c || (c.asked && commandAsks s id) then s else stepCommand s e c

/-- A running command moves on `n` times. -/
def advanceCommand (s : State) (e id : Nat) : Nat → State
  | 0 => s
  | n + 1 => advanceCommand (moveCommand s e id) e id n

/-! The start (R87, R90, R124). -/

/-- ENGINE_COMMAND_START: the oldest command of an engine's queue starts when a running slot is free, unless it stands after
a `drain` of its issuing core that has not completed (R87, R124); a refused one moves nothing (R90). -/
def execEngineCommandStart (engine : Nat) (s : State) : Outcome :=
  let g := engineOf s engine
  match g.queue with
  | [] => .next s
  | c :: rest =>
    let waits := c.packet.isNone && fenced s c.issuer c.issued
    if s.seals.phase = .checkpoint ∨ runningSlots engine ≤ g.running.length ∨ waits = true then .next s
    else
      let s := modEngine s engine fun g => { g with queue := rest, running := g.running ++ [c] }
      .next (if commandHolds s engine c then s else judgeStep s engine c)

/-! The end (R103, R128, R246). -/

/-- The command has nothing left to do. -/
def Command.finished (c : Command) : Bool :=
  if c.judged = false then false
  else if c.copies then decide (c.count ≤ c.done)
  else match c.job with
    | some j => j.pieces.isEmpty
    | none => false

/-- What a command counts at its end: a releasing one all its bytes, the teller and the Crozier four (R128, R258, R397). -/
def finalCount (c : Command) (j : Option Job) : Nat :=
  if c.copies then (if c.rel then c.count * c.es else 0)
  else if c.streams then (if c.rel then c.written else 0)
  else match j with
    | some j => j.arrival
    | none => 0

/-- ENGINE_COMMAND_COMPLETION: every write of the command is performed; the release, its arrival, then its status (R128,
R246). -/
def execEngineCommandCompletion (engine id : Nat) (s : State) : Outcome :=
  match (engineOf s engine).running.find? fun c => c.id == id with
  | none => .next s
  | some c =>
    if !c.finished || commandHolds s engine c then .next s
    else
      let n := finalCount c c.job
      let s := match c.job.bind Job.croz with
        | some z => { s with dom := { s.dom with croziers := assign s.dom.croziers (engine / 8) z } }
        | none => s
      let s := if c.nb || n == 0 then s else arrive s c.barCluster c.bar n
      match c.job with
      | some j => .next (endCommand s engine c j.state j.reason j.word1)
      | none => .next (endCommand s engine c 2 0 0)

end Sys2Proof.Machine
end

