-- ==== Sys2Proof/Machine/Digest.lean ====
section
/-! DEFINITION. The SM3 digest of a byte string, as the public standard defines it (R297, R427 to R429 name it; log entry 10:
PRESUMED, the standard lies outside the spec). -/

namespace Sys2Proof.Machine

open Sys2Proof

/-- A word rotated left. -/
def rotl (x : Word) (n : Nat) : Word := x.rotateLeft (n % 32)

/-- The two permutations of SM3. -/
def sm3P0 (x : Word) : Word := x ^^^ rotl x 9 ^^^ rotl x 17
def sm3P1 (x : Word) : Word := x ^^^ rotl x 15 ^^^ rotl x 23

/-- A big-endian word of a byte string. -/
def beWord (bs : List Byte) : Word := leWord ((bs.take 4).reverse)

/-- The padding of a message of `n` bytes. -/
def sm3Pad (n : Nat) : List Byte := 0x80 :: List.replicate ((119 - n % 64) % 64) 0 ++ (leBytes 8 (8 * n)).reverse

/-- The expanded words of a block, newest first, from the sixteen words of the block reversed. -/
def sm3Expand : Nat → List Word → List Word
  | 0, l => l
  | n + 1, l =>
    let g (i : Nat) : Word := l.getD (i - 1) 0
    sm3Expand n ((sm3P1 (g 16 ^^^ g 9 ^^^ rotl (g 3) 15) ^^^ rotl (g 13) 7 ^^^ g 6) :: l)

/-- One round on the eight working words. -/
def sm3Round (w : List Word) (st : List Word) (j : Nat) : List Word :=
  match st with
  | [a, b, c, d, e, f, g, h] =>
    let k : Word := if j < 16 then 0x79CC4519 else 0x7A879D8A
    let ss1 := rotl (rotl a 12 + e + rotl k j) 7
    let ff := if j < 16 then a ^^^ b ^^^ c else (a &&& b) ||| (a &&& c) ||| (b &&& c)
    let gg := if j < 16 then e ^^^ f ^^^ g else (e &&& f) ||| (~~~e &&& g)
    let tt1 := ff + d + (ss1 ^^^ rotl a 12) + (w.getD j 0 ^^^ w.getD (j + 4) 0)
    let tt2 := gg + h + ss1 + w.getD j 0
    [tt1, a, rotl b 9, c, sm3P0 tt2, e, rotl f 19, g]
  | st => st

/-- The chaining value after one block of 64 bytes. -/
def sm3Block (v : List Word) (block : List Byte) : List Word :=
  let w := (sm3Expand 52 ((tabulate 16 fun i => beWord (block.drop (4 * i))).reverse)).reverse
  let st := (List.range 64).foldl (sm3Round w) v
  (st.zip v).map fun (x, y) => x ^^^ y

/-- SM3 of a byte string: 32 bytes. -/
def sm3 (m : List Byte) : List Byte :=
  let p := m ++ sm3Pad m.length
  let iv : List Word := [0x7380166F, 0x4914B2B9, 0x172442D7, 0xDA8A0600, 0xA96F30BC, 0x163138AA, 0xE38DEE4D, 0xB0FB0E4E]
  let v := (List.range (p.length / 64)).foldl (fun v i => sm3Block v (p.drop (64 * i))) iv
  v.flatMap fun w => (wordBytes w).reverse

end Sys2Proof.Machine
end

