-- ==== Sys2Proof/Machine/Matrix.lean ====
section
/-! DEFINITION. The X slot, the micro-ops, the accumulators with their checksum, drains, and the acceptance, push and
image events of the matrix unit (R61 to R63, R293 to R320). -/

namespace Sys2Proof.Machine

open Sys2Proof

/-- The place of the X slot in slot order. -/
def slotX : Nat := 6

/-! The register forms of the X slot (R295). -/

/-- An x register of the issuing core. -/
def readX (s : State) (r : Fin 8) : Dword := (curTask s).x.getD r.val 0

/-- A result of the X slot for its own file. -/
def giveX (s : State) (d : Fin 8) (v : Dword) : State := giveOnly (charge s 1 1) slotX 1 [.wide d.val v]

/-- The word an `xli` or `xlih` names. -/
def Imm16.word : Imm16 → Word
  | .imm v => v.setWidth 32
  | .ext v => v

/-- The value an `xadd` adds. -/
def Imm15.dword : Imm15 → Dword
  | .imm v => v.signExtend 64
  | .ext v => v.signExtend 64

/-- xli (R295). -/
def execXli (g : Guard) (d : Fin 8) (v : Imm16) (s : State) : Outcome :=
  issue (.xli g d v) s fun s => giveX s d ((Imm16.word v).setWidth 64)

/-- xlih (R295). -/
def execXlih (g : Guard) (d : Fin 8) (v : Imm16) (s : State) : Outcome :=
  issue (.xlih g d v) s fun s => giveX s d (withBits (readX s d) 32 32 (Imm16.word v).toNat)

/-- xadd (R295). -/
def execXadd (g : Guard) (d src : Fin 8) (v : Imm15) (s : State) : Outcome :=
  issue (.xadd g d src v) s fun s => giveX s d (readX s src + Imm15.dword v)

/-- xins (R295). -/
def execXins (g : Guard) (d src : Fin 8) (pos len1 : Fin 64) (s : State) : Outcome :=
  issue (.xins g d src pos len1) s fun s => giveX s d (withBits (readX s d) pos.val (len1.val + 1) (readX s src).toNat)

/-- The X-slot xmov: all 64 bits between x registers, else one word (R295). -/
def execXmovX (g : Guard) (src : Fin 8) (fl : File) (d : Fin 32) (hi : Bool) (s : State) : Outcome :=
  issue (.xmovX g src fl d hi) s fun s =>
    let v := readX s src
    giveOnly (charge s 1 1) slotX 2
      (match fl, hi with
       | .x, false => [.wide d.val v]
       | fl, hi => regDest fl d.val (BitVec.ofNat 32 (bits v (if hi then 32 else 0) 32)))

/-! Calls, cancellation and images (R296 to R299). -/

/-- The state with a core's matrix unit changed. -/
def modMx (s : State) (core : Nat) (f : Matrix → Matrix) : State := modCore s core fun c => { c with mx := f c.mx }

/-- The physical address of a word of a core's microprogram store (R79). -/
def microPA (core addr : Nat) : Nat := 2 * 2 ^ 48 + dieOf core * 2 ^ 46 + columnOf core * 2 ^ 24 + 2 ^ 23 + 4 * addr

/-- The 2,048 micro-ops of a core's store. -/
def microStore (s : State) (core : Nat) : List Word := tabulate 2048 fun i => leWord (readBytes s (microPA core i) 4)

/-- The unit accepts a waiting call when it is idle: micro registers from the low words, the store as it stands (R296). -/
def acceptCall (s : State) (core : Nat) : State :=
  let mx := (coreOf s core).mx
  match mx.waiting, mx.routine with
  | some c, none =>
    modMx s core fun mx => { mx with
      waiting := none,
      routine := some ⟨c.params, c.fmt, microStore s core, tabulate 8 fun i => c.params.getD (2 * i) 0, c.start, [],
        c.issued, false, false⟩ }
  | _, _ => s

/-- mcall: everything captured at issue; the call is accepted at once when the unit is idle and waits otherwise, which
holds the group (R296, R32). -/
def execMcall (g : Guard) (idx : Fin 64) (s : State) : Outcome :=
  issue (.mcall g idx) s fun s =>
    let core := s.cur.core
    let params : List Word := tabulate 16 fun i =>
      BitVec.ofNat 32 (bits ((curTask s).x.getD (i / 2) 0) (32 * (i % 2)) 32)
    let start := ((coreOf s core).mx.entries.getD idx.val none).getD 0
    let s := sign (charge s 1 1) 44 idx.val start
    acceptCall (modMx s core fun mx => { mx with waiting := some ⟨start, params, (curTask s).fmt, s.now, true⟩ }) core

/-- mload: an image is asked for, once for a twin pair; its handle is captured (R93, R297, R386). -/
def execMload (g : Guard) (src bar : Fin 8) (s : State) : Outcome :=
  issue (.mload g src bar) s fun s =>
    let x := readX s src
    let core := s.cur.core
    let (bc, b) := barRef (clusterOf core) ((readX s bar).setWidth 32)
    let s := sign (charge s 1 1) 45 x.toNat (bc * 1024 + b)
    if !s.cur.external then s
    else if bits x 53 11 ≠ 0 then markFaulted s bc b 3
    else { s with dom := { s.dom with loads := s.dom.loads ++
      [⟨core, insiders s core, curProgram s, handleOf s (dieOf core) (bits x 0 12), bits x 12 41, bc, b, writerOf s, s.cur.gid,
        none, none⟩] } }

/-- mqclr: entries pushed up to the issue cycle are discarded; it acts at bundle end (R298). -/
def execMqclr (g : Guard) (mask : BitVec 4) (s : State) : Outcome :=
  issue (.mqclr g mask) s fun s =>
    modCur (sign (charge s 1 1) 46 mask.toNat 0) fun t =>
      { t with queues := t.queues.zipIdx.map fun (q, i) => if mask.getLsbD i then [] else q }

/-- A running routine cancelled: what its drains captured is discarded, and it ends, after a micro-op whose reads have begun
(R299). An idle unit keeps what it has. -/
def Matrix.cancel (mx : Matrix) : Matrix :=
  match mx.routine with
  | some r => { mx with routine := if r.asked then some { r with cancelled := true } else none, drain := [] }
  | none => mx

/-- mcancel (R299). -/
def execMcancel (g : Guard) (s : State) : Outcome :=
  issue (.mcancel g) s fun s => modMx (sign (charge s 1 1) 47 0 0) s.cur.core Matrix.cancel

/-! Micro-ops (R300 to R312). -/

/-- The routine of the unit the micro-op runs on. -/
def curRoutine (s : State) : Option Routine := (coreOf s s.cur.core).mx.routine

/-- The state with that routine replaced. -/
def setRoutine (s : State) (r : Routine) : State := modMx s s.cur.core fun mx => { mx with routine := some r }

/-- The requests of a core's matrix reads taken back. -/
def dropMicroRequests (s : State) (core : Nat) : State := dropRequests (dropRequests s 1 core) 2 core

/-- The routine ends (R302). -/
def endRoutine (s : State) : State :=
  modMx (dropMicroRequests s s.cur.core) s.cur.core fun mx => { mx with routine := none }

/-- A routine fault: the routine ends, and its group takes the cause at its next boundary with the store address as detail;
bit 15 says that a routine raised it (R312, R313, R349). -/
def routineFault (s : State) (r : Routine) (code : Nat) : State :=
  let s := endRoutine s
  match groupOn s s.cur.core with
  | some g => modGroup s g.gid fun g => { g with pending := g.pending ++ [⟨code, 2 ^ 15 + r.pc % 2048, [g.rankOf s.cur.core], none⟩] }
  | none => s

/-- A micro-op of the running routine; with no routine nothing runs. -/
def micro (s : State) (f : Routine → State) : Outcome :=
  match curRoutine s with
  | some r => .next (f r)
  | none => .next s

/-- The next micro-op in store order, with the routine changed; what the micro-op asked the banks for is done. A routine that
was cancelled while it read ends here (R299). -/
def stepRoutine (s : State) (r : Routine) : State :=
  if r.cancelled then endRoutine s else setRoutine s { r with pc := r.pc + 1, asked := false }

/-- A micro register. -/
def Routine.zreg (r : Routine) (i : Nat) : Word := r.z.getD i 0

/-- A parameter word (R300). -/
def Routine.param (r : Routine) (i : Nat) : Word := r.params.getD i 0

/-- The routine with a micro register set. -/
def Routine.setZ (r : Routine) (i : Nat) (v : Word) : Routine := { r with z := r.z.set i v }

/-- mend (R302, R304). -/
def execMend (s : State) : Outcome := micro s fun _ => endRoutine s

/-- mnop (R304). -/
def execMnop (s : State) : Outcome := micro s fun r => stepRoutine s r

/-- mfence: it waits until the drain buffer is empty (R304). -/
def execMfence (s : State) : Outcome :=
  micro s fun r => if (coreOf s s.cur.core).mx.drain.isEmpty then stepRoutine s r else s

/-- madv with an immediate (R304). -/
def execMadv (d : Fin 8) (imm : BitVec 24) (s : State) : Outcome :=
  micro s fun r => stepRoutine s (r.setZ d.val (r.zreg d.val + imm.signExtend 32))

/-- madv with a parameter word (R304). -/
def execMadvParam (d : Fin 8) (pw : Fin 16) (s : State) : Outcome :=
  micro s fun r => stepRoutine s (r.setZ d.val (r.zreg d.val + r.param pw.val))

/-- mset with an immediate (R304). -/
def execMset (d : Fin 8) (imm : BitVec 24) (s : State) : Outcome :=
  micro s fun r => stepRoutine s (r.setZ d.val (imm.setWidth 32))

/-- mset with a parameter word (R304). -/
def execMsetParam (d : Fin 8) (pw : Fin 16) (s : State) : Outcome :=
  micro s fun r => stepRoutine s (r.setZ d.val (r.param pw.val))

/-- mmad (R304). -/
def execMmad (d z : Fin 8) (pw : Fin 16) (s : State) : Outcome :=
  micro s fun r => stepRoutine s (r.setZ d.val (r.zreg d.val + r.zreg z.val * r.param pw.val))

/-- mskz: N of 0 breaks its rule (R303, R304, R312). -/
def execMskz (z : Fin 8) (n : BitVec 8) (s : State) : Outcome :=
  micro s fun r =>
    if n = 0 then routineFault s r 1
    else setRoutine s { r with pc := if r.zreg z.val = 0 then r.pc + 1 + n.toNat else r.pc + 1 }

/-- mjmp (R304). -/
def execMjmp (target : Fin 2048) (s : State) : Outcome := micro s fun r => setRoutine s { r with pc := target.val }

/-- The start of a micro loop (R305). The word at END counts as `mendl` by its operation bits alone (DESIGN CHOICE, unsafe: log entry
95). -/
def microLoop (s : State) (r : Routine) (endAddr count : Nat) : State :=
  if (r.prog.getD endAddr 0).toNat / 2 ^ 28 ≠ 4 ∨ endAddr ≤ r.pc then routineFault s r 1
  else if count = 0 then setRoutine s { r with pc := endAddr + 1 }
  else if 4 ≤ r.loops.length then routineFault s r 1
  else setRoutine s { r with loops := (r.pc + 1, count) :: r.loops, pc := r.pc + 1 }

/-- mloop with an immediate count (R305). -/
def execMloop (endAddr : Fin 2048) (count : Fin 512) (s : State) : Outcome :=
  micro s fun r => microLoop s r endAddr.val count.val

/-- mloop with a count from a micro register (R305). -/
def execMloopZ (z : Fin 8) (sh : Fin 16) (endAddr : Fin 2048) (s : State) : Outcome :=
  micro s fun r => microLoop s r endAddr.val ((r.zreg z.val).toNat / 2 ^ sh.val)

/-- mendl (R305). -/
def execMendl (s : State) : Outcome :=
  micro s fun r =>
    match r.loops with
    | [] => routineFault s r 1
    | (start, c) :: rest =>
      if 1 < c then setRoutine s { r with loops := (start, c - 1) :: rest, pc := start }
      else setRoutine s { r with loops := rest, pc := r.pc + 1 }

/-- mclr: every cell all-absent, the check state cleared (R307). -/
def clearTile (s : State) (core : Nat) : State := modTask s core fun t => { t with cells := [], rows := [], cols := [] }

/-- mclr (R307). -/
def execMclr (s : State) : Outcome := micro s fun r => stepRoutine (clearTile s s.cur.core) r

/-! mstep (R62, R306, R314). -/

/-- The bytes a tile read takes at a near address, or the cause that stops it: out of range, lost, poisoned (R306, R312). -/
def microRead (s : State) (pa n : Nat) : Except Nat (List Byte) :=
  if extentMapped s pa n = false then .error 7
  else if poisonedAt s pa n then .error 9
  else .ok (readBytes s pa n)

/-- The byte strings at several places, or the first cause that stops one. -/
def microReads (s : State) : List (Nat × Nat) → Except Nat (List (List Byte))
  | [] => .ok []
  | (pa, n) :: rest =>
    match microRead s pa n, microReads s rest with
    | .ok b, .ok bs => .ok (b :: bs)
    | .error e, _ => .error e
    | _, .error e => .error e

/-- The element format of A or of B that FMT names (R64). -/
def fmtA (f : Word) : Format := (Format.ofCode (bits f 8 4)).getD .bx9
def fmtB (f : Word) : Format := (Format.ofCode (bits f 12 4)).getD .bx9

/-- Where the A read of an mstep lies: near address and bytes of each row or block, in order (R306). -/
def aSpans (r : Routine) (stride : Nat) : List (Nat × Nat) :=
  let z0 := (r.zreg 0).toNat
  let af := fmtA r.fmt
  if af.isBlock then
    let (rr, cc) := geometry (bits r.fmt 18 3)
    (List.range (32 / rr)).flatMap fun bi => (List.range (16 / cc)).map fun bk =>
      ((z0 + bi * stride + bk * Format.groupSize af) % 2 ^ 32, Format.groupSize af)
  else (List.range 32).map fun i => ((z0 + i * stride) % 2 ^ 32, 32)

/-- Element (i, k) of A from the strings read (R306). -/
def aElem (r : Routine) (ds : List (List Byte)) (i k : Nat) : Val :=
  let af := fmtA r.fmt
  if af.isBlock then
    let (rr, cc) := geometry (bits r.fmt 18 3)
    blockElem af (leNat (ds.getD (i / rr * (16 / cc) + k / cc) [])) (i % rr * cc + k % cc)
  else decodeFloat af (r.fmt.getLsbD 26) (leNat (((ds.getD i []).drop (2 * k)).take 2))

/-- The bytes of one segment of a column record, and of the record (R306). -/
def segmentBytes (bf : Format) (rr : Nat) : Nat := 2 + (rr * (Format.mant bf + 1) + 7) / 8
def recordBytes (r : Routine) : Nat :=
  let bf := fmtB r.fmt
  if bf.isBlock then
    let (rr, _) := geometry (bits r.fmt 21 3)
    16 / rr * segmentBytes bf rr
  else 32

/-- Element (k, j) of B from the record of column j (R306, R48). -/
def bElem (r : Routine) (rec' : List Byte) (k j : Nat) : Val :=
  let bf := fmtB r.fmt
  if bf.isBlock then
    let (rr, cc) := geometry (bits r.fmt 21 3)
    let seg := leNat ((rec'.drop (k / rr * segmentBytes bf rr)).take (segmentBytes bf rr))
    let m := Format.mant bf
    let e := k % rr * cc + j % cc
    let x := field seg 0 8
    let fl := field seg (16 + (m + 1) * (k % rr)) (m + 1)
    if x = 255 ∨ fl = 2 ^ m then .absent
    else .real (decide (sextNat fl (m + 1) < 0)) (sextNat fl (m + 1)).natAbs 1
      ((x : Int) - 127 - field seg (8 + 2 * (e / 4)) 2 - m + 1)
  else decodeFloat bf (r.fmt.getLsbD 26) (leNat ((rec'.drop (2 * k)).take 2))

/-- A fp32 pattern is finite. -/
def finite32 (w : Nat) : Bool := field w 23 8 != 255

/-- A finite value as an integer in units of 2 to the −300. -/
def unitsOf : Val → Int
  | .real n m d e => toInt n (m * 2 ^ (e + 300).toNat / d)
  | _ => 0

/-- A product of two present operands, rounded to fp32, with its flags but inexact (R62). -/
def product32 (fa fb : Format) (a b : Val) : Nat × Nat :=
  let r := match a, b with
    | .nan n f _, _ => (quietNaN .fp32 (if fa.isBlock then 23 else Format.fracBits fa) n f, signalling [a, b])
    | _, .nan n f _ => (quietNaN .fp32 (if fb.isBlock then 23 else Format.fracBits fb) n f, signalling [a, b])
    | _, _ => deliverVal .fp32 Env.plain (mulVal a b)
  (r.1, Nat.land r.2 30)

/-- One product added to a cell (R62). -/
def addProduct (t : Triple) (p : Nat) : Triple × Nat :=
  let s := t.s.toNat
  let sum := floatAdd .fp32 Env.plain s p
  let n := min (t.n + 1) (2 ^ 24 - 1)
  if finite32 s && finite32 p && finite32 sum.1 then
    let err := unitsOf (decodeVal .fp32 false s) + unitsOf (decodeVal .fp32 false p) - unitsOf (decodeVal .fp32 false sum.1)
    let e := if err = 0 then (0, 0) else roundReal .fp32 Env.plain (decide (err < 0)) err.natAbs 1 (-300)
    let c := floatAdd .fp32 Env.plain t.c.toNat e.1
    (⟨BitVec.ofNat 32 sum.1, BitVec.ofNat 32 c.1, n⟩, Nat.land (orFlags sum.2 c.2) 30)
  else (⟨BitVec.ofNat 32 sum.1, t.c, n⟩, Nat.land sum.2 30)

/-- The check state after a product (R314). -/
def Check.add (c : Check) (a b : Val) : Check :=
  match a, b with
  | .real n1 m1 _ e1, .real n2 m2 _ e2 =>
    let p := m1 * m2 * 2 ^ (e1 + e2 + 300).toNat
    { c with sum := c.sum + toInt (n1 != n2) p, mag := c.mag + p, count := c.count + 1 }
  | _, _ => { c with count := c.count + 1, special := true }

/-- The check state at a cleared tile. -/
def Check.zero : Check := ⟨0, 0, 0, false⟩

/-- The all-absent cell (R61). -/
def Triple.absent : Triple := ⟨0, 0, 0⟩

/-- One column of products added to one cell in ascending k, with its flags (R62). -/
def addColumn (fa fb : Format) (as bs : List Val) (t : Triple) : Triple × Nat :=
  (as.zip bs).foldl (fun (t, fl) (a, b) =>
    if a.present && b.present then
      let p := product32 fa fb a b
      let r := addProduct t p.1
      (r.1, orFlags fl (orFlags p.2 r.2))
    else (t, fl)) (t, 0)

/-- The check state of a row or column after an mstep. -/
def addCheck (c : Check) (pairs : List (Val × Val)) : Check :=
  pairs.foldl (fun c (a, b) => if a.present && b.present then Check.add c a b else c) c

/-- A table of present entries of an index function, in ascending index. -/
def sparseOf {α : Type} [DecidableEq α] (dflt : α) (n : Nat) (f : Nat → α) : Sparse α :=
  (List.range n).filterMap fun i => if f i = dflt then none else some (i, f i)

/-- The tile after an mstep, and the flags (R62, R314). -/
def addTile (t : Task) (fa fb : Format) (as bs : List (List Val)) : Task × Nat :=
  let cells := tabulate 1024 fun i =>
    addColumn fa fb (as.getD (i / 32) []) (bs.getD (i % 32) []) (lookup Triple.absent t.cells i)
  let pairs (i j : Nat) : List (Val × Val) := (as.getD i []).zip (bs.getD j [])
  let rows := sparseOf Check.zero 32 fun i =>
    addCheck (lookup Check.zero t.rows i) ((List.range 32).flatMap fun j => pairs i j)
  let cols := sparseOf Check.zero 32 fun j =>
    addCheck (lookup Check.zero t.cols j) ((List.range 32).flatMap fun i => pairs i j)
  ({ t with
     cells := cells.zipIdx.filterMap fun (c, i) => if c.1 = Triple.absent then none else some (i, c.1),
     rows := rows, cols := cols }, joinFlags (cells.map Prod.snd))

/-- The energy class of an mstep (R364). -/
def stepClass : Format → Nat
  | .bx4 => 6
  | .bx6 => 7
  | .bx9 => 8
  | _ => 9

/-- An event of the unit charged to the task on its core, or to the lichen context when the task has ended (R364). -/
def chargeUnit (s : State) (core cls n : Nat) : State := addCharge s core cls n (groupOn s core).isSome

/-- The rows of the own near layer that a micro-op reads, in ascending order, and the class of its requests (R306, R308). -/
def microRows (r : Routine) : Instr → Nat × List Nat
  | .mstep sw =>
    (1, sortBy (fun a b : Nat => decide (a ≤ b)) (((aSpans r (r.param sw.val).toNat).flatMap fun (a, n) =>
      tabulate n fun i => (a + i) / 16 * 16).dedup.filter fun a => decide (a < 2 ^ 18)))
  | .mshape => (2, if (r.zreg 4).toNat < 2 ^ 18 then [(r.zreg 4).toNat / 16 * 16] else [])
  | _ => (0, [])

/-- What an mstep reads, the strings of A and the records of B, or the cause of its fault: a misaligned operand, then one out of
range, then a byte of A and one of B that is lost or poisoned (R306, R312; the order is a DESIGN CHOICE: log entry 88). -/
def stepOperands (s : State) (core : Nat) (r : Routine) (sw : Fin 16) : Except Nat (List (List Byte) × List (List Byte)) :=
  let stride := (r.param sw.val).toNat
  let z1 := (r.zreg 1).toNat
  let spans := aSpans r stride
  if !(fmtA r.fmt).isBlock && ((r.zreg 0).toNat % 2 != 0 || stride % 2 != 0 || z1 % 2 != 0) then .error 1
  else if spans.any (fun (a, n) => decide (2 ^ 18 < a + n)) || decide (16384 < z1 + recordBytes r) then .error 7
  else
    match microReads s (spans.map fun (a, n) => (nearPA core a, n)),
        microReads s ((List.range 32).map fun j => (towerAddr core 1 (16384 * j + z1), recordBytes r)) with
    | .error e, _ => .error e
    | _, .error e => .error e
    | .ok ad, .ok bd => .ok (ad, bd)

/-- The shape entry an mshape reads, or the cause of its fault, alignment first (R308, R312; log entry 88). -/
def shapeOperand (s : State) (core : Nat) (r : Routine) : Except Nat (List Byte) :=
  let z4 := (r.zreg 4).toNat
  if z4 % 16 ≠ 0 then .error 1
  else if 2 ^ 18 ≤ z4 then .error 7
  else microRead s (nearPA core z4) 16

/-- A micro-op that reads is a routine fault, of which no part performs (R312). -/
def readFaults (s : State) (core : Nat) (r : Routine) : Instr → Bool
  | .mstep sw => match stepOperands s core r sw with
    | .error _ => true
    | .ok _ => false
  | .mshape => match shapeOperand s core r with
    | .error _ => true
    | .ok _ => false
  | _ => false

/-- What a micro-op that reads the near layer waits for: it asks the banks first, and runs when every row is granted; one that
faults asks for nothing (R85, R302, R306, R308, R312). -/
def microAsks (s : State) (core : Nat) (r : Routine) (i : Instr) : Option State :=
  let (cls, rows) := microRows r i
  if rows.isEmpty || readFaults s core r i then none
  else if r.asked = false then
    some (modMx { s with bankReqs := s.bankReqs ++ requestsAt core cls core rows } core fun mx =>
      { mx with routine := some { r with asked := true } })
  else if requestsStand s cls core then some s
  else none

/-- The rows of the own column that a micro-op read, charged (R364). -/
def chargeMicro (s : State) (core : Nat) (r : Routine) (i : Instr) : State := chargeUnit s core 4 (microRows r i).2.length

/-- mstep (R62, R306, R312, R314). -/
def execMstep (sw : Fin 16) (s : State) : Outcome :=
  micro s fun r =>
    let core := s.cur.core
    let af := fmtA r.fmt
    match stepOperands s core r sw with
    | .error e => routineFault s r e
    | .ok (ad, bd) =>
      let as := tabulate 32 fun i => tabulate 16 fun k => aElem r ad i k
      let bs := tabulate 32 fun j => tabulate 16 fun k => bElem r (bd.getD j []) k j
      let (t, fl) := addTile (taskOf s core) af (fmtB r.fmt) as bs
      let s := modTask s core fun _ => t
      let s := setSticky s core (stickyFlags fl)
      stepRoutine (chargeMicro (chargeUnit s core (stepClass af) 1) core r (.mstep sw)) r

/-! mshape, mwaitb, msig (R308, R310, R311). -/

/-- mshape (R308). -/
def execMshape (s : State) : Outcome :=
  micro s fun r =>
    match shapeOperand s s.cur.core r with
    | .error e => routineFault s r e
    | .ok d =>
      let z4 := r.zreg 4
      stepRoutine (chargeMicro s s.cur.core r .mshape)
        { r with z := (((r.z.set 5 (wordAt d 0)).set 6 (wordAt d 1)).set 7 (wordAt d 2)).set 4 (z4 + 16) }

/-- mwaitb: it waits on a wait entry; a faulted barrier satisfies it and sets STATUS.MB (R310). -/
def execMwaitb (z : Fin 8) (inc : Bool) (s : State) : Outcome :=
  micro s fun r =>
    let w := r.zreg z.val
    if w.getLsbD 31 = false then stepRoutine s r
    else if waitInvalid w then routineFault s r 1
    else
      let next (s : State) : State :=
        stepRoutine s (if inc then r.setZ z.val (withBits w 0 8 (bits w 0 8 + 1)) else r)
      if waitFaulted s w then next (setSticky s s.cur.core flagMB)
      else if waitSatisfied s w then next s
      else s

/-- Effects outside the cores are made once for a twin pair, by the trailing core (R386). -/
def actsOutside (s : State) (core : Nat) : Bool :=
  match groupOn s core with
  | some g => !g.twin || g.trailing.contains core
  | none => true

/-- msig (R311). -/
def execMsig (z : Fin 8) (bytes : BitVec 12) (s : State) : Outcome :=
  micro s fun r =>
    let (bc, b) := barRef (clusterOf s.cur.core) (r.zreg z.val)
    let s := if actsOutside s s.cur.core then arrive s bc b bytes.toNat else s
    stepRoutine s r

/-! Drains (R63, R309, R315, R316). -/

/-- A drain descriptor is well formed (R309). -/
def descOk (d : Word) : Bool :=
  bits d 28 4 == 0 && bits d 0 13 == 0 && decide (bits d 22 4 ≤ 8) && decide (bits d 15 3 ≤ 4) && bits d 13 2 != 3
    && !(decide (6 ≤ bits d 22 4) && bits d 19 2 == 1)

/-- d := fl32(s + c) of a cell, zero for an empty one (R63, R315), with the flags of the sum but inexact (DESIGN CHOICE, unsafe: log
entry 93). -/
def cellSum (t : Triple) : Nat × Nat :=
  if t.n = 0 then (0, 0)
  else let r := floatAdd .fp32 Env.plain t.s.toNat t.c.toNat; (r.1, Nat.land r.2 30)

/-- What a check compares in one row or column: its cells and its check state (R315). -/
structure Line where
  cells : List Triple
  state : Check

/-- The exact sum of the d of a line, in units of 2 to the −300. -/
def Line.sum (l : Line) : Int := (l.cells.map fun t => unitsOf (decodeVal .fp32 false (cellSum t).1)).foldl (· + ·) 0

/-- The contributors counted in the cells of a line. -/
def Line.count (l : Line) : Nat := (l.cells.map Triple.n).foldl (· + ·) 0

/-- The value test of a line is skipped (R315). -/
def Line.skipped (l : Line) : Bool :=
  l.state.special || l.cells.any fun t => !(finite32 t.s.toNat && finite32 t.c.toNat && finite32 (cellSum t).1)

/-- 2 to the 20 times the tolerance T, in units of 2 to the −300 (R315). -/
def Line.tolerance (l : Line) : Int := l.state.mag + 2 ^ 176

/-- A line mismatches in count or in value (R315). -/
def Line.mismatches (l : Line) : Bool :=
  (l.state.count != l.count && !l.cells.any fun t => t.n == 2 ^ 24 - 1)
    || (!l.skipped && decide (l.tolerance < 2 ^ 20 * ((l.sum - l.state.sum).natAbs : Int)))

/-- Row `i` of a tile, and column `j`. -/
def rowLine (t : Task) (i : Nat) : Line :=
  ⟨tabulate 32 fun j => lookup Triple.absent t.cells (32 * i + j), lookup Check.zero t.rows i⟩
def colLine (t : Task) (j : Nat) : Line :=
  ⟨tabulate 32 fun i => lookup Triple.absent t.cells (32 * i + j), lookup Check.zero t.cols j⟩

/-- The outcome of the check: the tile released as it stands, released with one cell corrected, or uncorrectable (R316). -/
inductive CheckOutcome where
  | released
  | corrected (cell : Nat) (value : Triple)
  | uncorrectable

/-- The corrected cell of row `i` and column `j`, when the conditions of R316 hold. -/
def correction (i j : Nat) (row col : Line) (t : Triple) : Option (Nat × Triple) :=
  let others : Int := (row.count : Int) - t.n
  let n : Int := (row.state.count : Int) - others
  let dOthers := row.sum - unitsOf (decodeVal .fp32 false (cellSum t).1)
  let diff := row.state.sum - dOthers
  let resid := (row.state.sum - row.sum) - (col.state.sum - col.sum)
  if row.skipped || col.skipped then none
  else if row.tolerance + col.tolerance < 2 ^ 20 * (resid.natAbs : Int) then none
  else if (row.state.count : Int) - row.count ≠ (col.state.count : Int) - col.count then none
  else if n < 0 ∨ 2 ^ 24 ≤ n then none
  else
    let s := if n = 0 ∨ diff = 0 then 0 else (roundReal .fp32 Env.plain (decide (diff < 0)) diff.natAbs 1 (-300)).1
    some (32 * i + j, ⟨BitVec.ofNat 32 s, 0, n.toNat⟩)

/-- The check of a tile under FMT.CK (R315, R316). -/
def checkTile (t : Task) (ck : Nat) : CheckOutcome :=
  if ck = 0 then .released
  else
    let rows := (List.range 32).filter fun i => Line.mismatches (rowLine t i)
    let cols := (List.range 32).filter fun j => Line.mismatches (colLine t j)
    match rows, cols with
    | [], [] => .released
    | [i], [j] =>
      if ck = 2 then
        match correction i j (rowLine t i) (colLine t j) (lookup Triple.absent t.cells (32 * i + j)) with
        | some (k, v) => .corrected k v
        | none => .uncorrectable
      else .uncorrectable
    | _, _ => .uncorrectable

/-- The value a drain converts for a cell: its d, or d / n exactly (R63). -/
def drainVal (t : Triple) (norm zero : Bool) : Val :=
  if t.n = 0 then (if zero then .real false 0 1 0 else .absent)
  else match decodeVal .fp32 false (cellSum t).1 with
    | .real n m d e => .real n m (if norm then d * t.n else d) e
    | v => v

/-- Under FZ a value of magnitude below 2 to the −126 becomes zero of its sign before BX encoding (R63). -/
def flushVal (fz : Bool) (v : Val) : Val :=
  if fz && v.present && magLt v.magnitude (1, 1, -126) then (match v with
    | .real n _ _ _ => .real n 0 1 0
    | v => v)
  else v

/-- One value delivered in an IEEE or integer format (R56, R63). -/
def drainElem (tf : Format) (env : Env) (v : Val) : Nat × Nat :=
  if tf.isFloat then encodeFloat tf env 23 v else encodeInt tf env.mode v

/-- The 128 bytes of one row's entry, and the flags (R309). -/
def drainRow (tf : Format) (env : Env) (vs : List Val) : List Byte × Nat :=
  if tf.isBlock then
    let vs := vs.map (flushVal env.fz)
    let g0 := encodeBlock tf env.mode (vs.take 16)
    let g1 := encodeBlock tf env.mode (vs.drop 16)
    let bs := leBytes (Format.groupSize tf) g0.1 ++ leBytes (Format.groupSize tf) g1.1
    (bs ++ List.replicate (128 - bs.length) 0, orFlags g0.2 g1.2)
  else
    let rs := vs.map (drainElem tf env)
    let bs := rs.flatMap fun r => leBytes (tf.width / 8) r.1
    (bs ++ List.replicate (128 - bs.length) 0, joinFlags (rs.map Prod.snd))

/-- The 32 entries a drain captures, with the flags (R63, R309). A bundle sees each from the cycle after its push
(`execDrainPush`). -/
def captureDrain (t : Task) (r : Routine) (desc : Word) : List (Nat × QEntry) × Nat :=
  let tf := (Format.ofCode (bits desc 22 4)).getD .fp32
  let mode := if bits desc 15 3 = 4 then Rounding.ofCode (bits r.fmt 24 2) else Rounding.ofCode (bits desc 15 3)
  let zero := if bits desc 13 2 = 0 then r.fmt.getLsbD 27 else bits desc 13 2 == 2
  let rows := tabulate 32 fun i =>
    let ts : List Triple := tabulate 32 fun j => lookup Triple.absent t.cells (32 * i + j)
    let out := drainRow tf ⟨mode, r.fmt.getLsbD 26⟩ (ts.map fun t => drainVal t (desc.getLsbD 21) zero)
    (out.1, orFlags out.2 (joinFlags (ts.map fun t => (cellSum t).2)))
  (rows.map fun (bs, _) => (bits desc 26 2,
    ⟨0, bs, tf, bits desc 19 2, desc.getLsbD 18, bits (r.zreg 2) 0 16, bits (r.zreg 3) 0 16⟩), joinFlags (rows.map Prod.snd))

/-- mdrain (R309, R315, R316). -/
def execMdrain (pw : Fin 16) (clr : Bool) (s : State) : Outcome :=
  micro s fun r =>
    let core := s.cur.core
    let desc := r.param pw.val
    if descOk desc = false then routineFault s r 1
    else if !(coreOf s core).mx.drain.isEmpty then s
    else
      let capture (s : State) : State :=
        let (es, fl) := captureDrain (taskOf s core) r desc
        let s := modMx s core fun mx => { mx with drain := es }
        let s := setSticky s core (stickyFlags fl)
        let s := if clr then clearTile s core else s
        stepRoutine (chargeUnit s core 10 32) r
      match checkTile (taskOf s core) (bits r.fmt 28 2) with
      | .released => capture s
      | .corrected k v =>
        capture (setSticky (modTask s core fun t => { t with cells := update Triple.absent t.cells k v }) core flagMC)
      | .uncorrectable => routineFault s r 11

/-! The unit's own events (R296, R297, R309). -/

/-- MCALL_ACCEPT: an idle unit accepts a waiting call (R296). -/
def execMcallAccept (core : Nat) (s : State) : Outcome := .next (acceptCall s core)

/-- DRAIN_PUSH: the next captured entry enters its queue, where a bundle sees it from the next cycle; it waits while the queue is
full, or is discarded during a suspension (R309, R317, R318). -/
def execDrainPush (core : Nat) (s : State) : Outcome :=
  let c := coreOf s core
  match c.mx.drain with
  | [] => .next s
  | (q, e) :: rest =>
    if (c.task.queues.getD q []).length < 64 then
      .next (modTask (modMx s core fun mx => { mx with drain := rest }) core fun t =>
        { t with queues := modifyAt t.queues q fun l => l ++ [{ e with since := s.now + 1 }] })
    else if c.mx.discard then .next (modMx s core fun mx => { mx with drain := rest })
    else .next s

/-- The fields of an image header and its entries are well formed (R297). -/
def imageOk (bs : List Byte) : Bool :=
  let w1 := wordAt bs 1
  let base := bits w1 16 11
  let count := bits w1 0 12
  let entry (i : Nat) : Nat := leNat ((bs.drop (8 + 2 * i)).take 2)
  (wordAt bs 0).toNat == 0x584D0001 && bits w1 27 5 == 0 && bits w1 12 4 == 0 && decide (1 ≤ count)
    && decide (count ≤ 2048) && decide (base + count ≤ 2048) && (List.range 64).all fun i => field (entry i) 11 4 == 0

/-- The first `n` bytes of an image, or the cause for which its barrier is marked: bytes outside the handle are a refusal,
unmapped ones and those of a device that does not answer a layer that is absent (R77, R90, R297, R436), poisoned ones a refusal
(DESIGN CHOICE, unsafe: log entry 88). -/
def loadExtent (s : State) (l : LoadReq) (n : Nat) : Except Nat (List Byte) :=
  let pa (i : Nat) : Nat := l.entry.pa (l.offset + i)
  if l.entry.len < l.offset + n then .error 3
  else if !(List.range n).all fun i => mapped s (pa i) && peerAnswers s (pa i) then .error 5
  else if (List.range n).any fun i => poisonedAt s (pa i) 1 then .error 3
  else .ok (tabulate n fun i => readByte s (pa i))

/-- The image an `mload` names, when its handle may be read and its fields are well formed: its header and entries are read, then
all of it (R90, R93, R297). -/
def imageOf (s : State) (l : LoadReq) : Except Nat (List Byte) :=
  let h := l.entry
  if h.valid && decide (h.kind < 2) && h.program == l.program && h.rd && servedLayer s h.base != 1 then
    match loadExtent s l 136 with
    | .error c => .error c
    | .ok hd => if imageOk hd then loadExtent s l (136 + 4 * bits (wordAt hd 1) 0 12 + 64) else .error 3
  else .error 3

/-- An entry of the table after an image: the image's where it marks it valid (R297). -/
def imageEntry (bs : List Byte) (i : Nat) (old : Option Nat) : Option Nat :=
  let w := leNat ((bs.drop (8 + 2 * i)).take 2)
  if w.testBit 15 then some (field w 0 11) else old

/-- The words and entries of an image written on a core: a write of its issuer outside the rollback domain (R297, R382). -/
def installOn (w : Writer) (bs : List Byte) (s : State) (core : Nat) : State :=
  let w1 := wordAt bs 1
  let s := store s w (microPA core (bits w1 16 11)) ((bs.drop 136).take (4 * bits w1 0 12))
  modMx s core fun mx => { mx with entries := mx.entries.zipIdx.map fun (e, i) => imageEntry bs i e }

/-- A verified image installed, and chained into the attestation digest (R297, R428). -/
def installImage (s : State) (l : LoadReq) (bs : List Byte) : State :=
  let s := l.cores.foldl (installOn l.writer bs) s
  { s with pkg := { s.pkg with imageChain := Config.chainDigest s.pkg.imageChain bs } }

/-- The unit of a core runs nothing and no call waits for it (R297). -/
def unitIdle (s : State) (core : Nat) : Bool :=
  let mx := (coreOf s core).mx
  mx.routine.isNone && mx.waiting.isNone

/-- An `mload` replaced. -/
def setLoad (s : State) (l l' : LoadReq) : State :=
  { s with dom := { s.dom with loads := s.dom.loads.replace l l' } }

/-- An image read and judged: refused, not verified, or kept until it is installed; its transfer is charged to the context that
asked for it (R297, R364, R430). -/
def judgeLoad (s : State) (l : LoadReq) : State :=
  let done : State := { s with dom := { s.dom with loads := s.dom.loads.erase l } }
  match imageOf (outside s noCore) l with
  | .error c => markFaulted done l.barCluster l.bar c
  | .ok bs =>
    let n := bs.length - 64
    let moved (s : State) : State := chargeTo s l.core l.gid 12 ((bs.length + 63) / 64)
    if Config.sm2Verifies 0 (sm3 (bs.take n)) (bs.drop n) then setLoad (moved s) l { l with image := some bs }
    else securityAlarm (markFaulted (moved done) l.barCluster l.bar 3) 2

/-- An image that can be read asks the banks for its rows before it is read (R83, R85). -/
def askLoad (s : State) (l : LoadReq) : Option State :=
  match l.asked, imageOf (outside s noCore) l with
  | none, .ok bs =>
    let rs := towerRequests s 4 s.nextId (tabulate bs.length fun i => l.entry.pa (l.offset + i))
    if rs.isEmpty then none
    else some (setLoad { s with nextId := s.nextId + 1, bankReqs := s.bankReqs ++ rs } l { l with asked := some s.nextId })
  | _, _ => none

/-- MLOAD_INSTALL: the oldest image asked for a core is read and judged, then installed when the unit is idle and no call waits
(R297); like an engine's command it stops in the checkpoint phase of a seal (R377) and at a crossing that changes (R111). -/
def execMloadInstall (core : Nat) (s : State) : Outcome :=
  match s.dom.loads.find? fun l => l.core == core with
  | none => .next s
  | some l =>
    if s.seals.phase = .checkpoint ∨ crossingShut s l.entry.base = true then .next s
    else match l.image with
      | none => if l.asked.any (commandAsks s) then .next s else .next ((askLoad s l).getD (judgeLoad s l))
      | some bs =>
        if l.cores.all (unitIdle s) then
          .next (arrive (installImage { s with dom := { s.dom with loads := s.dom.loads.erase l } } l bs) l.barCluster l.bar 4)
        else .next s

end Sys2Proof.Machine
end

