-- ==== Sys2Proof/Machine/Memory.lean ====
section
/-! DEFINITION. The M slot: loads, stores and predicate spills of the near layer, vector and transposing access, remote
members, result-queue stores, and the asynchronous global accesses as they issue (R224 to R242). -/

namespace Sys2Proof.Machine

open Sys2Proof

/-! Shared access. -/


/-- A store of the issuing core to its own column: it performs on each core of a twin pair (R228, R386), after what the
issuer's earlier commands read there (R117). -/
def nearStore (s : State) (ea : Nat) (bs : List Byte) : State :=
  let pa := nearPA s.cur.core ea
  let s := ownStands (sign s 40 ea (leNat bs + bs.length * 2 ^ 1024))
  store (noteOwnStore s s.cur.core pa bs.length) (writerOf s) pa bs

/-- Bytes that follow one another in a row written as one. -/
def joinChunks : List (Nat × List Byte) → List (Nat × List Byte)
  | [] => []
  | (a, bs) :: rest =>
    match joinChunks rest with
    | (b, cs) :: more => if b = a + bs.length ∧ b % 16 ≠ 0 then (a, bs ++ cs) :: more else (a, bs) :: (b, cs) :: more
    | [] => [(a, bs)]

/-- Bytes that a store writes in several places of the own column. In a bundle at a scope above 0 they are seen once the remote
accesses before it have performed (R122; `noteOwnStore`). -/
def storeChunks (s : State) (cs : List (Nat × List Byte)) : State :=
  (joinChunks cs).foldl (fun s c => nearStore s c.1 c.2) s

/-- A remote access of the issuing core: it asks the member's banks unless a `drain` holds it, and performs in issue order
(R85, R118, R124). At a scope above 0 a load is an acquire, bound before the accesses that follow it (R122; `bindAcquires`). The
store of a leading core is made by its trailing partner (R386). -/
def remoteAccess (s : State) (target : Nat) (op : RemoteOp) : State :=
  let core := s.cur.core
  let order := (curTask s).order
  let asks := !fenced s core s.now && !s.cur.lichen && (op.isLoad || s.cur.external)
  let s := if asks then { s with bankReqs := s.bankReqs ++ requestsAt target 7 (remoteOwner core order) op.rows } else s
  modCur s fun t => { t with
    remotes := t.remotes ++ [⟨s.cur.cycle + 24, order, s.now, target, op, asks, op.isLoad && s.cur.scope != 0, none, false⟩],
    order := order + 1 }

/-- A store to another member's column (R118). -/
def remoteStore (s : State) (target : Nat) (cs : List (Nat × List Byte)) : State :=
  let s := cs.foldl (fun s c => sign s 41 (target * 2 ^ 18 + c.1) (leNat c.2 + c.2.length * 2 ^ 1024)) s
  remoteAccess s target (.store (joinChunks cs) (writerOf s))

/-- The bytes read at issue from the own column. -/
def nearRead (s : State) (ea n : Nat) : List Byte := readBytes s (nearPA s.cur.core ea) n

/-- A value loaded into a register of a file, due three cycles after issue: it enters a latch stack only in file M (R227). -/
def giveLoad (s : State) (fl : File) (d : Nat) (v : Word) (bad : Bool) : State :=
  issueResult s 3 3 (if fl = .m then some (.scalar .m v) else none) (regDest fl d v) 0 bad

/-- A scalar load of `n` bytes with its extension to 32 bits (R227). -/
def scalarLoad (i : Instr) (fl : File) (d : Fin 32) (x y : SSrc) (n : Nat) (extend : Nat → Word) (s : State) : Outcome :=
  issue i s fun s =>
    let ea := sumAddr s x y
    giveLoad (charge s 4 1) fl d.val (extend (leNat (nearRead s ea n))) (poisonedAt s (nearPA s.cur.core ea) n)

/-- ldb (R227). -/
def execLdb (g : Guard) (fl : File) (d : Fin 32) (x y : SSrc) (s : State) : Outcome :=
  scalarLoad (.ldb g fl d x y) fl d x y 1 (fun v => BitVec.ofInt 32 (sextNat v 8)) s

/-- ldbu (R227). -/
def execLdbu (g : Guard) (fl : File) (d : Fin 32) (x y : SSrc) (s : State) : Outcome :=
  scalarLoad (.ldbu g fl d x y) fl d x y 1 (BitVec.ofNat 32) s

/-- ldh (R227). -/
def execLdh (g : Guard) (fl : File) (d : Fin 32) (x y : SSrc) (s : State) : Outcome :=
  scalarLoad (.ldh g fl d x y) fl d x y 2 (fun v => BitVec.ofInt 32 (sextNat v 16)) s

/-- ldhu (R227). -/
def execLdhu (g : Guard) (fl : File) (d : Fin 32) (x y : SSrc) (s : State) : Outcome :=
  scalarLoad (.ldhu g fl d x y) fl d x y 2 (BitVec.ofNat 32) s

/-- ldw (R227). -/
def execLdw (g : Guard) (fl : File) (d : Fin 32) (x y : SSrc) (s : State) : Outcome :=
  scalarLoad (.ldw g fl d x y) fl d x y 4 (BitVec.ofNat 32) s

/-- ldd (R227). -/
def execLdd (g : Guard) (d : Fin 8) (x y : SSrc) (s : State) : Outcome :=
  issue (.ldd g d x y) s fun s =>
    let ea := sumAddr s x y
    issueResult (charge s 4 1) 3 3 none [.wide d.val (BitVec.ofNat 64 (leNat (nearRead s ea 8)))] 0
      (poisonedAt s (nearPA s.cur.core ea) 8)

/-- A scalar store of the low `n` bytes of a register (R227, R228). -/
def scalarStore (i : Instr) (fl : File) (d : Fin 32) (x y : SSrc) (n : Nat) (s : State) : Outcome :=
  issue i s fun s =>
    storeChunks (charge s 4 1) [(sumAddr s x y, leBytes n (readReg (curTask s) fl d.val).toNat)]

/-- stb (R227). -/
def execStb (g : Guard) (fl : File) (d : Fin 32) (x y : SSrc) (s : State) : Outcome :=
  scalarStore (.stb g fl d x y) fl d x y 1 s

/-- sth (R227). -/
def execSth (g : Guard) (fl : File) (d : Fin 32) (x y : SSrc) (s : State) : Outcome :=
  scalarStore (.sth g fl d x y) fl d x y 2 s

/-- stw (R227). -/
def execStw (g : Guard) (fl : File) (d : Fin 32) (x y : SSrc) (s : State) : Outcome :=
  scalarStore (.stw g fl d x y) fl d x y 4 s

/-- std (R227). -/
def execStd (g : Guard) (d : Fin 8) (x y : SSrc) (s : State) : Outcome :=
  issue (.std g d x y) s fun s =>
    storeChunks (charge s 4 1) [(sumAddr s x y, leBytes 8 ((curTask s).x.getD d.val 0).toNat)]

/-! Vector access (R230 to R232). -/

/-- The swizzle of a vector form: every field zero without an extension word (R230). -/
def swizzleFor : Option Swizzle → Swizzle
  | some e => e
  | none => ⟨0, false⟩

/-- The lanes at or after a position written where `keep` says so, element bytes by bank row (R80, R232). -/
def laneChunks (base mode : Nat) (pair : Bool) (l : Lanes) (keep : Nat → Word → List (Nat × Nat)) :
    List (Nat × List Byte) :=
  l.zipIdx.flatMap fun (w, i) =>
    (keep i w).map fun (off, n) => (laneAddr base mode pair i + off, leBytes n (w.toNat / 2 ^ (8 * off)))

/-- Every lane whole. -/
def wholeLanes (_ : Nat) (_ : Word) : List (Nat × Nat) := [(0, 4)]

/-- The elements that a `vstm` writes of a lane: of a lane the predicate sets, each element that the absent test keeps
(R232). -/
def maskedElems (s : State) (e : MaskedStore) (i : Nat) (w : Word) : List (Nat × Nat) :=
  if (readVPred (curTask s) e.vp.val).getLsbD i then
    match e.skip with
    | none => [(0, 4)]
    | some f => ((List.range f.perLane).filter fun k => !isAbsent f ((elemsOf f w).getD k 0)).map
        fun k => (k * (f.width / 8), f.width / 8)
  else []

/-- vld (R230, R232). -/
def execVld (g : Guard) (u : UnitVW) (d : Fin 28) (x y : SSrc) (ext : Option Swizzle) (s : State) : Outcome :=
  issue (.vld g u d x y ext) s fun s =>
    let a := sumAddr s x y
    let sw := swizzleFor ext
    issueResult (charge s 4 32) 3 3 none
      [.lanes u d.val (readVector s s.cur.core a sw) (BitVec.allOnes 128)] 0 (vectorPoisoned s s.cur.core a sw)

/-- vst (R230, R232). -/
def execVst (g : Guard) (u : UnitVW) (d : Fin 28) (x y : SSrc) (ext : Option Swizzle) (s : State) : Outcome :=
  issue (.vst g u d x y ext) s fun s =>
    let sw := swizzleFor ext
    storeChunks (charge s 4 32)
      (laneChunks (sumAddr s x y) sw.mode.val sw.pair (readLanes (curTask s) u d.val) wholeLanes)

/-- vstm (R230, R232). Without its extension word its predicate is vp0. -/
def execVstm (g : Guard) (u : UnitVW) (d : Fin 28) (x y : SSrc) (ext : Option MaskedStore) (s : State) : Outcome :=
  issue (.vstm g u d x y ext) s fun s =>
    let e := ext.getD ⟨0, false, 0, none⟩
    storeChunks (charge s 4 32)
      (laneChunks (sumAddr s x y) e.mode.val e.pair (readLanes (curTask s) u d.val) (maskedElems s e))

/-- The bank pair of a source row of the transposing load (R233). -/
def transposePair (mode q row : Nat) : Nat :=
  match mode with
  | 0 => q
  | 1 => Nat.xor q (row % 2)
  | 2 => Nat.xor q (row % 4)
  | 3 => Nat.xor q (row % 8)
  | 4 | 5 => Nat.xor q row % 16
  | _ => (q + row) % 16

/-- The near address of element (i, c) of the block (R233). -/
def transposeAddr (base mode q i c : Nat) : Nat :=
  let row := base + i
  (2 * transposePair mode q row + c / 8) * 8192 + row * 16 + 2 * (c % 8)

/-- vldt.h (R233). -/
def execVldth (g : Guard) (u : UnitVW) (d : Fin 28) (x y : SSrc) (ext : Option (Fin 7 × Fin 16)) (s : State) : Outcome :=
  issue (.vldth g u d x y ext) s fun s =>
    let base := sumAddr s x y
    let (mode, q) : Nat × Nat := match ext with
      | some (m, q) => (m.val, q.val)
      | none => (0, 0)
    let half (e : Nat) : Nat := leNat (nearRead s (transposeAddr base mode q (e % 16) (e / 16)) 2)
    let l : Lanes := tabulate 128 fun k => BitVec.ofNat 32 (half (2 * k) + half (2 * k + 1) * 2 ^ 16)
    let bad := (List.range 16).any fun i => [0, 8].any fun c =>
      poisonedAt s (nearPA s.cur.core (transposeAddr base mode q i c)) 16
    issueResult (charge s 4 32) 4 3 none [.lanes u d.val l (BitVec.allOnes 128)] 0 bad

/-! Remote members (R234, R235). -/

/-- A remote load: it delivers at the assumed latency of 24 (R71). -/
def remoteLoad (s : State) (target addr : Nat) (sw : Option Swizzle) (fl : File) (d : Nat) : State :=
  remoteAccess s target (.load addr sw fl d)

/-- The member of the issuer's cluster named by bits of an address. -/
def remoteTarget (s : State) (m : Nat) : Nat := memberCore (clusterOf s.cur.core) m

/-- rld (R234). -/
def execRld (g : Guard) (fl : File) (d : Fin 32) (x y : SSrc) (s : State) : Outcome :=
  issue (.rld g fl d x y) s fun s =>
    let a := sumAddr s x y
    remoteLoad (charge s 5 1) (remoteTarget s (field a 18 6)) (field a 0 18) none fl d.val

/-- rst (R234). -/
def execRst (g : Guard) (fl : File) (d : Fin 32) (x y : SSrc) (s : State) : Outcome :=
  issue (.rst g fl d x y) s fun s =>
    let a := sumAddr s x y
    remoteStore (charge s 5 1) (remoteTarget s (field a 18 6)) [(field a 0 18, wordBytes (readReg (curTask s) fl d.val))]

/-- rvld (R230, R234). -/
def execRvld (g : Guard) (u : UnitVW) (d : Fin 28) (x y : SSrc) (ext : Option Swizzle) (s : State) : Outcome :=
  issue (.rvld g u d x y ext) s fun s =>
    let a := sumAddr s x y
    remoteLoad (charge s 5 32) (remoteTarget s (field a 9 6)) (field a 0 9) (some (swizzleFor ext)) (UnitVW.file u) d.val

/-- rvst (R230, R234). -/
def execRvst (g : Guard) (u : UnitVW) (d : Fin 28) (x y : SSrc) (ext : Option Swizzle) (s : State) : Outcome :=
  issue (.rvst g u d x y ext) s fun s =>
    let a := sumAddr s x y
    let sw := swizzleFor ext
    remoteStore (charge s 5 32) (remoteTarget s (field a 9 6))
      (laneChunks (field a 0 9) sw.mode.val sw.pair (readLanes (curTask s) u d.val) wholeLanes)

/-! Predicate spill (R236). -/

/-- The pairs p2k, p2k+1 for k above 0 from a mask. -/
def pairsOf (v : Nat) : List Dest := (List.range 7).map fun k => .pair (k + 1) (v.testBit (2 * k + 2)) (v.testBit (2 * k + 3))

/-- pld (R236). -/
def execPld (g : Guard) (vp : Option (Fin 16)) (x y : SSrc) (s : State) : Outcome :=
  issue (.pld g vp x y) s fun s =>
    let ea := sumAddr s x y
    match vp with
    | none => issueResult (charge s 4 1) 3 3 none (pairsOf (leNat (nearRead s ea 2))) 0
        (poisonedAt s (nearPA s.cur.core ea) 2)
    | some r =>
      let v : Mask := BitVec.ofNat 128 (leNat (nearRead s ea 16))
      let halves : Option Mask × Option Mask := if r.val % 2 = 0 then (some v, none) else (none, some v)
      issueResult (charge s 4 1) 3 3 none
        (if r.val < 2 then [] else [.vpair (r.val / 2) halves.1 halves.2 (BitVec.allOnes 128)]) 0
        (poisonedAt s (nearPA s.cur.core ea) 16)

/-- pst (R236). -/
def execPst (g : Guard) (vp : Option (Fin 16)) (x y : SSrc) (s : State) : Outcome :=
  issue (.pst g vp x y) s fun s =>
    let ea := sumAddr s x y
    match vp with
    | none => storeChunks (charge s 4 1) [(ea, leBytes 2 (predMask (curTask s)))]
    | some r => storeChunks (charge s 4 1) [(ea, leBytes 16 (readVPred (curTask s) r.val).toNat)]

/-! The store of a result-queue entry (R237, R238). -/

/-- The near address of a byte of an entry, by layout, for a row and a first bank (R238). -/
def qstAddr (e : QEntry) (ea p : Nat) : Nat :=
  let b := field ea 13 5
  let row := field ea 4 9
  let j := p / 16
  match e.layout with
  | 1 => (b + p / e.es) % 32 * 8192 + row * 16 + ea % 16 + p % e.es
  | 2 => Nat.xor ((b + j) % 32) (row % 32) * 8192 + row * 16 + p % 16
  | 3 => (b + e.chunks * e.cb + j) % 32 * 8192 + (row + e.rb) * 16 + p % 16
  | _ => (b + j) % 32 * 8192 + row * 16 + p % 16

/-- What a `qst` writes: each value, but for absent ones when the entry's skip flag is set; block groups whole (R238). -/
def qstChunks (e : QEntry) (ea : Nat) : List (Nat × List Byte) :=
  if e.fmt.isBlock then
    tabulate (2 * Format.groupSize e.fmt) fun p => (qstAddr e ea p, [e.bytes.getD p 0])
  else
    let value (j : Nat) : List Byte := (e.bytes.drop (j * e.es)).take e.es
    ((List.range 32).filter fun j => !(e.skip && isAbsent e.fmt (leNat (value j)))).map
      fun j => (qstAddr e ea (j * e.es), value j)

/-- qst (R238). -/
def execQst (g : Guard) (q : Fin 4) (x y : SSrc) (s : State) : Outcome :=
  issue (.qst g q x y) s fun s =>
    match headEntry s q.val with
    | none => s
    | some e =>
      storeChunks (charge s 4 (if e.layout = 1 then 32 else e.chunks)) (qstChunks e (sumAddr s x y))

/-! The M file (R229). -/

/-- mli (R229). -/
def execMli (g : Guard) (d : Fin 32) (y : SSrc) (s : State) : Outcome :=
  issue (.mli g d y) s fun s => giveScalar (charge s 1 1) .m 3 1 d.val (srcVal s .m y)

/-- madd (R229). -/
def execMadd (g : Guard) (d : Fin 32) (x y : SSrc) (s : State) : Outcome :=
  issue (.madd g d x y) s fun s => giveScalar (charge s 1 1) .m 3 1 d.val (srcVal s .m x + srcVal s .m y)

/-- The M-slot xmov (R229). -/
def execXmovM (g : Guard) (fl : File) (d : Fin 32) (x : SSrc) (s : State) : Outcome :=
  issue (.xmovM g fl d x) s fun s => giveXmov (charge s 1 1) 3 fl d.val (srcVal s .m x)

/-! Asynchronous global accesses as they issue (R239 to R242). -/

/-- What an access needs of its pages (R94, R241). -/
def GlobalOp.need : GlobalOp → Need
  | .load _ _ => ⟨true, false, false⟩
  | .store _ | .held _ | .landing _ _ => ⟨false, true, false⟩
  | .atomic _ _ _ _ _ => ⟨false, false, true⟩

/-- The bytes an access names at its virtual address. -/
def GlobalOp.size : GlobalOp → Nat
  | .load _ n => n
  | .store bs | .held bs | .landing _ bs => bs.length
  | .atomic _ _ w64 _ _ => if w64 then 8 else 4

/-- An access is the landing of an old value, whose read-modify-write has been made (R241). -/
def GlobalOp.isLanding : GlobalOp → Bool
  | .landing _ _ => true
  | .load _ _ | .store _ | .held _ | .atomic _ _ _ _ _ => false

/-- An access in flight, issued once for a twin pair (R240, R386). -/
def issueGlobal (s : State) (va : Nat) (op : GlobalOp) (barCluster bar : Nat) (bad : List Bool) (entered : Bool := false) :
    State :=
  if s.cur.external then
    { s with
      globals := s.globals ++ [⟨s.nextId, s.now, s.cur.core, s.cur.gid, curProgram s, va, op, barCluster, bar, writerOf s,
        bad, s.cur.scope, false, entered⟩],
      nextId := s.nextId + 1 }
  else s

/-- The signature covers what a global access is: its address, what it carries, its barrier (R385). -/
def signGlobal (s : State) (va cluster bar : Nat) (data : List Nat) : State :=
  sign s 42 va (data.foldl (fun n d => n * 2 ^ 8200 + d) (cluster * 1024 + bar))

/-- The egress entries that an access takes at translated addresses: one for each line of the irrevocable bytes of a `gst`, one for
an `irst` or a held `gatom` (R241, R242, R380). -/
def Global.entries (s : State) (x : Global) (pas : List Nat) : Nat :=
  match x.op with
  | .load _ _ | .landing _ _ => 0
  | .held _ => 1
  | .store bs => if x.entered then 0 else egressPieces s pas bs
  | .atomic _ _ _ _ _ => if pas.any (Sys2Proof.Machine.irrevocable s) then 1 else 0

/-- The egress entries of an access that has not entered the buffer. -/
def Global.needs (s : State) (x : Global) : Nat :=
  match x.op with
  | .load _ _ | .landing _ _ => 0
  | .held _ => 1
  | .store _ | .atomic _ _ _ _ _ =>
    match translateAll s (clusterOf x.core) x.space x.va x.op.size x.op.need with
    | .ok pas => x.entries s pas
    | .error _ => 0

/-- An access of a core that has not entered the egress buffer and is to be held there (R135, R241, R242). -/
def Global.irrevocable (s : State) (x : Global) : Bool := x.needs s != 0

/-- A core's irrevocable accesses numbered below one still wait to enter the egress buffer: it enters after them (R135). -/
def heldBefore (s : State) (core id : Nat) : Bool :=
  s.globals.any fun x => x.core == core && decide (x.id < id) && x.irrevocable s

/-- An acquire of a core that issued before a time has not performed (R122). -/
def acquireBefore (s : State) (core t : Nat) : Bool := (taskOf s core).remotes.any fun r => r.acq && decide (r.issued < t)

/-- An asynchronous access of a core waits to start: behind a `drain`, for the acquires before it, or, at a scope above 0, for all
the remote accesses before it (R122, R124, R133). -/
def startWaits (s : State) (core issued scope : Nat) : Bool :=
  fenced s core issued || acquireBefore s core (issued + 1) || (scope != 0 && remotesBefore s core (issued + 1))

/-- An irrevocable access of the issuing core may not enter the egress buffer at its issue (R122, R124, R135). -/
def entryWaits (s : State) : Bool := startWaits s s.cur.core s.now s.cur.scope || heldBefore s s.cur.core s.nextId

/-- gld (R239, R240). -/
def execGld (g : Guard) (d : Fin 32) (x y : SSrc) (len4 bar : Fin 1024) (s : State) : Outcome :=
  issue (.gld g d x y len4 bar) s fun s =>
    let near := (readReg (curTask s) .m d.val).toNat
    let n := 4 * (len4.val + 1)
    let va := globalAddr s x y
    let cluster := clusterOf s.cur.core
    issueGlobal (signGlobal s va cluster bar.val [near, n]) va (.load near n) cluster bar.val []

/-- The irrevocable writes of an extent take their egress entries at issue, one for each line, if nothing goes before them and the
buffer has room (R135, R380): the state, and whether the whole extent is irrevocable. -/
def holdAtIssue (s : State) (va : Nat) (bs : List Byte) (bad : List Bool) (report : Nat × Nat) : Option (State × Bool) :=
  match translateAll s (clusterOf s.cur.core) (curProgram s) va bs.length ⟨false, true, false⟩ with
  | .error _ => none
  | .ok pas =>
    let ps := (piecesAt pas bs bad).filter fun p => irrevocable s p.pa
    if ps.isEmpty || entryWaits s || decide (8192 < (die s (dieOf s.cur.core)).egress.length + ps.length) then none
    else
      some (ps.foldl (fun s p => egressAdd s (dieOf s.cur.core)
        ⟨s.cur.core, s.pkg.intnum, regionOf (writerOf s), some report, .bytes p.pa p.bytes p.bad⟩) s, pas.all (irrevocable s))

/-- One asynchronous access charged where it leaves the core, once for a twin pair (R364, R386). -/
def chargeGlobal (s : State) (n : Nat) : State := if s.cur.external then charge s 13 ((n + 63) / 64) else s


/-- The rows of the own column that a transfer of `n` bytes reads or writes, charged to the issuing context (R364). -/
def chargeRows (s : State) (ea n : Nat) : State := charge s 4 (rowsOf ea n)

/-- gst: it reads the near range at its place in bundle order; irrevocable bytes are held from its issue, and where all of them are
it counts there (R136, R240, R380). -/
def execGst (g : Guard) (d : Fin 32) (x y : SSrc) (len4 bar : Fin 1024) (s : State) : Outcome :=
  issue (.gst g d x y len4 bar) s fun s =>
    let near := (readReg (curTask s) .m d.val).toNat
    let n := 4 * (len4.val + 1)
    let va := globalAddr s x y
    let bs := nearRead s near n
    let cluster := clusterOf s.cur.core
    let bad := nearPoison s near n
    let s := signGlobal (chargeRows s near n) va cluster bar.val [leNat bs, n]
    match (if s.cur.external then holdAtIssue s va bs bad (cluster, bar.val) else none) with
    | some (t, true) => arrive (chargeGlobal t n) cluster bar.val n
    | some (t, false) => issueGlobal t va (.store bs) cluster bar.val bad true
    | none => issueGlobal s va (.store bs) cluster bar.val bad

/-- The home of an access that is to be held with the irrevocable writes, if it translates to one (R241). -/
def heldHome (s : State) (va : Nat) : Option Nat :=
  match translate s (clusterOf s.cur.core) (curProgram s) va ⟨false, false, true⟩ with
  | .ok pa => if irrevocable s pa then some pa else none
  | .error _ => none

/-- gatom: at an irrevocable home it takes an egress entry at issue; elsewhere it is in flight (R241). -/
def execGatom (g : Guard) (d : Fin 32) (x y : SSrc) (aop : Fin 11) (w64 : Bool) (bar : Fin 1024) (s : State) : Outcome :=
  issue (.gatom g d x y aop w64 bar) s fun s =>
    let near := (readReg (curTask s) .m d.val).toNat
    let va := globalAddr s x y
    let n := if w64 then 8 else 4
    let operand := leNat (nearRead s near n)
    let second := if aop.val = 1 then leNat (nearRead s (near + n) n) else 0
    let read := if aop.val = 1 then 2 * n else n
    let bad := poisonedAt s (nearPA s.cur.core near) read
    let cluster := clusterOf s.cur.core
    let s := signGlobal (chargeRows s near read) va cluster bar.val [near, operand, second, 2 * aop.val + w64.toNat]
    match (if s.cur.external && !entryWaits s then heldHome s va else none) with
    | some pa =>
      egressAdd (chargeGlobal s n) (dieOf s.cur.core) ⟨s.cur.core, s.pkg.intnum, regionOf (writerOf s),
        some (cluster, bar.val), .atomic pa aop.val w64 operand second s.cur.core near cluster bar.val s.cur.gid⟩
    | none => issueGlobal s va (.atomic near aop.val w64 operand second) cluster bar.val (List.replicate n bad)

/-- The write of an `irst` enters the egress buffer, and counts; a failed translation, and an address of regions 1 to 3, mark the
barrier faulted (R242). -/
def enterEgress (s : State) (va : Nat) (bs : List Byte) (bc b : Nat) : State :=
  match translateHeld s (clusterOf s.cur.core) (curProgram s) va with
  | .error c => markFaulted s bc b c
  | .ok pa => arrive (egressAdd s (dieOf s.cur.core)
      ⟨s.cur.core, s.pkg.intnum, regionOf (writerOf s), some (bc, b), .bytes pa bs (bs.map fun _ => false)⟩) bc b 4

/-- irst (R242). -/
def execIrst (g : Guard) (fl : File) (d : Fin 32) (x y : SSrc) (bar : Word) (s : State) : Outcome :=
  issue (.irst g fl d x y bar) s fun s =>
    let (bc, b) := barRef (clusterOf s.cur.core) bar
    let va := globalAddr s x y
    let v := readReg (curTask s) fl d.val
    let s := signGlobal s va bc b [v.toNat]
    if s.cur.external && !entryWaits s then enterEgress (chargeGlobal s 4) va (wordBytes v) bc b
    else issueGlobal s va (.held (wordBytes v)) bc b []

end Sys2Proof.Machine
end

