-- ==== Sys2Proof/Machine/Queues.lean ====
section
/-! DEFINITION. The front end's registers, the command journal, and the acceptance of packets (R321 to R327, R331, R332,
R334, R335, R344, R345). -/

namespace Sys2Proof.Machine

open Sys2Proof

/-! Queue registers (R321, R322). -/

/-- The registers of a queue. -/
def queueOf (s : State) (q : Nat) : Queue := lookup Queue.initial s.queues q

/-- The state with a queue's registers changed. -/
def modQueue (s : State) (q : Nat) (f : Queue → Queue) : State :=
  { s with queues := assign s.queues q (f (queueOf s q)) }

def Queue.enabled (q : Queue) : Bool := q.cfg.getLsbD 63
def Queue.p31 (q : Queue) : Bool := q.cfg.getLsbD 62
def Queue.program (q : Queue) : Nat := bits q.cfg 32 16
def Queue.size (q : Queue) : Nat := 2 ^ bits q.cfg 16 5
def Queue.die (q : Queue) : Nat := bits q.cfg 13 2
/-- The cluster of the front end that serves the queue. -/
def Queue.cluster (q : Queue) : Nat := 24 * q.die + bits q.cfg 8 5

/-- QHEAD (R322). -/
def headOf (s : State) (q : Nat) : Nat := lookup 0 s.dom.heads q

/-- QHEAD written. -/
def setHead (s : State) (q i : Nat) : State :=
  { s with dom := { s.dom with heads := assign s.dom.heads q (i % 2 ^ 32) } }

/-- The packets of a queue that have not completed or failed, in acceptance order. -/
def packetsOf (s : State) (q : Nat) : List Packet := s.dom.packets.filter fun p => p.queue == q

/-- Its packets that are not dispatched. -/
def undispatched (s : State) (q : Nat) : List Packet := (packetsOf s q).filter fun p => p.st == .accepted

/-- An accepted packet by its journal number. -/
def packetOf (s : State) (seq : Nat) : Option Packet := s.dom.packets.find? fun p => p.seq == seq

/-- The reason a queue is halted for, 0 when it is not: a part of the front end's state that a rollback returns (R323, R341). -/
def haltOf (s : State) (q : Nat) : Nat := lookup 0 s.dom.halts q

/-- That reason written. -/
def setHalt (s : State) (q reason : Nat) : State := { s with dom := { s.dom with halts := update 0 s.dom.halts q reason } }

/-- A queue halts with a reason, and the alarm says so (R322, R324, R325, R422). -/
def haltQueue (s : State) (q reason : Nat) : State := raiseAlarm (setHalt s q reason) 4

/-- Word `i` of a packet or node block. -/
def wordOfBlock (l : List Nat) (i : Nat) : Nat := l.getD i 0

/-! The journal (R334, R335). -/

/-- The address of an entry. -/
def journalPA (s : State) (seq : Nat) : Nat :=
  bits s.pkg.jbase 6 46 * 64 + 64 * (seq % 2 ^ bits s.pkg.jsize 0 5)

/-- A field of an entry written; the journal lies outside the rollback domain. -/
def journalPut (s : State) (seq off n v : Nat) : State := storeRaw s (journalPA s seq + off) (leBytes n v)

/-- What is remembered of an entry changed. -/
def modMark (s : State) (seq : Nat) (f : JournalMark → JournalMark) : State :=
  { s with journal := s.journal.map fun m => if m.seq = seq then f m else m }

/-- STATUS and SEALED of an entry rewritten. -/
def journalWord2 (s : State) (seq status rollbacks : Nat) (sealed : Bool) : State :=
  let w := readNat s (journalPA s seq + 8) 4
  journalPut s seq 8 4 (field w 24 8 * 2 ^ 24 + status * 2 ^ 16 + min rollbacks 255 * 2 ^ 8 + sealed.toNat * 2 ^ 7 + field w 0 6)

/-- An entry's status changes, with its time and its detail (R334, R336). -/
def journalStatus (s : State) (seq status detail : Nat) : State :=
  match s.journal.find? fun m => m.seq == seq with
  | none => s
  | some m =>
    let s := journalWord2 s seq status m.rollbacks false
    let s := modMark s seq fun m => { m with
      interval := s.pkg.intnum, touched := s.pkg.intnum, final := decide (2 ≤ status), rolled := false }
    match status with
    | 1 => journalPut s seq 32 8 (deviceTime s)
    | 2 | 3 => journalPut (journalPut s seq 40 8 (deviceTime s)) seq 48 2 detail
    | _ => s

/-- A new entry, or a rolled-back one rewritten under its own number (R334, R341), whose LATV is kept (DESIGN CHOICE, unsafe: log entry
96). -/
def journalOpen (s : State) (seq q index type : Nat) (raw : List Byte) : State :=
  let old := s.journal.find? fun m => m.seq == seq
  let rb := match old with
    | some m => m.rollbacks
    | none => 0
  let s := { s with journal :=
    (s.journal.filter fun m => m.seq != seq) ++ [⟨seq, q, index, s.pkg.intnum, s.pkg.intnum, false, false, rb⟩] }
  let latv := if old.isSome then readNat s (journalPA s seq + 50) 1 else 0
  let entry := leBytes 8 seq ++ leBytes 4 (type % 256 * 2 ^ 24 + min rb 255 * 2 ^ 8 + q) ++ leBytes 4 index
    ++ (sm3 raw).take 8 ++ leBytes 8 (deviceTime s) ++ leBytes 16 0 ++ leBytes 4 (latv * 2 ^ 16) ++ leBytes 12 0
  storeRaw s (journalPA s seq) entry

/-- SEALED set on the entries whose final status lies in a sealed interval; they need no further memory (R335). -/
def sealJournal (s : State) (interval : Nat) : State :=
  let ended (m : JournalMark) : Bool := m.final && decide (m.interval ≤ interval)
  let s := (s.journal.filter ended).foldl (fun s m =>
    let w := readNat s (journalPA s m.seq + 8) 4
    journalPut s m.seq 8 4 (if w.testBit 7 then w else w + 2 ^ 7)) s
  { s with journal := s.journal.filter (fun m => !ended m) }

/-- The slot of the next new entry still holds an entry that is not final and sealed (R334). -/
def journalFull (s : State) : Bool :=
  s.journal.any fun m => m.seq + 2 ^ bits s.pkg.jsize 0 5 == s.pkg.jnext

/-! Latency violations (R344, R345). -/

/-- LATV of an entry counts one more. -/
def journalLate (s : State) (seq : Nat) : State :=
  let v := readNat s (journalPA s seq + 50) 1
  modMark (journalPut s seq 50 1 (min (v + 1) 255)) seq fun m => { m with touched := s.pkg.intnum }

/-- A violation recorded: its trace record, the entry, then the alarm (R345, R422). -/
def recordLate (s : State) (cluster kind seq excess : Nat) : State :=
  let s := trace s (leaderOf cluster) 8 0 0 (kind + seq % 2 ^ 32 * 2 ^ 32 + min excess (2 ^ 32 - 1) * 2 ^ 64)
  raiseAlarm (journalLate s seq) 0

/-- The conditions of R344 hold for a queue. -/
def boundHolds (s : State) (q : Nat) : Bool :=
  decide ((undispatched s q).length < 16) && !journalFull s && decide (2 ≤ (coreOf s (leaderOf (queueOf s q).cluster)).lshare)

/-- The notification that covers an index. -/
def noteOf (s : State) (q index : Nat) : Option Note :=
  let head := headOf s q
  (queueOf s q).notes.find? fun n => decide ((index + 2 ^ 32 - head) % 2 ^ 32 < (n.upTo + 2 ^ 32 - head) % 2 ^ 32)

/-- The bound of R344, 6 µs in cycles of the arithmetic clock (R1). -/
def acceptBound : Nat := 7500

/-- The bound on the acceptance of a packet judged as it is accepted, with the excess in whole nanoseconds (R344, R345). -/
def judgeAcceptance (s : State) (q index seq : Nat) : State :=
  match (queueOf s q).p31, noteOf s q index with
  | true, some n =>
    if n.time + acceptBound < s.now ∧ n.broken = false then
      recordLate s (queueOf s q).cluster 2 seq ((s.now - n.time - acceptBound) * 4 / 5)
    else s
  | _, _ => s

/-- The notifications whose packets are all accepted forgotten. -/
def dropNotes (s : State) (q : Nat) : State :=
  let ahead (n : Note) : Nat := (n.upTo + 2 ^ 32 - headOf s q) % 2 ^ 32
  let keep (n : Note) : Bool := decide (0 < ahead n) && decide (ahead n < 2 ^ 31)
  modQueue s q fun x => { x with notes := x.notes.filter keep }

/-! Register writes (R322, R323). -/

/-- The notification of a queue (R322). -/
def notifyQueue (s : State) (q tail : Nat) : State :=
  let x := queueOf s q
  let s := modQueue s q fun x => { x with
    tail := tail,
    notes := if x.enabled && x.p31 then x.notes ++ [⟨tail, s.now, !boundHolds s q⟩] else x.notes }
  if x.enabled && haltOf s q == 0 && decide (x.size < (tail + 2 ^ 32 - headOf s q) % 2 ^ 32) then haltQueue s q 2 else s

/-- The bits of QCFG that are stored (R321). -/
def qcfgMask : Dword := 0xC000FFFF001F7F00

/-- Every accepted, undispatched packet of a queue fails (R323). -/
def failUndispatched (s : State) (q : Nat) : State :=
  let s := (undispatched s q).foldl (fun s p => journalStatus s p.seq 3 (7 * 4096)) s
  { s with dom := { s.dom with packets := s.dom.packets.filter fun p => !(p.queue == q && p.st == .accepted) } }

/-- A write of QCFG; `wr` says that EN is among the bits written. The tests of a write of EN := 1 and the head it sets, the
failures of a disable, the first seal (R322, R323, R374; log entry 43). -/
def writeQcfg (s : State) (q : Nat) (v : Dword) (wr : Bool) : State :=
  let v := v &&& qcfgMask
  let was := (queueOf s q).enabled
  let ok := decide (4 ≤ bits v 16 5) && decide (bits v 16 5 ≤ 16) && programValid s (bits v 32 16)
  let v := if v.getLsbD 63 && wr && !ok then setBit v 63 false else v
  let now := v.getLsbD 63
  let s := modQueue s q fun x => { x with cfg := v }
  let s := if was && !now then failUndispatched (setHalt (modQueue s q fun x => { x with notes := [] }) q 0) q else s
  if now && wr then
    let s := setHead (modQueue s q fun x => { x with notes := [] }) q (queueOf s q).tail
    let s := if was then s else setHalt s q 0
    if s.pkg.firstEnable then s else requestSeal { s with pkg := { s.pkg with firstEnable := true } }
  else s

/-- QTAIL_NOTIFICATION (R322). -/
def execQtailNotification (q : Nat) (value : Dword) (s : State) : Outcome :=
  if 64 ≤ q then .next s else .next (notifyQueue s q (bits value 0 32))

/-- QUEUE_ENABLE: a write of QCFG with EN set (R322). -/
def execQueueEnable (q : Nat) (value : Dword) (s : State) : Outcome :=
  if q < 64 ∧ value.getLsbD 63 = true then .next (writeQcfg s q value true) else .next s

/-- QUEUE_DISABLE: a write of QCFG with EN clear (R323). -/
def execQueueDisable (q : Nat) (value : Dword) (s : State) : Outcome :=
  if q < 64 ∧ value.getLsbD 63 = false then .next (writeQcfg s q value true) else .next s

/-! Packets (R325, R326, R331). -/

/-- The bits that a body word of a packet type defines (R326). -/
def bodyMask (type i : Nat) : Nat :=
  let all := 2 ^ 32 - 1
  match type, i with
  | 1, 1 => all | 1, 2 => 0xFFFF | 1, 3 => 0x7F7F
  | 2, 1 => all | 2, 2 => 0xFFFF | 2, 3 => 0x3FF
  | 4, 11 => 0x3F
  | 4, i => if 1 ≤ i ∧ i ≤ 10 then all else 0
  | 5, 1 => all | 5, 2 => 0x3FFFF | 5, 3 => all
  | 6, 1 => all | 6, 2 => 0x7FFFF | 6, 3 => all | 6, 4 => all
  | _, _ => 0

/-- The body of a packet or a node defines no reserved value (R325, R326). A misaligned node array or signal, an OPCODE outside the
list and a wait entry that names cluster 24 to 31 count as nonzero reserved fields (DESIGN CHOICE, unsafe: log entry 90). -/
def bodyOk (w : List Nat) : Bool :=
  let x := wordOfBlock w
  let type := field (x 0) 0 8
  ((List.range 12).all fun i => Nat.land (x (i + 1)) (bodyMask type (i + 1)) == x (i + 1))
    && (match type with
        | 1 => decide (field (x 3) 0 5 < 24) && decide (field (x 3) 8 7 < 96)
        | 2 => x 1 % 64 == 0
        | 4 => [0x01, 0x02, 0x03, 0x06, 0x16].contains (field (x 11) 0 6)
        | 5 => decide (field (x 2) 16 2 < 2) && x 1 % 4 == 0
        | 6 => decide (field (x 2) 16 3 < 5)
            && (field (x 2) 16 3 != 4 || !waitInvalid (BitVec.ofNat 32 (x 1)))
        | t => decide (t < 8))

/-- The packet has a type and no nonzero reserved field (R325, R326). -/
def packetOk (w : List Nat) : Bool :=
  let x := wordOfBlock w
  field (x 0) 10 22 == 0 && decide (field (x 0) 0 8 < 8) && bodyOk w
    && (if (x 0).testBit 9 then x 13 % 4 == 0 && field (x 14) 16 16 == 0
        else x 13 == 0 && x 14 == 0 && x 15 == 0)

/-- The node is one a graph may hold at its index (R331). A nonzero reserved field of its body fails it as well (DESIGN CHOICE,
unsafe: log entry 90). -/
def nodeOk (w : List Nat) (index : Nat) : Bool :=
  let x := wordOfBlock w
  field (x 0) 8 24 == 0 && [0, 1, 3, 4, 5].contains (field (x 0) 0 8) && bodyOk w
    && [13, 14, 15].all fun i =>
      field (x i) 10 21 == 0 && (!(x i).testBit 31 || decide (field (x i) 0 10 < index))

/-- The words of a 64-byte block. -/
def blockWords (bs : List Byte) : List Nat := tabulate 16 fun i => (wordAt bs i).toNat

/-- The address two words of a packet hold. -/
def packetVA (lo hi : Nat) : Nat := lo + 2 ^ 32 * field hi 0 16

/-- The nodes of a graph packet, read through the queue's program; none when a translation fails, or a peer does not find them
(R331, R436). -/
def readNodes (s : State) (q : Queue) (w : List Nat) : Option (List (List Nat)) :=
  let x := wordOfBlock w
  (List.range (field (x 3) 0 10 + 1)).foldr (fun i acc =>
    match translateThere s q.cluster q.program (packetVA (x 1) (x 2) + 64 * i) 64 ⟨true, false, false⟩, acc with
    | .ok pas, some l => some (blockWords (readAll s pas) :: l)
    | _, _ => none) (some [])

/-- The nodes in the snapshot store (R331). -/
def snapshotUse (s : State) : Nat := (s.dom.packets.map fun p => p.nodes.length).foldl (· + ·) 0

/-- The number an accepted packet's entry takes: a rolled-back entry of the same queue and index keeps its own (R341). -/
def acceptSeq (s : State) (q index : Nat) : Option Nat :=
  ((s.journal.filter fun m => m.rolled && m.queue == q && m.index == index
      && (packetOf s m.seq).isNone).map JournalMark.seq).min?

/-- Where a packet of a queue lies (R322). -/
def packetPA (s : State) (q index : Nat) : Nat :=
  bits (queueOf s q).base 12 40 * 4096 + 64 * (index % (queueOf s q).size)

/-- The packet memory of a queue can be read at an address (R325). -/
def packetThere (s : State) (pa : Nat) : Bool :=
  extentMapped s pa 64 && !poisonedAt s pa 64 && (pa / 2 ^ 48 == 0 || pa / 2 ^ 48 == 4)

/-- The nodes of a graph packet that would be accepted, as its program's memory holds them; none of any other packet, and no
answer when a translation fails (R331). -/
def graphNodes (s : State) (q : Nat) (w : List Nat) : Option (List (List Nat)) :=
  let x := queueOf s q
  if packetOk w && programValid s x.program && field (wordOfBlock w 0) 0 8 == 2 then readNodes (outside s noCore) x w else some []

/-- The snapshot store has room for the nodes of a packet (R331). -/
def snapshotFits (s : State) (q : Nat) (w : List Nat) : Bool :=
  decide (snapshotUse s + ((graphNodes s q w).getD []).length ≤ 4096)

/-- A queue accepts its next packet when nothing stops it (R327, R331, R334). -/
def acceptsNow (s : State) (q : Nat) : Bool :=
  let x := queueOf s q
  let pa := packetPA s q (headOf s q)
  x.enabled && haltOf s q == 0 && headOf s q != x.tail && decide ((undispatched s q).length < 16)
    && ((acceptSeq s q (headOf s q)).isSome || !journalFull s)
    && (!packetThere s pa || snapshotFits s q (blockWords (readBytes s pa 64)))

/-- An accepted packet that fails at acceptance. -/
def failAccepted (s : State) (q seq reason detail : Nat) : State :=
  haltQueue (journalStatus s seq 3 detail) q reason

/-- PACKET_ACCEPTANCE (R324 to R327, R331, R334). A malformed packet is recorded as such, whether its program's entry is valid or
not (DESIGN CHOICE, unsafe: log entry 90). -/
def execPacketAcceptance (q : Nat) (s : State) : Outcome :=
  if q < 64 ∧ acceptsNow s q = true then
    let x := queueOf s q
    let index := headOf s q
    let pa := packetPA s q index
    if !packetThere s pa then .next (haltQueue s q 4)
    else
      let raw := readBytes s pa 64
      let w := blockWords raw
      let type := field (wordOfBlock w 0) 0 8
      let valid := programValid s x.program
      let nodes := graphNodes s q w
      let ns := nodes.getD []
      let (seq, jnext) := match acceptSeq s q index with
        | some n => (n, s.pkg.jnext)
        | none => (s.pkg.jnext, s.pkg.jnext + 1)
      let s := { s with pkg := { s.pkg with jnext := jnext } }
      let s := journalOpen s seq q index type raw
      let s := judgeAcceptance s q index seq
      let s := dropNotes (setHead s q (index + 1)) q
      if !packetOk w then .next (failAccepted s q seq 1 (1 * 4096))
      else if !valid then .next (failAccepted s q seq 3 (8 * 4096))
      else match nodes, (List.range ns.length).find? fun i => !nodeOk (ns.getD i []) i with
        | none, _ => .next (journalStatus s seq 3 (2 * 4096))
        | some _, some i => .next (journalStatus s seq 3 (3 * 4096 + i))
        | some _, none =>
          .next { s with dom := { s.dom with packets := s.dom.packets ++
            [⟨seq, q, index, w, .accepted, none, ns.map fun n => ⟨n, .accepted, false, none, 0⟩, 0, 0, false⟩] } }
  else .next s

/-- QSTATE.STATE (R321, R323). -/
def queueState (s : State) (q : Nat) : Nat :=
  let x := queueOf s q
  if !x.enabled then 0
  else if haltOf s q != 0 then 4
  else match packetsOf s q, (undispatched s q).head? with
    | [], _ => if headOf s q = x.tail then 1 else 2
    | ps, some p =>
      let h := wordOfBlock p.words 0
      if (h.testBit 8 && (match ps.head? with
          | some f => f.seq != p.seq
          | none => false)) || (h % 256 == 6 && !p.ready) then 3 else 2
    | _, none => 2

end Sys2Proof.Machine
end

