-- ==== Sys2Proof/Machine/Sorus.lean ====
section
/-! DEFINITION. The sorus of a cluster: placing and dispatching its head frond, reserving, pre-empting, stealing, and the
bound on priority-31 fronds (R26, R337 to R340, R343, R345, R388). -/

namespace Sys2Proof.Machine

open Sys2Proof

/-! Pre-emption requests (R349, R350). -/

/-- A group is asked to stop for a pre-emption: the request arises on every rank, and one that waits already stands for it
(R350, R354). -/
def preemptGroup (s : State) (gid detail : Nat) : State :=
  modGroup s gid fun g =>
    if g.pending.any fun c => c.code == 12 then g
    else { g with pending := g.pending ++ [⟨12, detail, List.range g.members.length, none⟩] }

/-! Members and blocks (R21, R337, R388). -/

/-- The sori stop dispatching until the cut of a seal (R377). -/
def soriStopped (s : State) : Bool := s.seals.phase == .quiesce || s.seals.phase == .checkpoint

/-- A member that a frond may be placed on: in service, or quarantined in a twin pair whose other core is not (R388). -/
def memberServes (s : State) (cluster : Nat) (twin : Bool) (m : Nat) : Bool :=
  let cst (m : Nat) : Nat := (coreOf s (memberCore cluster m)).cstate
  cst m == 0 || (twin && cst m == 1 && cst (if m % 2 = 0 then m + 1 else m - 1) != 1)

/-- A member that is idle for a head: in service, unoccupied, and reserved for no other (R337, R338). -/
def memberIdle (s : State) (cluster : Nat) (twin : Bool) (head : Option Nat) (m : Nat) : Bool :=
  let so := sorusOf s cluster
  memberServes s cluster twin m && (groupOn s (memberCore cluster m)).isNone
    && (!so.reserved.contains m || (so.reservedFor == head && head.isSome))

/-- The members a frond occupies from a base. -/
def blockMembers (f : Frond) (b : Nat) : List Nat := (List.range (occupied f.widthCode f.twin)).map (b + ·)

/-- The blocks a frond may take, lowest first: the one its base names, or every aligned one (R21, R338). -/
def placements (f : Frond) : List Nat :=
  let occ := occupied f.widthCode f.twin
  if f.base = 63 then (List.range (48 / occ)).map (· * occ) else [f.base]

/-- Those whose members may all be used. -/
def servingBlocks (s : State) (cluster : Nat) (f : Frond) : List Nat :=
  (placements f).filter fun b => (blockMembers f b).all (memberServes s cluster f.twin)

/-- The reason a rewritten placement is rejected for (R24, R337); 0 when it may be placed. -/
def placementFault (f : Frond) : Nat :=
  let occ := occupied f.widthCode f.twin
  if f.widthCode = 7 then 1
  else if f.twin && f.widthCode == 6 then 7
  else if f.base ≠ 63 ∧ (f.base % occ ≠ 0 ∨ 48 < f.base + occ) then 2
  else if 255 < f.stage + widthOf f.widthCode - 1 then 3
  else 0

/-! The head (R337, R338). -/

/-- A frond is served before another: by priority, then by ready time, ties by the order of R197. -/
def Frond.before (f g : Frond) : Bool :=
  decide (g.priority < f.priority) || (decide (f.priority = g.priority)
    && (decide (f.ready < g.ready) || (decide (f.ready = g.ready) && decide (f.tie ≤ g.tie))))

/-- The head of the highest non-empty priority. -/
def headFrond (so : Sorus) : Option Frond := (sortBy Frond.before (so.fronds.filter fun f => f.st == .runnable)).head?

/-! Dispatch (R26, R30, R338, R345, R357). -/

/-- The context a member starts with (R12, R26, R347). -/
def dispatchTask (words : List Word) (f : Frond) (base rank : Nat) (tvec : Word) : Task :=
  let a : List Word := ((List.range 32).map fun i => if 1 ≤ i ∧ i ≤ 5 then words.getD (6 + i) 0 else 0)
  { Task.initial with
    a := a,
    pc := words.getD 0 0,
    stage := BitVec.ofNat 32 (f.stage + rank),
    group := BitVec.ofNat 32 (f.widthCode * 2 ^ 16 + base * 2 ^ 8 + rank),
    tvec := tvec &&& 0xFFFFFFFC }

/-- The launch of a frond, while its slot is allocated to it (R329). -/
def launchOf (s : State) (launch : Word) : Option Launch :=
  ((s.dom.launches.find? fun e => e.1 == bits launch 0 16).map Prod.snd).filter fun l => l.seq % 65536 == bits launch 16 16

/-- A priority-31 frond dispatched later than its bound of 4 µs, 5,000 cycles, with the excess in whole nanoseconds (R1, R343,
R345). -/
def judgeDispatch (s : State) (cluster : Nat) (f : Frond) : State :=
  let waited := s.now - f.ready
  if f.priority = 31 ∧ f.p31 = true ∧ f.broken = false ∧ 5000 < waited then
    match launchOf s f.launch with
    | some l => recordLate s cluster 1 l.seq ((waited - 5000) * 4 / 5)
    | none => s
  else s

/-- A core whose overlay slots hold segments of another program treats all four as not resident (R324). -/
def Core.dispatchOverlay (c : Core) (program : Nat) : Core :=
  if c.overlay.any fun o => o.state == 2 && o.program != program then { c with overlay := List.replicate 4 ⟨0, 0, 0⟩ } else c

/-- The group of a frond starts on a block (R26, R30, R384). -/
def startGroup (s : State) (cluster base : Nat) (f : Frond) (words : List Word) : State :=
  let w1 := words.getD 1 0
  let program := bits w1 16 16
  let w := widthOf f.widthCode
  let core (m : Nat) : Nat := memberCore cluster m
  let leading := (List.range w).map fun r => core (if f.twin then base + 2 * r else base + r)
  let trailing := if f.twin then (List.range w).map fun r => core (base + 2 * r + 1) else []
  let tvec := BitVec.ofNat 32 (programWord s program 3)
  let start (s : State) (ids : List Nat) : State :=
    ids.zipIdx.foldl (fun s (id, r) =>
      modCore (modTask s id fun _ => dispatchTask words f base r tvec) id fun c => c.dispatchOverlay program) s
  let s := start (start s leading) trailing
  let g : Group :=
    { gid := s.nextId, members := leading, trailing := trailing, twin := f.twin, frond := f.ptr, space := f.space,
      program := program, launch := f.launch, priority := f.priority, cluster := cluster, spill := words.getD 13 0,
      privProgram := programPriv s program, counter := 0,
      saveMode := w1.getLsbD 3, trailingSave := false, saveCount := 0, lastCause := 0, pending := [], susp := none, stopping := none, tiles := [],
      pauseCode := 0, pauseCount := 0, frozen := none, single := false, limitTicks := 0, boundaries := [], lichenHold := false,
      lichenCores := [], dispatched := s.now, signatures := [], loads := [] }
  let s := { s with groups := s.groups ++ [g], nextId := s.nextId + 1 }
  trace s (leaderOf cluster) 1 0 0 (f.ptr + f.launch.toNat * 2 ^ 32 + f.priority * 2 ^ 64)

/-- The reservation of a sorus ends. -/
def releaseReservation (s : State) (cluster : Nat) : State :=
  modSorus s cluster fun so => { so with reserved := [], reservedFor := none }

/-- The head is dispatched on a block: its record is read again, and its program tested again (R24, R357). -/
def dispatchFrond (s : State) (cluster base : Nat) (f : Frond) : State :=
  let s := releaseReservation s cluster
  match recordOf s cluster f.space f.ptr with
  | none => dropFrond s cluster f
  | some words =>
    if programValid s (bits (words.getD 1 0) 16 16) = false then rejectFrond s cluster f 8
    else if bits (words.getD 0 0) 0 2 ≠ 0 then rejectFrond s cluster f 5
    else
      let f := { f with st := .running }
      match setFrondWord s cluster f.space f.ptr 12 (statusWord 3 f.faulted f.lastSusp f.cause 0) with
      | none => dropFrond s cluster f
      | some s => judgeDispatch (startGroup (setFrond s cluster f) cluster base f words) cluster f

/-! Reserving and pre-empting (R338 rules 4 and 5, R340). -/

/-- The groups that occupy a member of a block. -/
def blockGroups (s : State) (cluster : Nat) (f : Frond) (b : Nat) : List Group :=
  s.groups.filter fun g => (blockMembers f b).any fun m => g.all.contains (memberCore cluster m)

/-- The greatest priority that runs on a block, and the time of its last dispatch. -/
def blockPriority (gs : List Group) : Nat := gs.foldl (fun m g => max m g.priority) 0
def blockDispatch (gs : List Group) : Nat := gs.foldl (fun m g => max m g.dispatched) 0

/-- One block is pre-empted rather than another: by the lowest greatest priority, then by the latest dispatch (R340). -/
def preferBlock (s : State) (cluster : Nat) (f : Frond) (b c : Nat) : Bool :=
  let x := blockGroups s cluster f b
  let y := blockGroups s cluster f c
  decide (blockPriority x < blockPriority y) || (decide (blockPriority x = blockPriority y)
    && decide (blockDispatch y ≤ blockDispatch x))

/-- The block a priority-31 head pre-empts: none holds a member that runs a priority-31 task (R340). -/
def preemptBlock (s : State) (cluster : Nat) (f : Frond) : Option Nat :=
  (sortBy (preferBlock s cluster f)
    ((servingBlocks s cluster f).filter fun b => (blockGroups s cluster f b).all fun g => g.priority != 31)).head?

/-- The idle members of a block. -/
def idleMembers (s : State) (cluster : Nat) (f : Frond) (b : Nat) : List Nat :=
  (blockMembers f b).filter (memberIdle s cluster f.twin (some f.tie))

/-- The block a head reserves: the one it has begun to reserve, else the lowest with the most idle members (R338). -/
def reserveBlock (s : State) (cluster : Nat) (f : Frond) : Option Nat :=
  let so := sorusOf s cluster
  let blocks := servingBlocks s cluster f
  match (if so.reservedFor = some f.tie then so.reserved.head? else none) with
  | some m => blocks.find? fun b => (blockMembers f b).contains m
  | none => (sortBy (fun b c => decide ((idleMembers s cluster f c).length ≤ (idleMembers s cluster f b).length)) blocks).head?

/-- The head reserves what is idle of its block. -/
def reserveFor (s : State) (cluster : Nat) (f : Frond) : State :=
  match reserveBlock s cluster f with
  | none => s
  | some b =>
    let mine := idleMembers s cluster f b
    modSorus s cluster fun so => { so with
      reserved := (blockMembers f b).filter (fun m => mine.contains m || (so.reservedFor == some f.tie && so.reserved.contains m)),
      reservedFor := some f.tie }

/-- Every member of the head's block is reserved: it has pre-empted for it. -/
def hasPreempted (s : State) (cluster : Nat) (f : Frond) : Bool :=
  let so := sorusOf s cluster
  so.reservedFor == some f.tie && so.reserved.length == occupied f.widthCode f.twin

/-- The head cannot be placed: a priority-31 frond pre-empts a block, any other reserves (R338, R340). -/
def holdMembers (s : State) (cluster : Nat) (f : Frond) : State :=
  if hasPreempted s cluster f then s
  else match (if f.priority = 31 then preemptBlock s cluster f else none) with
    | some b =>
      let s := (blockGroups s cluster f b).foldl (fun s g => preemptGroup s g.gid 1) s
      modSorus s cluster fun so => { so with reserved := blockMembers f b, reservedFor := some f.tie }
    | none => reserveFor s cluster f

/-- A head whose width or base fits no block is rejected: an invalid program comes before it in the order of R24. -/
def rejectPlacement (s : State) (cluster : Nat) (f : Frond) : State :=
  match recordOf s cluster f.space f.ptr with
  | none => dropFrond s cluster f
  | some words =>
    rejectFrond s cluster f (if programValid s (bits (words.getD 1 0) 16 16) = false then 8 else placementFault f)

/-- SORUS_DISPATCH: the head frond is placed and dispatched, or holds members until it can be (R338, R340). -/
def execSorusDispatch (cluster : Nat) (s : State) : Outcome :=
  if soriStopped s ∨ 96 ≤ cluster then .next s
  else match headFrond (sorusOf s cluster) with
    | none =>
      .next (if (sorusOf s cluster).reservedFor.isNone then s else releaseReservation s cluster)
    | some f =>
      let s := if (sorusOf s cluster).reservedFor = some f.tie ∨ (sorusOf s cluster).reservedFor = none then s
        else releaseReservation s cluster
      if placementFault f ≠ 0 then .next (rejectPlacement s cluster f)
      else match (placements f).find? fun b => (blockMembers f b).all (memberIdle s cluster f.twin (some f.tie)) with
        | some b => .next (dispatchFrond s cluster b f)
        | none => .next (holdMembers s cluster f)

/-! Stealing (R339). -/

/-- A frond that can be stolen, from another die only when it roams. -/
def stealable (across : Bool) (f : Frond) : Bool :=
  f.st == .runnable && f.widthCode == 0 && !f.pinned && !f.twin && (!across || f.roam)

/-- The highest priority of any candidate of the sori, the first sorus that holds it, and its oldest candidate there. -/
def pickSteal (s : State) (across : Bool) (sori : List Nat) : Option (Nat × Nat) :=
  let best (c : Nat) : Option Frond :=
    (sortBy Frond.before ((sorusOf s c).fronds.filter (stealable across))).head?
  let found := sori.filterMap fun c => (best c).map fun f => (c, f)
  let top := found.foldl (fun m e => max m e.2.priority) 0
  (found.find? fun e => e.2.priority == top).map fun e => (e.1, e.2.tie)

/-- The frond a thief chooses: on its own die in the order cluster + 1 onward, else on the other dies (R339). -/
def chooseSteal (s : State) (cluster : Nat) : Option (Nat × Nat) :=
  let d := cluster / 24
  let own := (List.range 23).map fun i => 24 * d + (cluster % 24 + 1 + i) % 24
  match pickSteal s false own with
  | some x => some x
  | none => pickSteal s true ((List.range 3).flatMap fun i => (List.range 24).map fun c => 24 * ((d + 1 + i) % 4) + c)

/-- A thief has an idle member and nothing to dispatch (R339). -/
def canSteal (s : State) (cluster : Nat) : Bool :=
  let so := sorusOf s cluster
  so.stealing.isNone && (headFrond so).isNone && (List.range 48).any (memberIdle s cluster false none)

/-- STEAL: a sorus with nothing to dispatch chooses a frond of another (R339). -/
def execSteal (cluster : Nat) (s : State) : Outcome :=
  if soriStopped s = false ∧ cluster < 96 ∧ canSteal s cluster = true then
    match chooseSteal s cluster with
    | some x => .next (modSorus s cluster fun so => { so with stealing := some x })
    | none => .next s
  else .next s

/-- STEAL_TAKE: the chosen frond moves to the thief, if its own sorus has not dispatched it; the thief places it on its
lowest idle member (R339). -/
def execStealTake (cluster : Nat) (s : State) : Outcome :=
  match (sorusOf s cluster).stealing with
  | none => .next s
  | some (home, tie) =>
    let s := modSorus s cluster fun so => { so with stealing := none }
    match (sorusOf s home).fronds.find? fun f => f.tie == tie && stealable (home / 24 != cluster / 24) f with
    | none => .next s
    | some f =>
      let s := removeFrond s home f.ptr f.space
      .next (modSorus s cluster fun so => { so with fronds := so.fronds ++ [{ f with base := 63 }] })

/-! The bound (R343, R345). -/

/-- The conditions of R343 on a runnable frond. -/
def dispatchBound (s : State) (cluster : Nat) (f : Frond) : Bool :=
  let period := bits s.pkg.sealcfg 0 16
  let earlier := (sorusOf s cluster).fronds.filter fun x => x.st == .runnable && x.priority == 31 && x.tie != f.tie && x.before f
  let running := s.groups.filter fun g => g.cluster == cluster && g.priority == 31
  decide (1 ≤ period) && decide (period ≤ 1000) && !f.twin && f.base == 63
    && decide ((running.map fun g => g.all.length).foldl (· + ·) 0
        + (earlier.map fun x => occupied x.widthCode x.twin).foldl (· + ·) 0 + occupied f.widthCode f.twin ≤ 48)
    && decide (2 ≤ (coreOf s (leaderOf cluster)).lshare)

/-- A runnable priority-31 frond whose conditions fail while its bound runs is excused (R345). -/
def judgeFrond (s : State) (cluster : Nat) (f : Frond) : State :=
  if f.st = .runnable ∧ f.priority = 31 ∧ f.p31 = true ∧ f.broken = false ∧ s.now ≤ f.ready + 5000
      ∧ dispatchBound s cluster f = false then
    setFrond s cluster { f with broken := true }
  else s

/-- The bounds of every sorus and of every queue judged at a moment (R343 to R345). -/
def judgeBounds (s : State) : State :=
  let s := s.dom.sori.foldl (fun s (c, so) => so.fronds.foldl (fun s f => judgeFrond s c f) s) s
  s.queues.foldl (fun s (q, x) =>
    if x.notes.isEmpty ∨ boundHolds s q = true then s
    else modQueue s q fun x => { x with notes := x.notes.map (excuse s.now) }) s
where
  excuse (t : Nat) (n : Note) : Note := if t ≤ n.time + acceptBound then { n with broken := true } else n

end Sys2Proof.Machine
end

