-- ==== Sys2Proof/Machine/Recovery.lean ====
section
/-! DEFINITION. Recovery: seals and their messages, the settle walk, the release of irrevocable writes, rollback, the undo of
containment regions, quarantine, scrubbing, substitution and loss (R133, R135, R241, R359, R367 to R394, R418, R425). -/

namespace Sys2Proof.Machine

open Sys2Proof

/-! Intervals and the seal group (R368, R375). -/

/-- The oldest interval that has not sealed. -/
def oldestUnsealed (s : State) : Nat := if s.pkg.sealing then s.pkg.intnum - 1 else s.pkg.intnum

/-- The devices of the seal group. -/
def sealMembers (s : State) : List Nat := (List.range 256).filter (inSealGroup s)

/-- This device coordinates its group: it is the lowest member (R375). -/
def coordinates (s : State) : Bool := (sealMembers s).headD (ownDevice s) == ownDevice s

/-- Every device of the group has reported in the phase. -/
def allReported (s : State) : Bool :=
  s.seals.selfReported && (sealMembers s).all fun d => d == ownDevice s || s.seals.reports.contains d

/-- A phase of the seal begins. -/
def enterPhase (s : State) (p : SealPhase) (number : Nat) : State :=
  traceSeal { s with seals := { s.seals with phase := p, start := s.now, selfReported := false } } number

/-! The release of irrevocable writes (R135, R241, R380). -/

/-- An old value goes to the near layer of the core that issued the atomic, where it lands once the banks have granted its rows
(R83, R241). -/
def landAtomic (s : State) (core near cluster bar gid : Nat) (bs : List Byte) : State :=
  { s with
    globals := s.globals ++ [⟨s.nextId, s.now, core, gid, 0, 0, .landing near bs, cluster, bar, .other, [], 0, false, false⟩],
    nextId := s.nextId + 1 }

/-- The address that a held write names, if it has one. -/
def HeldWrite.place : HeldWrite → Option Nat
  | .send _ _ => none
  | .bytes a _ _ | .add a _ | .atomic a _ _ _ _ _ _ _ _ _ => some a

/-- The barrier of a held write, where it has one, is marked (R425, R436). -/
def Egress.mark (e : Egress) (s : State) (cause : Nat) : State :=
  match e.report with
  | some (cluster, bar) => markFaulted s cluster bar cause
  | none => s

/-- A held write performs: an add and an atomic take the contents of their location as it then stands (R241, R326). Into the
rollback domain it is a write of another party, logged like any (R370); a peer that does not have the place fails it (R436). -/
def performHeld (s : State) (e : Egress) : State :=
  let put (s : State) (a : Nat) (bs : List Byte) : State := storeBoth s .other a bs false
  if e.write.place.any fun a => !peerAnswers s a then e.mark s 5
  else match e.write with
  | .send port bs => { s with frames := s.frames ++ [(port, bs)] }
  | .bytes a bs bad => storePieceBoth s .other ⟨a, bs, bad⟩
  | .add a v => put s a (leBytes 4 ((readNat s a 4 + v.toNat) % 2 ^ 32))
  | .atomic a aop w64 operand second core near cluster bar gid =>
    let n := if w64 then 8 else 4
    let old := readNat s a n
    landAtomic (put s a (leBytes n (atomicResult aop (8 * n) old operand second))) core near cluster bar gid (leBytes n old)

/-- An entry may leave: its interval has sealed, and no open region encloses its issue (R380). -/
def egressReady (s : State) (e : Egress) : Bool := decide (e.interval < oldestUnsealed s) && e.region.isNone

/-- One entry of a buffer met in order: it performs, unless it or an earlier entry of its issuer has to stay. -/
def releaseEntry (acc : State × List Egress) (e : Egress) : State × List Egress :=
  if egressReady acc.1 e && !acc.2.any (fun k => k.issuer == e.issuer) then (performHeld acc.1 e, acc.2)
  else (acc.1, acc.2 ++ [e])

/-- The buffer of a die releases what it may, in issue order per issuer (R380). -/
def releaseDie (s : State) (d : Nat) : State :=
  let l := (die s d).egress
  if l.isEmpty then s
  else
    let r := l.foldl releaseEntry (modDie s d fun x => { x with egress := [] }, [])
    modDie r.1 d fun x => { x with egress := r.2 }

/-- Every die releases what it may. -/
def releaseEgress (s : State) : State := (List.range 4).foldl releaseDie s

/-- The fronds that a sorus holds for an interval that has sealed go on (R212). -/
def releaseHolds (s : State) : State :=
  s.dom.sori.foldl (fun s (c, so) => so.fronds.foldl (fun s f =>
    match f.hold with
    | some n => if n < oldestUnsealed s then
        let f := { f with hold := none }
        retestFrond (setFrond s c f) c f else s
    | none => s) s) s

/-! Losses (R394). -/

/-- The losses declared on a core take effect; the loss of a near or weight slice retires it. -/
def Core.loseLayers (c : Core) : Core :=
  if c.pendLoss = 0 then c
  else
    let lost := c.lost ||| c.pendLoss
    { c with lost := lost, pendLoss := 0, cstate := if lost.getLsbD 0 || lost.getLsbD 1 then 2 else c.cstate }

/-- A handle that a command captured names bytes of a slice whose loss is pending. -/
def Command.meetsLoss (s : State) (c : Command) : Bool :=
  c.handles.any fun h => (extentSpans h.2.base h.2.extent).any fun x =>
    let a := homeOf s x.1
    a / 2 ^ 48 == 1 && (coreOf s (towerCore a)).pendLoss.getLsbD (field a 43 3 - 1)

/-- Pending losses take effect at a recovery point; a running command that they touch notes it (R394). -/
def applyLosses (s : State) : State :=
  let hurt (c : Command) : Command := { c with hurt := c.hurt || c.meetsLoss s }
  { s with
    cores := s.cores.map fun (k, c) => (k, c.loseLayers),
    dom := { s.dom with engines := s.dom.engines.map fun (k, e) => (k, { e with running := e.running.map hurt }) } }

/-- A slice is declared lost: it is pending until the next recovery point (R394). -/
def declareLoss (s : State) (core layer : Nat) : State :=
  raiseAlarm (modCore s core fun c => { c with pendLoss := setBit c.pendLoss (layer - 1) true }) 1

/-! The seal (R376 to R378). -/

/-- The engine commands of a checkpoint, which have no bank request standing when they go on (R377, R379). -/
def unasked (d : Domain) : Domain :=
  let cmd (c : Command) : Command := { c with asked := false }
  { d with engines := d.engines.map fun (k, e) => (k, { e with queue := e.queue.map cmd, running := e.running.map cmd }) }

/-- The asynchronous accesses that wait past a cut to enter an egress buffer, with no bank request standing (R377, R380). -/
def carriedAccesses (s : State) : List Global := s.globals.map fun x => { x with asked := false }

/-- The cut of a seal (R377 phase 3): the next interval opens, losses take effect, and the state at the cut is kept until
the interval commits (R379). -/
def takeCut (s : State) : State :=
  let s := traceSeal s 3
  let n := s.pkg.intnum + 1
  let s := { s with pkg := { s.pkg with
    intnum := n, maxInterval := max s.pkg.maxInterval n, sealing := true, firstCut := true } }
  let s := applyLosses s
  let s := { s with cutDom := some { unasked s.dom with carried := carriedAccesses s }, seals := { s.seals with lastCut := s.now, egressWanted := false, reports := [] } }
  enterPhase s .agreement 4

/-- The commit of a seal (R377 phase 5): the interval is sealed. Its egress entries leave as the next cycle begins (R380,
`plan`). -/
def takeCommit (s : State) : State :=
  let n := s.seals.interval
  let s := traceSeal s 5
  let s := { s with
    sealedDom := s.cutDom.getD s.sealedDom, cutDom := none,
    pkg := { s.pkg with sealing := false, replayGo := false },
    seals := { s.seals with phase := .none, settling := s.seals.settling ++ [n], reports := [], selfReported := false },
    peerUndo := s.peerUndo.filter (fun u => decide (n < u.interval)),
    handovers := s.handovers.filter fun h => decide (n < h.interval) }
  let s := releaseHolds (sealJournal s n)
  if s.seals.wanted then requestSeal s else s

/-- A settle walk still runs whose tag code the next interval would take (R371). -/
def settleConflict (s : State) : Bool := s.seals.settling.any fun n => tagCode n == tagCode (s.pkg.intnum + 1)

/-- A cut that egress pressure asked for keeps its gap from the previous one (R380). -/
def gapPassed (s : State) : Bool :=
  !s.seals.egressWanted || decide (s.seals.lastCut + cyclesOfMicros (bits s.pkg.egrcfg 32 16) ≤ s.now)

/-- The coordinator orders the cut when every device has quiesced and the gap allows it. -/
def tryCut (s : State) : State :=
  if coordinates s && allReported s && gapPassed s then { sendSeal s .cut with agenda := .ev .cutMessage :: s.agenda } else s

/-- The coordinator orders the commit when every device is ready. -/
def tryCommit (s : State) : State :=
  if coordinates s && allReported s then { sendSeal s .commit with agenda := .ev .commitMessage :: s.agenda } else s

/-- SEAL_PERIOD_EXPIRY (R376). -/
def execSealPeriodExpiry (s : State) : Outcome :=
  let period := bits s.pkg.sealcfg 0 16
  if s.pkg.firstCut ∧ period ≠ 0 ∧ s.seals.lastCut + cyclesOfMicros period ≤ s.now then .next (requestSeal s) else .next s

/-- SEAL_REQUEST_MESSAGE: a request of any device of the group (R376). -/
def execSealRequestMessage (device : Nat) (s : State) : Outcome :=
  if inSealGroup s device then .next (requestSeal s) else .next s

/-- TCAUSE and TPC return to what they held before a debug stop, and the group is no longer frozen (R361). -/
def thawGroup (s : State) (g : Group) : State :=
  match g.frozen with
  | none => s
  | some z =>
    let s := z.saved.foldl (fun s (id, c, p) => modTask s id fun t => { t with tcause := c, tpc := p }) s
    modGroup s g.gid fun g => { g with frozen := none, single := false }

/-- A task that has not reached a suspension point is pre-empted for a seal, frozen or not (R377, R418). -/
def preemptForSeal (s : State) (g : Group) : State :=
  let s := thawGroup s g
  if g.susp.isSome || g.lastCause == 12 then s else preemptGroup s g.gid 2

/-- QUIESCE_WINDOW_EXPIRY (R377 phase 1). -/
def execQuiesceWindowExpiry (s : State) : Outcome :=
  if s.seals.phase = .quiesce ∧ s.seals.start + bits s.pkg.sealcfg 16 8 * 125 ≤ s.now then
    .next (s.groups.foldl preemptForSeal s)
  else .next s

/-- SEAL_CHECKPOINT: no task runs, and the engines stop at their checkpoints (R377 phase 2). -/
def execSealCheckpoint (s : State) : Outcome :=
  if s.seals.phase = .quiesce ∧ s.groups.isEmpty = true then .next (enterPhase s .checkpoint 2) else .next s

/-- A running command stands at its checkpoint, or its next write waits for what only the seal can free (R373, R377, R380). -/
def commandStopped (s : State) (c : Command) : Bool := c.atBoundary || (nextPieces s c).any (pieceWaits s c)

/-- Every engine has stopped, and no asynchronous access is in flight but an irrevocable one that waits for the egress buffer,
which only the seal frees (R377, R380; DESIGN CHOICE: log entry 92). -/
def checkpointed (s : State) : Bool :=
  s.dom.engines.all (fun e => e.2.running.all fun c => commandStopped s c)
    && s.globals.all fun x => x.irrevocable s && (egressShort s (dieOf x.core) (x.needs s) || heldBefore s x.core x.id)

/-- QUIESCED_REPORT: engines have stopped, asynchronous accesses have completed, and no settle walk holds the cut back (R371, R377). -/
def execQuiescedReport (s : State) : Outcome :=
  if s.seals.phase = .checkpoint ∧ s.seals.selfReported = false ∧ checkpointed s = true ∧ settleConflict s = false then
    .next (tryCut (sendSeal { s with seals := { s.seals with selfReported := true } } .quiesced))
  else .next s

/-- A report of another device. -/
def takeReport (s : State) (device : Nat) : State :=
  if s.seals.reports.contains device then s
  else { s with seals := { s.seals with reports := device :: s.seals.reports } }

/-- QUIESCED_MESSAGE: the coordinator hears of a device (R377). The report may come before this device has quiesced. -/
def execQuiescedMessage (device : Nat) (s : State) : Outcome :=
  if inSealGroup s device ∧ (s.seals.phase = .quiesce ∨ s.seals.phase = .checkpoint) then .next (tryCut (takeReport s device)) else .next s

/-- CUT_MESSAGE (R377 phase 3). -/
def execCutMessage (s : State) : Outcome :=
  if s.seals.phase = .checkpoint ∧ s.seals.selfReported = true then .next (takeCut s) else .next s

/-- READY_REPORT: every log entry of the interval is performed, which without a log never is (R374, R377 phase 4). -/
def execReadyReport (s : State) : Outcome :=
  if s.seals.phase = .agreement ∧ s.seals.selfReported = false ∧ logEnabled s = true then
    .next (tryCommit (sendSeal { s with seals := { s.seals with selfReported := true } } .ready))
  else .next s

/-- READY_MESSAGE (R377). -/
def execReadyMessage (device : Nat) (s : State) : Outcome :=
  if inSealGroup s device ∧ s.seals.phase = .agreement then .next (tryCommit (takeReport s device)) else .next s

/-- COMMIT_MESSAGE (R377 phase 5). -/
def execCommitMessage (s : State) : Outcome :=
  if s.seals.phase = .agreement ∧ s.seals.selfReported = true then .next (takeCommit s) else .next s

/-- EGRESS_GAP_EXPIRY: MINGAP has passed, and a cut that waited for it may fall (R380). -/
def execEgressGapExpiry (s : State) : Outcome :=
  if s.seals.phase = .checkpoint ∧ s.seals.egressWanted = true then .next (tryCut s) else .next s

/-- SETTLE_WALK_COMPLETE: the tags of the interval's lines that still carry its code are cleared, and its entries freed
(R371). -/
def execSettleWalkComplete (interval : Nat) (s : State) : Outcome :=
  if s.seals.settling.contains interval then
    let mine := s.dies.flatMap fun d => d.undo.filter fun u => u.interval == interval
    let tags := mine.foldl (fun l u =>
      if lookup 0 l (u.line / 64) = tagCode interval then update 0 l (u.line / 64) 0 else l) s.tags
    .next { s with
      tags := tags,
      dies := s.dies.map fun d => { d with undo := d.undo.filter fun u => u.interval != interval },
      seals := { s.seals with settling := s.seals.settling.erase interval } }
  else .next s

/-! Rollback (R341, R379). -/

/-- A line restored to its old contents, with the poison they held, and no write logged (R370, R379). -/
def restoreLine (s : State) (line : Nat) (old : List Byte) (poison : List Nat) : State :=
  let s := storeRaw s line old
  poison.foldl (fun s g => markPoison s g) s

/-- The undo entries of unsealed intervals applied newest first; those of lost slices are skipped (R379 step 3). -/
def applyUndo (s : State) : State :=
  let n := oldestUnsealed s
  let open' := (s.dies.flatMap Die.undo).filter fun u => decide (n ≤ u.interval)
  let s := open'.foldl (fun s u =>
    let s := { s with tags := update 0 s.tags (u.line / 64) 0 }
    if mapped s u.line then restoreLine s u.line u.old u.poison else s) s
  let keep (u : Undo) : Bool := decide (u.interval < n)
  { s with dies := s.dies.map fun d => { d with undo := d.undo.filter keep } }

/-- What the device wrote to peers of the seal group in unsealed intervals, newest first, gives way to what stood there (R375,
R379). -/
def applyPeerUndo (s : State) : State :=
  let n := oldestUnsealed s
  let s := (s.peerUndo.filter fun u => decide (n ≤ u.interval)).foldl (fun s u =>
    { s with ext := u.old.foldl (fun l (a, b) => match b with
      | some b => assign l a b
      | none => l.filter fun e => e.1 != a) s.ext }) s
  { s with peerUndo := [] }

/-- The journal entries written since the last seal are rolled back, those that wait for their packets included (R341). -/
def rollJournal (s : State) : State :=
  let n := oldestUnsealed s
  let next := s.pkg.maxInterval + 1
  (s.journal.filter fun m => decide (n ≤ m.touched)).foldl (fun s m =>
    let s := journalWord2 s m.seq 5 (m.rollbacks + 1) false
    modMark s m.seq fun m => { m with
      rolled := true, final := false, interval := next, touched := next, rollbacks := m.rollbacks + 1 }) s

/-- The irrevocable writes of unsealed intervals are discarded (R135). -/
def dropEgress (s : State) : State :=
  let keep (e : Egress) : Bool := decide (e.interval < oldestUnsealed s)
  { s with dies := s.dies.map fun d => { d with egress := d.egress.filter keep } }

/-- No overlay slot is resident (R379 step 5). -/
def Core.dropOverlay (c : Core) : Core := { c with overlay := List.replicate 4 ⟨0, 0, 0⟩ }

/-- A byte of an extent that is handed over. -/
def Handover.names (h : Handover) (pa : Nat) : Bool := h.meets pa 1

/-- The extent of a handover cleared in the tower and in LPDDR-6, with no log entry (R109). -/
def clearHandover (s : State) (h : Handover) : State :=
  let gone (a : Nat) : Bool := decide (a / 2 ^ 48 < 2) && h.names a
  { s with
    mem := s.mem.filter fun c => !gone c.1,
    poison := s.poison.filter fun g => !(gone g && gone (g + granuleSize g - 1)) }

/-- After a rollback the extents that still wait for their seal are cleared again, and the seal is asked for again: no rollback
returns their old contents (R109). -/
def redoHandovers (s : State) : State :=
  if s.handovers.isEmpty then s
  else
    let s := s.handovers.foldl clearHandover s
    requestSeal { s with handovers := s.handovers.map fun h => { h with interval := s.pkg.intnum } }

/-- The whole device rolls back to the end of the last sealed interval, step by step (R379). What repair and the scrubber ask of
the banks stays, and so does the queue that each front end served last (DESIGN CHOICE, unsafe: log entry 96). -/
def rollBack (s : State) : State :=
  let s := s.groups.foldl discardGroup s
  let s := dropEgress { s with groups := [], bankReqs := s.bankReqs.filter fun r => r.cls == 11, segCopies := [],
                               arrivals := [], marks := [], starts := [], lateArrivals := [], offers := [] }
  let s := applyPeerUndo (applyUndo s)
  let s := rollJournal s
  let s := { s with globals := s.sealedDom.carried, dom := { s.sealedDom with carried := [] }, cutDom := none, tlb := [],
                    cores := s.cores.map fun (k, c) => (k, c.dropOverlay) }
  let s := applyLosses s
  let n := s.pkg.maxInterval + 1
  let s := { s with
    pkg := { s.pkg with intnum := n, maxInterval := n, sealing := false, rbcount := s.pkg.rbcount + 1 },
    seals := { s.seals with
      phase := .none, reports := [], selfReported := false, wanted := false, egressWanted := false },
    agenda := s.agenda.filter fun a => a != .ev .rollback }
  redoHandovers (releaseHolds (trace s 0 12 0 0 (n % 2 ^ 28 + s.pkg.rbcount % 2 ^ 32 * 2 ^ 32)))

/-- A rollback that starts on this device: the others of its group are told (R379). -/
def startRollback (s : State) : State := rollBack (sendSeal s .rollback)

/-- ROLLBACK (R379). -/
def execRollback (s : State) : Outcome := .next (rollBack s)

/-- A seal aborted: the device rolls back and raises the recovery alarm (R378). -/
def abortSeal (s : State) : State := raiseAlarm (rollBack (sendSeal s .abort)) 1

/-- ABORT_MESSAGE (R378). -/
def execAbortMessage (s : State) : Outcome := if s.seals.phase = .none then .next s else .next (abortSeal s)

/-- SEAL_TIMEOUT: TO passes in phase 2 or 4 (R378). -/
def execSealTimeout (s : State) : Outcome :=
  if (s.seals.phase = .checkpoint ∨ s.seals.phase = .agreement)
      ∧ s.seals.start + cyclesOfMicros (bits s.pkg.sealcfg 32 16) ≤ s.now then .next (abortSeal s)
  else .next s

/-! Consumed errors and the undo of regions (R359, R383). -/

/-- The depth of a group's regions, when every member is inside one and at the same depth. -/
def groupDepth (s : State) (g : Group) : Option Nat :=
  let d := (taskOf s (g.members.headD 0)).depth
  if 1 ≤ d ∧ g.all.all (fun id => (taskOf s id).depth == d) = true then some d else none

/-- The innermost regions of a group can be undone alone (R359, R383): outside save mode, not entangled, and the fault not
of a routine that outlived its task (R313). -/
def undoable (s : State) (g : Group) : Option Nat :=
  if g.saveMode || g.susp.isSome then none
  else (groupDepth s g).filter fun d => !s.dom.entangled.contains (g.frond, d)

/-- Work issued inside the regions that has not completed (R383 step 1). -/
def regionBusy (s : State) (g : Group) (d : Nat) : Bool :=
  let mine (w : Writer) : Bool := match w with
    | .region f l _ => f == g.frond && decide (d ≤ l)
    | .other => false
  (allCommands s).any (fun e => mine e.2.writer) || s.globals.any (fun x => mine x.writer)
    || s.dom.loads.any (fun l => mine l.writer)
    || g.all.any fun id => (coreOf s id).mx.routine.isSome || (coreOf s id).mx.waiting.isSome

/-- A line restored as a write of the task in the open interval, on a peer of the seal group too, unless a full log makes it an
error of its own (R373, R375, R383 step 3). -/
def undoRegionLine (s : State) (e : RegionUndo) : State :=
  if 8 ≤ e.line / 2 ^ 48 then restoreLine (logPeer s e.line e.old) e.line e.old e.poison
  else if logFull s .other [e.line] then requestRollback s
  else restoreLine (logInterval s e.line) e.line e.old e.poison

/-- The regions of a group at a depth are undone and control passes to their handlers, in the task's own mode (R359,
R383). -/
def undoRegions (s : State) (g : Group) (d : Nat) (c : Cause) : State :=
  let tpc := causePC s g c
  let mine (e : RegionUndo) : Bool := e.frond == g.frond && e.level == d
  let kept (e : Egress) : Bool := e.region != some (g.frond, d)
  let s := { s with dies := s.dies.map fun (x : Die) => { x with egress := x.egress.filter kept } }
  let s := (s.dom.regionLog.filter mine).foldl undoRegionLine s
  let s := { s with dom := { s.dom with regionLog := s.dom.regionLog.filter (fun e => !mine e) } }
  let s := g.all.foldl (fun s id => modTask s id fun t =>
    { t.clearLatches with
      tcause := causeWord c (g.rankOf id), tpc := tpc, depth := d - 1, pc := t.rgh.getD (d - 1) 0, veiled := [] }) s
  modGroup s g.gid fun g => { g with
    counter := 0, stopping := none, pauseCode := 0, pauseCount := 0, signatures := [], loads := [],
    pending := g.pending.filter fun p => p.code != c.code }

/-- The stores to other columns that the leading cores of a pair have issued and their trailing partners have not: an error has
stopped the pair, and they never perform (R386; log entry 60). -/
def dropUnpaired (s : State) (g : Group) : State :=
  (List.range g.members.length).foldl (fun s r => modTask s (g.members.getD r 0) fun t =>
    { t with remotes := t.remotes.filter fun x =>
        x.op.isLoad || decide (x.order < (taskOf s (g.trailing.getD r 0)).order) }) s

/-- A consumed uncorrectable error taken by its group at a boundary: the regions are undone alone when they can be, once
what they issued has completed; otherwise the domain rolls back (R359, R379, R383). -/
def consumeError (s : State) (g : Group) (c : Cause) : State :=
  match undoable s g with
  | none => startRollback s
  | some d =>
    let s := if g.twin then dropUnpaired s g else s
    if drainsStill s g || regionBusy s g d then s
    else
      let s := drainGroup s g
      match undoable s g with
      | none => startRollback s
      | some d => undoRegions s g d c

/-! Quarantine, self-repair and loss in service (R388, R392 to R394). -/

/-- QUARANTINE_TEST: the fault service tests a core of a pair that diverged, when it is idle (R388). -/
def execQuarantineTest (core : Nat) (fails : Bool) (s : State) : Outcome :=
  let c := coreOf s core
  if c.diverged ∧ (groupOn s core).isNone then
    .next (setCore s core { c with diverged := false, cstate := if fails && c.cstate == 0 then 1 else c.cstate })
  else .next s

/-- The two reserve banks of a slice: the bank each replaces, 32 when it is free, 33 when it fails itself (R389, R390). -/
def reserves (c : Core) (layer : Nat) : List Nat := c.bankRep.getD (layer - 1) []

/-- The banks of a slice that reserves replace. -/
def reservesUsed (c : Core) (layer : Nat) : List Nat := (reserves c layer).filter (· < 32)

/-- The 16-byte rows of one bank of a layer (R83). -/
def bankRows (layer : Nat) : Nat := layerSize layer / 512

/-- Work of the repair-and-scrub requester asks for its next row, in the lowest class (R83, R85). -/
def Scrub.ask (x : Scrub) (s : State) : State :=
  { s with bankReqs := s.bankReqs ++ [⟨x.core, x.layer, x.bank, 11, x.id, 0⟩] }

/-- Work of the repair-and-scrub requester begins on a bank: it asks for its first row (R85, R392, R393). -/
def beginRepair (s : State) (core layer bank rows : Nat) (copy : Bool) (corrected : Nat) (bad : List Nat) : State :=
  let x : Scrub := ⟨core, layer, bank, s.nextId, rows - 1, copy, corrected, bad⟩
  x.ask { s with nextId := s.nextId + 1, scrubs := s.scrubs ++ [x] }

/-- A bank found failing: a free reserve takes its place, and the copy asks for each row of the bank in turn; or the slice is
declared lost (R83, R85, R393, R394). -/
def replaceBank (s : State) (core layer bank : Nat) : State :=
  let c := coreOf s core
  if c.subst.contains (layer, bank) then s
  else if (c.subst.filter fun x => x.1 == layer).length < (reserves c layer).count 32 then
    beginRepair (setCore s core { c with subst := c.subst ++ [(layer, bank)] }) core layer bank (bankRows layer) true 0 []
  else declareLoss s core layer

/-- The requester scrubs the tower, or LPDDR-6: a field of 0 stops it (R392). -/
def scrubs (s : State) (tower : Bool) : Bool := bits s.pkg.scrubcfg (if tower then 0 else 32) 32 != 0

/-- A bank of a slice of the tower. -/
def isBank (layer bank : Nat) : Bool := decide (1 ≤ layer) && decide (layer ≤ 4) && decide (bank < 32)

/-- What the reads of a bank of a slice, or of LPDDR-6, have met: what cannot be corrected is poisoned, and a failing bank is
replaced (R391 to R394). Corrected rows are rewritten as they read. -/
def scrubbed (s : State) (core layer bank corrected : Nat) (bad : List Nat) : State :=
  let s := bad.foldl markPoison s
  if isBank layer bank = true ∧ (bad ≠ [] ∨ 16 ≤ corrected) then replaceBank s core layer bank else s

/-- SCRUB_PASS: the pass over a bank of a slice asks for the bank once for each row it reads and once for each error it rewrites,
one after the other, and ends when the last is granted; the pass over LPDDR-6 ends at once (R83, R85, R392). With no count of
corrected rows the others were met by another read than the pass, which SCRUBCFG does not stop and which has had its bank: it
fails as well (R393; log entry 69). -/
def execScrubPass (core layer bank : Nat) (corrected : Option Nat) (bad : List Nat) (s : State) : Outcome :=
  match corrected with
  | none => .next (scrubbed s core layer bank 0 bad)
  | some n =>
    if scrubs s (decide (1 ≤ layer ∧ layer ≤ 4)) = false then .next s
    else if isBank layer bank then .next (beginRepair s core layer bank (bankRows layer + n) false n bad)
    else .next (scrubbed s core layer bank n bad)

/-- Work of the repair-and-scrub requester goes on once its row is granted: it asks for the next, or it ends. A pass of the scrubber
then says what it met; the copy of a bank has ended (R85, R392, R393). -/
def scrubGranted (s : State) (id : Nat) : State :=
  match s.scrubs.find? fun x => x.id == id with
  | none => s
  | some x =>
    let rest := s.scrubs.erase x
    if s.bankReqs.any fun r => r.cls == 11 && r.owner == id then s
    else if x.rows ≠ 0 then x.ask { s with scrubs := { x with rows := x.rows - 1 } :: rest }
    else if x.copy then { s with scrubs := rest }
    else scrubbed { s with scrubs := rest } x.core x.layer x.bank x.corrected x.bad

/-- The copy of a bank into its reserve still runs. -/
def copiesBank (s : State) (core layer bank : Nat) : Bool :=
  s.scrubs.any fun x => x.copy && x.core == core && x.layer == layer && x.bank == bank

/-- The spares of a bond group that are taken, and those that fail themselves, with lane 256. -/
def sparesUsed (c : Core) (layer group : Nat) : List (Nat × Nat) := c.laneRep.getD (8 * (layer - 1) + group) []

/-- A failing lane takes a free spare of its group, or its slice is declared lost (R393, R394). -/
def replaceLane (s : State) (core layer group lane : Nat) : State :=
  let c := coreOf s core
  let used := sparesUsed c layer group
  match (List.range 8).find? fun k => !used.any fun x => x.1 == k with
  | some k => setCore s core { c with laneRep := c.laneRep.set (8 * (layer - 1) + group) (used ++ [(k, lane)]) }
  | none => declareLoss s core layer

/-- The first free reserve replaces a bank. -/
def takeReserve (bank : Nat) : List Nat → List Nat
  | [] => []
  | r :: rs => if r = 32 then bank :: rs else r :: takeReserve bank rs

/-- BANK_SUBSTITUTION_COMPLETE: a copy into a reserve bank ends, once each of its rows has been granted, or a spare lane takes over;
the repair registers say so (R85, R393). Contents, addresses and poison stay as they are (R72). -/
def execBankSubstitutionComplete (core layer bank : Nat) (lane : Option (Fin 8 × Fin 256)) (s : State) : Outcome :=
  let c := coreOf s core
  match lane with
  | some (group, l) => if 1 ≤ layer ∧ layer ≤ 4 then .next (replaceLane s core layer group.val l.val) else .next s
  | none =>
    if c.subst.contains (layer, bank) && !copiesBank s core layer bank then
      .next (setCore s core { c with
        subst := c.subst.erase (layer, bank), bankRep := c.bankRep.set (layer - 1) (takeReserve bank (reserves c layer)) })
    else .next s

/-! Peers that cannot be reached (R425). -/

/-- A physical address lies in the windows of a device. -/
def namesDevice (s : State) (pa device : Nat) : Bool :=
  decide (8 ≤ pa / 2 ^ 48) && decide (pa / 2 ^ 48 < 16) && homeOf s pa == pa && peerDevice pa == device

/-- A global access in flight reaches a device with one of its bytes. -/
def globalReaches (s : State) (device : Nat) (x : Global) : Bool :=
  !x.op.isLanding && (List.range x.op.size).any fun i => match translate s (clusterOf x.core) x.space ((x.va + i) % 2 ^ 48) ⟨false, false, false⟩ with
    | .ok pa => namesDevice s pa device
    | .error _ => false

/-- A running command, or an image that is read, reaches a device through a handle it captured. -/
def commandReaches (s : State) (device : Nat) (c : Command) : Bool := c.handles.any fun h => namesDevice s h.2.base device

/-- A held write reaches a device. -/
def heldReaches (s : State) (device : Nat) (e : Egress) : Bool := e.write.place.any fun a => namesDevice s a device

/-- The handle that a segment copy reads through, and its entry's own (R170, R172). -/
def segmentHandle (s : State) (c : SegCopy) : Handle :=
  let pa := field (programWord s c.program 1) 4 48 * 16 + 16 * c.segment
  handleOf s (dieOf c.core) (field (readNat s (pa + 8) 4) 0 12)

/-- An engine's command that reaches the device is discarded: it ends, and its barrier is marked with cause refusal. The
reason it records is not stated, and is a free value (R425; log entry 4). -/
def discardCommand (s : State) (e : Nat) (c : Command) : State :=
  let reason := (Config.freeWord s.free).toNat % 256
  let s := dropRunning { s with free := s.free + 1 } e c.id
  let s := if c.nb then s else markFaulted s c.barCluster c.bar 3
  reportPacket (reportCommand s c 5 reason 0) c true reason

/-- Everything in flight to a device discarded, with its barriers marked; a segment copy has failed (R172, R425; log entry 69). -/
def discardPeer (s : State) (device : Nat) : State :=
  let reached (l : LoadReq) : Bool := namesDevice s l.entry.base device
  let hitC := s.dom.engines.flatMap fun (e, g) => (g.running.filter (commandReaches s device)).map fun c => (e, c)
  let hitH := s.dies.flatMap fun d => d.egress.filter (heldReaches s device)
  let ids := (s.globals.filter (globalReaches s device)).map Global.id
    ++ (s.dom.loads.filter reached).filterMap LoadReq.asked
    ++ (s.segCopies.filter fun c => namesDevice s (segmentHandle s c).base device).filterMap SegCopy.asked
  let hitS := s.segCopies.filter fun c => namesDevice s (segmentHandle s c).base device
  let kept := s.segCopies.filter fun c => !namesDevice s (segmentHandle s c).base device
  let t : State := { s with
    globals := s.globals.filter fun x => !globalReaches s device x,
    dom := { s.dom with loads := s.dom.loads.filter fun l => !reached l },
    dies := s.dies.map fun d => { d with egress := d.egress.filter fun e => !heldReaches s device e },
    segCopies := kept }
  let t := ids.foldl dropCommandRequests t
  let t := (s.globals.filter (globalReaches s device)).foldl (fun t x => markFaulted t x.barCluster x.bar 3) t
  let t := (s.dom.loads.filter reached).foldl (fun t l => markFaulted t l.barCluster l.bar 3) t
  let t := hitH.foldl (fun t e => e.mark t 3) t
  let t := hitS.foldl (fun t c => modCore t c.core fun x => { x with overlay := x.overlay.set c.slot ⟨c.program, c.segment, 3⟩ }) t
  hitC.foldl (fun t e => discardCommand t e.1 e.2) t

/-- Something is in flight to a device. -/
def peerInFlight (s : State) (device : Nat) : Bool :=
  s.globals.any (globalReaches s device) || s.dom.loads.any (fun l => namesDevice s l.entry.base device)
    || s.dom.engines.any (fun e => e.2.running.any (commandReaches s device))
    || s.segCopies.any (fun c => namesDevice s (segmentHandle s c).base device)
    || s.dies.any fun d => d.egress.any (heldReaches s device)

/-- PEER_UNREACHABLE: accesses in flight to the device are a consumed error when it is in the seal group, and are discarded
with their barriers marked otherwise (R425). -/
def execPeerUnreachable (device : Nat) (s : State) : Outcome :=
  if peerInFlight s device = false then .next s
  else if inSealGroup s device then .next (startRollback s)
  else .next (discardPeer s device)

end Sys2Proof.Machine
end

