-- ==== Sys2Proof/Machine/Registers.lean ====
section
/-! DEFINITION. The control registers of region 3: what a read returns, what a write does and who may make it, and the events
that are such writes (R6, R91 to R97, R101, R321 to R323, R355, R373, R374, R388, R390, R406 to R412, R415 to R417, R419,
R422, R424, R428 to R431, R435). -/

namespace Sys2Proof.Machine

open Sys2Proof

/-- Who writes a register: the host, a privileged task or the front end on its behalf, or lichen firmware. -/
inductive Party where
  | host
  | task
  | firmware
deriving DecidableEq, Repr

/-- The debug unlock is in effect (R429). -/
def debugUnlocked (s : State) : Bool := s.pkg.dbgunlk.getLsbD 0

/-! Reading. -/

/-- The bits that a bit of a flag contributes. -/
def flagBit (b : Bool) (i : Nat) : Nat := b.toNat * 2 ^ i

/-- COLSTATE (R390). -/
def colstateWord (c : Core) : Nat :=
  c.pendLoss.toNat * 2 ^ 24 + c.lost.toNat * 2 ^ 20
    + ((List.range 4).map fun i => (reservesUsed c (i + 1)).length % 4 * 2 ^ (12 + 2 * i)).foldl (· + ·) 0 + c.cstate % 4

/-- BANKREP (R390). -/
def bankrepWord (banks : List Nat) : Nat :=
  let part (i at' : Nat) : Nat := match banks[i]? with
    | some b => if b < 32 then 2 ^ (at' + 5) + b * 2 ^ at' else 0
    | none => 0
  part 0 2 + part 1 10

/-- LANEREP (R390). -/
def lanerepWord (spares : List (Nat × Nat)) : Nat :=
  ((spares.filter fun x => decide (x.2 < 256)).map fun (k, l) => 2 ^ (64 + k) + l * 2 ^ (8 * k)).foldl (· + ·) 0

/-- A barrier's record (R101). -/
def barrierWord (b : Barrier) : Nat :=
  b.expected * 2 ^ 96 + b.arrived * 2 ^ 64 + b.gen % 256 * 2 ^ 56 + flagBit b.init 55 + flagBit b.fault 54
    + b.scope % 8 * 2 ^ 51 + b.fcause % 8 * 2 ^ 48

/-- A temperature as TSENSE holds it (R435). -/
def tempField (t : Int) : Nat := (BitVec.ofInt 16 t).toNat

/-- TSENSE (R435). -/
def tsenseWord (x : Sensor) : Nat := flagBit x.failed 31 + flagBit x.subst 30 + x.reason % 4 * 2 ^ 28 + tempField x.temp

/-- LCLK: the ratios in effect, and whether a change waits (R431). -/
def lclkWord (d : Die) : Nat := flagBit (d.farPend.isSome || d.midPend.isSome) 63 + d.far % 4 * 16 + d.mid % 4

/-- The register that DBGSEL names, of a frozen context (R148, R417). -/
def debugRead (t : Task) (sel : Dword) : Nat :=
  let r := bits sel 0 8
  let lane := bits sel 12 8
  match File.ofCode (bits sel 8 4) with
  | some .x => (t.x.getD r 0).toNat
  | some .v => ((t.v.getD r zeroLanes).getD lane 0).toNat
  | some .w => ((t.w.getD r zeroLanes).getD lane 0).toNat
  | some .preds => (readPred t r).toNat
  | some .vpreds => ((readVPred t r).getLsbD lane).toNat
  | some fl => (readReg t fl r).toNat
  | none => 0

/-- The group that a core runs is frozen. -/
def frozenOn (s : State) (core : Nat) : Bool :=
  match groupOn s core with
  | some g => g.frozen.isSome
  | none => false

/-- DBGCTL: STOP and PRE read 0 (R415). -/
def dbgctlWord (s : State) (core : Nat) : Nat :=
  let d := (coreOf s core).dbg
  flagBit (frozenOn s core) 7 + flagBit d.step 2 + flagBit d.en 0

/-- The value of a register as it stands. -/
def readRegister (s : State) : RegName → Nat
  | .qbase q => (queueOf s q).base.toNat
  | .qcfg q => (queueOf s q).cfg.toNat
  | .qtail q => (queueOf s q).tail
  | .qhead q => headOf s q
  | .qstate q => haltOf s q % 256 * 2 ^ 8 + queueState s q
  | .jbase => s.pkg.jbase.toNat
  | .jsize => s.pkg.jsize.toNat
  | .jnext => s.pkg.jnext % 2 ^ 64
  | .ptbase => s.pkg.ptbase.toNat
  | .wdcfg => s.pkg.wdcfg.toNat
  | .sealcfg => s.pkg.sealcfg.toNat
  | .sealgrp i => (s.pkg.sealgrp.getD i 0).toNat
  | .intnum => s.pkg.intnum % 2 ^ 64
  | .logbase => s.pkg.logbase.toNat
  | .logcfg => s.pkg.logcfg.toNat
  | .logused d => logUsed s d
  | .egrcfg => s.pkg.egrcfg.toNat
  | .egrused d => (die s d).egress.length
  | .rbcount => s.pkg.rbcount % 2 ^ 64
  | .scrubcfg => s.pkg.scrubcfg.toNat
  | .trbase => s.pkg.trbase.toNat
  | .trctl => (withBits s.pkg.trctl 0 16 (traceMask s)).toNat
  | .trhead => s.pkg.trhead % 2 ^ 64
  | .trlost => s.pkg.trlost
  | .replay => flagBit s.pkg.replayGo 63 + s.pkg.replayMask % 2 ^ 16
  | .ptmcfg => s.pkg.ptmcfg.toNat
  | .devtime => deviceTime s % 2 ^ 64
  | .alarm => s.pkg.alarm.toNat
  | .alarmen => s.pkg.alarmen.toNat
  | .domcfg => s.pkg.domcfg.toNat
  | .peermap i => (s.pkg.peermap.getD i 0).toNat
  | .lclk d => lclkWord (die s d)
  | .attctl => s.pkg.attctl.toNat
  | .attnonce i => leNat ((s.pkg.attnonce.drop (8 * i)).take 8)
  | .dbgchal i => leNat ((s.pkg.dbgchal.drop (8 * i)).take 8)
  | .dbgresp i => leNat ((s.pkg.dbgresp.drop (8 * i)).take 8)
  | .dbgunlk => flagBit (debugUnlocked s) 0
  | .seclog => s.pkg.seclog.toNat
  | .report i => leNat ((s.pkg.report.drop (8 * i)).take 8)
  | .colstate c => colstateWord (coreOf s c)
  | .bankrep c l => bankrepWord (reserves (coreOf s c) l)
  | .lanerep c l g => lanerepWord (sparesUsed (coreOf s c) l g)
  | .biststat d => (die s d).bist.toNat
  | .dbgctl c => dbgctlWord s c
  | .bkpt c i => ((coreOf s c).dbg.bkpt.getD i 0).toNat
  | .dbgsel c => (coreOf s c).dbg.sel.toNat
  | .dbgdata c => if frozenOn s c then debugRead (taskOf s c) (coreOf s c).dbg.sel else 0
  | .loss c k b => lookup 0 (coreOf s c).loss (32 * k + b)
  | .tsense c => tsenseWord (coreOf s c).sensor
  | .handle d h w =>
    let e := (handleOf s d h).fields
    (match w with
      | 0 => e.w0
      | 1 => e.w1
      | 2 => e.w2
      | _ => e.w3).toNat
  | .tlbinv d => (die s d).tlbinv.toNat
  | .barrier c b => barrierWord (barrierOf s c b)

/-! Writes with an effect of their own. -/

/-- The state with the package registers changed. -/
def modPkg (s : State) (f : Package → Package) : State := { s with pkg := f s.pkg }

/-- A write of TRCTL; `start` says that it writes EN := 1, which clears the counts. SIZE is taken only while tracing is off
(R408). -/
def writeTrctl (s : State) (v : Dword) (start : Bool) : State :=
  let old := s.pkg.trctl
  let size := if old.getLsbD 63 then bits old 32 5 else bits v 32 5
  let new : Dword := BitVec.ofNat 64 (flagBit (v.getLsbD 63) 63 + size * 2 ^ 32 + bits v 0 16)
  modPkg s fun p => { p with
    trctl := new, trhead := if start then 0 else p.trhead, trlost := if start then 0 else p.trlost }

/-- A write of REPLAY; `go` says that it writes GO := 1, which rolls the group back and starts the stretch in which its mask is
in force (R419). -/
def writeReplay (s : State) (v : Dword) (go : Bool) : State :=
  let s := modPkg s fun p => { p with replayMask := bits v 0 16 }
  if go then startRollback (modPkg s fun p => { p with replayGo := true }) else s

/-- The changes of clock ratio that a die waits for. -/
def ratioChanges (s : State) (d : Nat) : List Act :=
  (if (die s d).farPend.isSome then [.unit .farRatioChange d 0 0] else [])
    ++ (if (die s d).midPend.isSome then [.unit .midRatioChange d 0 0] else [])

/-- A write of LCLK: a field of code 3 changes nothing; a write during a change replaces what waits (R431). The FIFOs of the
crossings are empty between acts, so that the change is the next act and nothing enters one that is shut (R111; log entry 8). -/
def writeLclk (s : State) (d : Nat) (v : Dword) : State :=
  let next (cur : Nat) (pend : Option Nat) (code : Nat) : Option Nat :=
    if code = 3 then pend else if pend.isSome || code != cur then some code else none
  let s := modDie s d fun x => { x with
    farPend := next x.far x.farPend (bits v 4 2), midPend := next x.mid x.midPend (bits v 0 2) }
  { s with agenda := ratioChanges s d ++ s.agenda }

/-- A write of WDCFG, in effect at once: the limit is compared with every task's count as it stands (R355). -/
def writeWdcfg (s : State) (v : Dword) : State := modPkg s fun p => { p with wdcfg := v &&& 0x800FFFFF }

/-- A write of CSTATE; a write of 3 is ignored (R388, R390). -/
def writeCstate (s : State) (core v : Nat) : State :=
  if v % 4 = 3 then s else modCore s core fun c => { c with cstate := v % 4 }

/-- A write of TLBINV, which starts an invalidation when it sets BUSY; with KIND 3, or while one runs, it is ignored (R97). -/
def writeTlbinv (s : State) (d : Nat) (v : Dword) : State :=
  if (die s d).tlbinv.getLsbD 63 || bits v 61 2 == 3 then s
  else modDie s d fun x => { x with tlbinv := v &&& 0xE00FFFFFFFFFFFFF }

/-- A write of PTMCFG: without PTM device time is not corrected and counts, and when PTM comes back it measures at once (R406,
R407; log entry 56). -/
def writePtmcfg (s : State) (v : Dword) : State :=
  let was := s.pkg.ptmcfg.getLsbD 63
  let now := v.getLsbD 63
  let s := modPkg s fun p => { p with ptmcfg := (p.ptmcfg &&& 0x4000FFFFFFFF0000) ||| (v &&& 0x800000000000FFFF) }
  { s with
    slew := if now then s.slew else 0, slewFast := now && s.slewFast, synced := s.synced || !now,
    ptmLast := if was then s.ptmLast else none }

/-! The repair registers as firmware writes them (R390). -/

/-- The reserve banks that a word of BANKREP gives: a reserve that fails stays so unless the word puts it in use. -/
def bankrepOf (old : List Nat) (v : Nat) : List Nat :=
  let part (i lo : Nat) : Nat := if v.testBit (lo + 5) then field v lo 5 else if old.getD i 32 = 33 then 33 else 32
  [part 0 2, part 1 10]

/-- The spares that a word of LANEREP gives: a spare that fails stays so unless the word puts it in use. -/
def lanerepOf (old : List (Nat × Nat)) (v : Nat) : List (Nat × Nat) :=
  (old.filter fun x => x.2 == 256 && !v.testBit (64 + x.1))
    ++ ((List.range 8).filter fun k => v.testBit (64 + k)).map fun k => (k, field v (8 * k) 8)

/-- COLSTATE written by firmware, all but RUSED, which counts what BANKREP holds (R390; log entry 50). -/
def firmwareColstate (s : State) (core : Nat) (v : Dword) : State :=
  modCore s core fun c => { c with pendLoss := v.extractLsb' 24 4, lost := v.extractLsb' 20 4 }

/-- A repair register written by firmware (R390). -/
def writeRepair (s : State) (n : RegName) (v : Nat) : State :=
  match n with
  | .bankrep c l => modCore s c fun x => { x with bankRep := x.bankRep.set (l - 1) (bankrepOf (reserves x l) v) }
  | .lanerep c l g =>
    modCore s c fun x => { x with laneRep := x.laneRep.set (8 * (l - 1) + g) (lanerepOf (sparesUsed x l g) v) }
  | .biststat d => modDie s d fun x => { x with bist := BitVec.ofNat 64 v &&& 0xC000FFFFFFFFFFFF }
  | _ => s

/-- A list of bytes with eight of them replaced. -/
def putDword (l : List Byte) (i : Nat) (v : Dword) : List Byte :=
  l.take (8 * i) ++ leBytes 8 v.toNat ++ l.drop (8 * i + 8)

/-- A write of ATTCTL: BUSY := 1 asks for a report, unless one is being formed (R428). -/
def writeAttctl (s : State) (v : Dword) : State :=
  if v.getLsbD 63 && !s.pkg.attctl.getLsbD 63 then modPkg s fun p => { p with attctl := 0x8000000000000000 } else s

/-- A fresh challenge (R429). -/
def drawChallenge (s : State) : State :=
  { s with free := s.free + 1, pkg := { s.pkg with dbgchal := Config.challenge s.free } }

/-- A write of DBGUNLK: GO verifies the response; a write of 0 ends the unlock (R429, R430). -/
def writeDbgunlk (s : State) (v : Dword) : State :=
  if v.getLsbD 63 then
    if Config.sm2Verifies 1 (sm3 (s.pkg.dbgchal ++ leBytes 8 Config.serialNumber)) s.pkg.dbgresp then
      modPkg s fun p => { p with dbgunlk := 1 }
    else drawChallenge (securityAlarm s 3)
  else if v.getLsbD 0 then s
  else modPkg s fun p => { p with dbgunlk := 0 }

/-- A stop is requested of the group of a core (R416). -/
def requestStop (s : State) (core : Nat) : State :=
  match groupOn s core with
  | some g => modGroup s g.gid fun g => { g with pending := g.pending ++ [⟨14, 0, [g.rankOf core], none⟩] }
  | none => s

/-- A pre-emption is requested of the group of a core (R416). -/
def requestPreempt (s : State) (core : Nat) : State :=
  match groupOn s core with
  | some g => preemptGroup s g.gid 3
  | none => s

/-- A frozen group resumes on a write of 0 to FROZEN of its rank-0 core; under STEP for one bundle (R361, R417). -/
def resumeGroup (s : State) (core : Nat) : State :=
  match groupOn s core with
  | some g =>
    if g.members.headD 0 = core ∧ g.frozen.isSome = true then
      modGroup (thawGroup s g) g.gid fun g => { g with single := (coreOf s core).dbg.step }
    else s
  | none => s

/-- A write of DBGCTL (R415 to R417). -/
def writeDbgctl (s : State) (core : Nat) (v : Dword) : State :=
  let s := modCore s core fun c => { c with dbg := { c.dbg with en := v.getLsbD 0, step := v.getLsbD 2 } }
  let s := if v.getLsbD 7 then s else resumeGroup s core
  let s := if v.getLsbD 1 then requestStop s core else s
  if v.getLsbD 3 then requestPreempt s core else s

/-- A vector register of a context with one lane replaced. -/
def setLane (l : Lanes) (lane : Nat) (v : Word) : Lanes := l.set lane v

/-- The register that DBGSEL names written, of a frozen context (R417). -/
def debugWrite (t : Task) (sel v : Dword) : Task :=
  let r := bits sel 0 8
  let lane := bits sel 12 8
  match File.ofCode (bits sel 8 4) with
  | some .x => { t with x := t.x.set r v }
  | some .v => { t with v := modifyAt t.v r fun l => setLane l lane (v.setWidth 32) }
  | some .w => { t with w := modifyAt t.w r fun l => setLane l lane (v.setWidth 32) }
  | some .preds => if 2 ≤ r ∧ r < 16 then { t with preds := setBit t.preds r (v.getLsbD 0) } else t
  | some .vpreds => if lane < 128 then writeVPred t r (setBit (readVPred t r) lane (v.getLsbD 0)) else t
  | some fl => writeReg t fl r (v.setWidth 32)
  | none => t

/-- A write of DBGDATA; ignored when the group is not frozen (R417). -/
def writeDbgdata (s : State) (core : Nat) (v : Dword) : State :=
  if frozenOn s core then modTask s core fun t => debugWrite t (coreOf s core).dbg.sel v else s

/-- The bits of a breakpoint that are stored (R415). -/
def bkptMask : Dword := 0x8000FFFFFFFFFFFC

/-- A write of a debug register: by the host or privileged software, under the unlock (R415). -/
def writeDebug (s : State) (n : RegName) (v : Dword) : State :=
  if debugUnlocked s then
    match n with
    | .dbgctl c => writeDbgctl s c v
    | .bkpt c i => modCore s c fun x => { x with dbg := { x.dbg with bkpt := x.dbg.bkpt.set i (v &&& bkptMask) } }
    | .dbgsel c => modCore s c fun x => { x with dbg := { x.dbg with sel := v &&& 0xFFFFF } }
    | .dbgdata c => writeDbgdata s c v
    | _ => s
  else s

/-- A counter of the loss matrix cleared; what it counts from then on is all a rise since the last snapshot (R412 to R414). -/
def clearLoss (s : State) (core k b : Nat) : State :=
  modCore s core fun c => { c with
    loss := update 0 c.loss (32 * k + b) 0, lossSeen := update 0 c.lossSeen (32 * k + b) 0 }

/-! The write of a register. -/

/-- What a register holds, which the bits that an access does not write keep: its value as read, but for MASK of TRCTL, which
reads as REPLAY's during a stretch (R419). -/
def storedRegister (s : State) : RegName → Nat
  | .trctl => s.pkg.trctl.toNat
  | n => readRegister s n

/-- A register written with a value: `m` has ones where the access writes. A nonzero write of a reserved field is ignored
(R6); what a party may not write stays as it is. The bits that an access does not write keep what they hold, and an effect that a
field has when it is written happens only when the access writes that field (DESIGN CHOICE, unsafe: log entry 48). -/
def writeRegister (s : State) (who : Party) (n : RegName) (value m : Nat) : State :=
  let full := Nat.land value m + (storedRegister s n - Nat.land (storedRegister s n) m)
  let v : Dword := BitVec.ofNat 64 full
  let ones : Dword := BitVec.ofNat 64 (Nat.land value m)
  let host := who != .task
  match n with
  | .qbase q => modQueue s q fun x => { x with base := v &&& 0x000FFFFFFFFFF000 }
  | .qcfg q => writeQcfg s q v (Nat.testBit m 63)
  | .qtail q => notifyQueue s q (bits v 0 32)
  | .jbase => modPkg s fun p => { p with jbase := v &&& 0x000FFFFFFFFFFFC0 }
  | .jsize => modPkg s fun p => { p with jsize := v &&& 0x1F }
  | .ptbase => modPkg s fun p => { p with ptbase := v &&& 0x000FFFFFFFFFFFC0 }
  | .wdcfg => writeWdcfg s v
  | .sealcfg => modPkg s fun p => { p with sealcfg := v &&& 0x0000FFFF00FFFFFF }
  | .sealgrp i => modPkg s fun p => { p with sealgrp := p.sealgrp.set i v }
  | .logbase => if s.pkg.firstCut then s else modPkg s fun p => { p with logbase := v &&& 0x000FFFFFFFF00000 }
  | .logcfg => if s.pkg.firstCut then s else modPkg s fun p => { p with logcfg := v &&& 0x8000003FFFFFFFFF }
  | .egrcfg => modPkg s fun p => { p with egrcfg := v &&& 0x0000FFFF00003FFF }
  | .scrubcfg => modPkg s fun p => { p with scrubcfg := v }
  | .trbase => if s.pkg.trctl.getLsbD 63 then s else modPkg s fun p => { p with trbase := v &&& 0x000FFFFFFFFFFFE0 }
  | .trctl => writeTrctl s v (ones.getLsbD 63)
  | .replay => if who == .host && debugUnlocked s then writeReplay s v (ones.getLsbD 63) else s
  | .ptmcfg => writePtmcfg s v
  | .alarm => if host then modPkg s fun p => { p with alarm := p.alarm &&& ~~~ones } else s
  | .alarmen => modPkg s fun p => { p with alarmen := v &&& 0x1F }
  | .domcfg => if who == .firmware then modPkg s fun p => { p with domcfg := v &&& 0x80000000000000FF } else s
  | .peermap i => if who == .firmware then modPkg s fun p => { p with peermap := p.peermap.set i v } else s
  | .lclk d => if Nat.land m 0xFF = 0 then s else writeLclk s d v
  | .attctl => if host then writeAttctl s ones else s
  | .attnonce i => if host then modPkg s fun p => { p with attnonce := putDword p.attnonce i v } else s
  | .dbgresp i => if host then modPkg s fun p => { p with dbgresp := putDword p.dbgresp i v } else s
  | .dbgunlk => if host then writeDbgunlk s v else s
  | .colstate c => writeCstate (if who == .firmware then firmwareColstate s c v else s) c (bits v 0 2)
  | .bankrep _ _ | .lanerep _ _ _ | .biststat _ => if who == .firmware then writeRepair s n full else s
  | .dbgctl _ | .bkpt _ _ | .dbgsel _ | .dbgdata _ => writeDebug s n v
  | .loss c k b => clearLoss s c k b
  | .handle d h w => writeHandle s d h w v
  | .tlbinv d => writeTlbinv s d v
  | .qhead _ | .qstate _ | .jnext | .intnum | .logused _ | .egrused _ | .rbcount | .trhead | .trlost | .devtime
  | .dbgchal _ | .seclog | .report _ | .tsense _ | .barrier _ _ => s

/-! Accesses of region 3 by bytes. -/

/-- `n` bytes of region 3 from an offset. -/
def readControl (s : State) (o n : Nat) : List Byte :=
  tabulate n fun i => match locateReg (o + i) with
    | some r => BitVec.ofNat 8 (readRegister s r.name / 2 ^ (8 * (o + i - r.start)))
    | none => 0

/-- Bytes written to region 3 from an offset, register by register; `fuel` bounds the number of registers. -/
def writeControl (s : State) (who : Party) (o : Nat) (bs : List Byte) : Nat → State
  | 0 => s
  | fuel + 1 =>
    match bs, locateReg o with
    | [], _ => s
    | _ :: rest, none => writeControl s who (o + 1) rest fuel
    | bs, some r =>
      let sh := o - r.start
      let k := min bs.length (r.width - sh)
      let s := writeRegister s who r.name (leNat (bs.take k) * 2 ^ (8 * sh)) ((2 ^ (8 * k) - 1) * 2 ^ (8 * sh))
      writeControl s who (o + k) (bs.drop k) fuel

/-! The events that are register writes. -/

/-- Who may write every field of a register that can be written: the host where it alone may (R419), otherwise firmware. -/
def writerFor : RegName → Party
  | .replay => .host
  | _ => .firmware

/-- REGISTER_WRITE: the eight bytes of a register at an offset written by one who may write it (R6, R321). -/
def execRegisterWrite (offset : Nat) (value : Dword) (s : State) : Outcome :=
  match locateReg offset with
  | some r =>
    let sh := 8 * ((offset - r.start) / 8 * 8)
    .next (writeRegister s (writerFor r.name) r.name (value.toNat * 2 ^ sh) ((2 ^ 64 - 1) * 2 ^ sh))
  | none => .next s

/-- HANDLE_ENTRY_WRITE (R93). -/
def execHandleEntryWrite (die h : Nat) (word : Fin 4) (value : Dword) (s : State) : Outcome :=
  if die < 4 ∧ h < 4096 then .next (writeHandle s die h word.val value) else .next s

/-- TLBINV_ALL: kind 0 (R97). -/
def execTlbinvAll (die : Nat) (s : State) : Outcome :=
  if die < 4 then .next (writeTlbinv s die 0x8000000000000000) else .next s

/-- TLBINV_PROGRAM: kind 1 (R97). -/
def execTlbinvProgram (die : Nat) (program : BitVec 16) (s : State) : Outcome :=
  if die < 4 then .next (writeTlbinv s die (BitVec.ofNat 64 (2 ^ 63 + 2 ^ 61 + program.toNat * 2 ^ 36))) else .next s

/-- TLBINV_PAGE: kind 2 (R97). -/
def execTlbinvPage (die : Nat) (program : BitVec 16) (page : BitVec 36) (s : State) : Outcome :=
  if die < 4 then
    .next (writeTlbinv s die (BitVec.ofNat 64 (2 ^ 63 + 2 ^ 62 + program.toNat * 2 ^ 36 + page.toNat)))
  else .next s

/-- An entry that an invalidation names (R97). -/
def invalidated (v : Dword) (e : TlbEntry) : Bool :=
  match bits v 61 2 with
  | 0 => true
  | 1 => e.program == bits v 36 16
  | _ => e.program == bits v 36 16 && decide (e.page ≤ bits v 0 36) && decide (bits v 0 36 < e.page + e.size)

/-- TLBINV_COMPLETE: no entry it names remains in any cluster of the die (R97). -/
def execTlbinvComplete (die : Nat) (s : State) : Outcome :=
  let v := (Sys2Proof.Machine.die s die).tlbinv
  if v.getLsbD 63 then
    let s := { s with tlb := s.tlb.filter fun e => !(e.cluster / 24 == die && invalidated v e) }
    .next (modDie s die fun x => { x with tlbinv := setBit x.tlbinv 63 false })
  else .next s

/-- ATTESTATION_REQUEST: BUSY := 1 (R428). -/
def execAttestationRequest (s : State) : Outcome := .next (writeAttctl s 0x8000000000000000)

/-- A byte string cut or padded with zeros to a length. -/
def fitBytes (n : Nat) (l : List Byte) : List Byte := (l ++ List.replicate n 0).take n

/-- Bytes 0 to 191 of the report (R428). -/
def reportBody (s : State) : List Byte :=
  leBytes 4 0x58540001 ++ leBytes 4 1 ++ leBytes 8 Config.serialNumber ++ fitBytes 32 Config.firmwareDigest
    ++ fitBytes 32 s.pkg.imageChain ++ fitBytes 32 s.pkg.attnonce ++ leBytes 8 (deviceTime s) ++ leBytes 8 Config.fusePolicy
    ++ leBytes 8 (die s 0).bist.toNat ++ leBytes 8 s.pkg.rbcount ++ List.replicate 48 0

/-- ATTESTATION_COMPLETE: the report stands signed, or with a zero signature when the key store is zeroised (R428). -/
def execAttestationComplete (s : State) : Outcome :=
  if s.pkg.attctl.getLsbD 63 then
    let body := reportBody s
    let sig := if s.pkg.zeroised then List.replicate 64 0 else fitBytes 64 (Config.sm2Sign (sm3 body))
    .next (modPkg s fun p => { p with report := body ++ sig, attctl := if p.zeroised then 0 else 1 })
  else .next s

/-- DEBUG_UNLOCK: a write of DBGUNLK.GO (R429). -/
def execDebugUnlock (s : State) : Outcome := .next (writeDbgunlk s 0x8000000000000000)

/-- DEBUG_STOP_REQUEST: a write of DBGCTL.STOP under the unlock (R415, R416). -/
def execDebugStopRequest (core : Nat) (s : State) : Outcome :=
  .next (if debugUnlocked s then requestStop s core else s)

/-- DEBUG_PREEMPT_REQUEST: a write of DBGCTL.PRE under the unlock (R415, R416). -/
def execDebugPreemptRequest (core : Nat) (s : State) : Outcome :=
  .next (if debugUnlocked s then requestPreempt s core else s)

/-- DEBUG_RESUME: a write of FROZEN := 0 under the unlock (R415, R417). -/
def execDebugResume (core : Nat) (s : State) : Outcome := .next (if debugUnlocked s then resumeGroup s core else s)

/-- DBGDATA_WRITE (R415, R417). -/
def execDbgdataWrite (core : Nat) (value : Dword) (s : State) : Outcome := .next (writeDebug s (.dbgdata core) value)

/-- REPLAY_GO: a write of REPLAY by the host under the unlock (R419). -/
def execReplayGo (value : Dword) (s : State) : Outcome :=
  if debugUnlocked s ∧ value.getLsbD 63 = true then .next (writeReplay s value true) else .next s

/-- TRACE_ENABLE: a write of TRCTL with EN set (R408). -/
def execTraceEnable (value : Dword) (s : State) : Outcome :=
  if value.getLsbD 63 then .next (writeTrctl s value true) else .next s

/-- ALARM_CLEAR: a host write of ALARM (R422). -/
def execAlarmClear (value : Dword) (s : State) : Outcome := .next (modPkg s fun p => { p with alarm := p.alarm &&& ~~~value })

/-- LCLK_WRITE (R111, R431). -/
def execLclkWrite (die : Nat) (value : Dword) (s : State) : Outcome := .next (writeLclk s die value)

/-- CLOCK_RATIO_CHANGE: the crossing's FIFO is empty between the steps of the engines, and the new ratio takes effect (R111). -/
def execClockRatioChange (die : Nat) (far : Bool) (s : State) : Outcome :=
  .next (modDie s die fun x =>
    if far then { x with far := x.farPend.getD x.far, farPend := none }
    else { x with mid := x.midPend.getD x.mid, midPend := none })

/-- WDCFG_WRITE (R355). -/
def execWdcfgWrite (value : Dword) (s : State) : Outcome := .next (writeWdcfg s value)

/-- CSTATE_WRITE (R388, R390). -/
def execCstateWrite (core : Nat) (value : Word) (s : State) : Outcome := .next (writeCstate s core (bits value 0 2))

/-- LOSS_COUNTER_CLEAR (R412). -/
def execLossCounterClear (core cls bank : Nat) (s : State) : Outcome := .next (clearLoss s core cls bank)

end Sys2Proof.Machine
end

