-- ==== Sys2Proof/Machine/System.lean ====
section
/-! DEFINITION. The module as a system: host and peer accesses, boot and self-test, device time, thermal and clock control,
links, frames and the hand-over of allocations (R108, R109, R389, R407, R420 to R423, R426, R427, R430, R432, R434 to R436). -/

namespace Sys2Proof.Machine

open Sys2Proof

/-! Accesses that may reach the control registers. -/

/-- The address lies in region 3. -/
def isControl (pa : Nat) : Bool := pa / 2 ^ 48 == 3

/-- A crossing that admits nothing opens when its change takes effect, in a cycle in which its FIFO is empty, as it is between
steps; an access from outside waits for that (R111; log entry 8). -/
def openCrossing (s : State) (pa : Nat) : State :=
  if crossingShut s pa then
    let h := homeOf s pa
    modDie s (field h 46 2) fun x =>
      if field h 43 3 = 3 then { x with mid := x.midPend.getD x.mid, midPend := none }
      else { x with far := x.farPend.getD x.far, farPend := none }
  else s

/-- `n` bytes at a physical address of any region. -/
def accessRead (s : State) (pa n : Nat) : List Byte :=
  if isControl pa then readControl s (pa % 2 ^ 48) n else readBytes s pa n

/-- Bytes written at a physical address of any region, into both columns of a twin pair (R387). -/
def accessWrite (s : State) (who : Party) (w : Writer) (pa : Nat) (bs : List Byte) : State :=
  if isControl pa then writeControl (entangleWriter s w) who (pa % 2 ^ 48) bs bs.length else storeBoth s w pa bs false

/-! The host (R420, R421, R427). -/

/-- The address that an offset of a BAR maps to (R420). -/
def barAddr (bar o : Nat) : Option Nat :=
  match bar with
  | 0 => if o < 2 ^ 27 then some (3 * 2 ^ 48 + o) else none
  | 2 => if o < 2 ^ 40 then some o else none
  | 4 => if o < 2 ^ 36 then
      some (towerAddr (coreId (field o 34 2) (field o 21 11)) (field o 32 2 + 1) (field o 0 21)) else none
  | _ => none

/-- A register that answers while the compute dies are held in reset (R427). -/
def answersHeld : RegName → Bool
  | .alarm | .attctl | .attnonce _ | .report _ => true
  | _ => false

/-- The bytes of a host access are all there (R420, R427). -/
def hostReaches (s : State) (pa n : Nat) : Bool :=
  if s.pkg.held then
    (List.range n).all fun i => isControl (pa + i) && match locateReg ((pa + i) % 2 ^ 48) with
      | some r => answersHeld r.name
      | none => false
  else extentMapped s pa n

/-- HOST_READ: an Unsupported Request where nothing is mapped (R420). The weight layer is mapped through BAR 4 as the other layers are
(DESIGN CHOICE, unsafe: log entry 95). -/
def execHostRead (bar offset n : Nat) (s : State) : Outcome :=
  match barAddr bar offset with
  | some pa =>
    if hostReaches s pa n then
      let s := openCrossing s pa
      .next { s with hostReply := ⟨0, accessRead (outside s noCore) pa n⟩ }
    else .next { s with hostReply := ⟨1, []⟩ }
  | none => .next { s with hostReply := ⟨1, []⟩ }

/-- HOST_WRITE: dropped where nothing is mapped; a write of another party for the logs (R420, R421). The weight layer is mapped through
BAR 4 (log entry 95). -/
def execHostWrite (bar offset n : Nat) (value : Dword) (s : State) : Outcome :=
  match barAddr bar offset with
  | some pa =>
    .next (if hostReaches s pa n then accessWrite (openCrossing s pa) .host .other pa (leBytes n value.toNat) else s)
  | none => .next s

/-! Boot (R108, R301, R389, R421, R427). -/

/-- Events that a boot leaves on the agenda: what comes from outside the machine. -/
def outsideAct : Act → Bool
  | .ev .rollback | .ev .cutMessage | .ev .commitMessage => false
  | .ev _ => true
  | _ => false

/-- The machine in reset, before the self-test: what the model itself counts goes on. -/
def bootState (s : State) : State :=
  drawChallenge { State.reset with
    dies := List.replicate 4 { Die.initial with bist := 0 }, ext := s.ext, nextId := s.nextId, free := s.free,
    agenda := s.agenda.filter outsideAct }

/-- COLD_BOOT: the root of trust checks the firmware image, and holds the compute dies when the check fails (R427, R430). -/
def execColdBoot (verdict : Bool) (s : State) : Outcome :=
  let t := bootState s
  .next (if verdict then t else securityAlarm { t with pkg := { t.pkg with held := true } } 2)

/-- A byte outside the tower. -/
def outsideTower (c : Host.Cell) : Bool := c.1 / 2 ^ 48 != 1

/-- An address of LPDDR-6. -/
def inLpddr (pa : Nat) : Bool := pa / 2 ^ 48 == 0

/-- FUNCTION_LEVEL_RESET: a cold boot of the compute dies, whose stores lose their contents (R301). LPDDR-6, device time, the key
store and the links stay (R421). -/
def execFunctionLevelReset (s : State) : Outcome :=
  if s.pkg.held then .next s
  else
    let t := bootState s
    .next { t with
      mem := s.mem.filter fun c => inLpddr c.1, poison := s.poison.filter inLpddr, now := s.now, slew := s.slew,
      slewFast := s.slewFast, timeAdj := s.timeAdj, synced := s.synced, ptmLast := s.ptmLast,
      pkg := { t.pkg with zeroised := s.pkg.zeroised, seclog := s.pkg.seclog, links := s.pkg.links } }

/-- The reserves of a slice after the test: 32 and 33 among the failing banks are reserves 0 and 1 (R389, R390). -/
def testedReserves (banks : List Nat) : List Nat :=
  let bad := banks.filter (· < 32)
  if banks.contains 32 then [33, if banks.contains 33 then 33 else bad.headD 32]
  else if banks.contains 33 then [bad.headD 32, 33]
  else [bad.getD 0 32, bad.getD 1 32]

/-- The spares of a bond group after the test: lanes from 256 on are the spares themselves (R389, R390). -/
def testedSpares (lanes : List Nat) : List (Nat × Nat) :=
  let dead := ((List.range 8).filter fun k => lanes.contains (256 + k)).map fun k => (k, 256)
  let free := (List.range 8).filter fun k => !lanes.contains (256 + k)
  dead ++ free.zip (lanes.filter (· < 256))

/-- The failing lanes of a bond group. -/
def failingLanes (b : BankFailure) (group : Nat) : List Nat :=
  ((b.lanes.filter fun x => x.1 == group).map Prod.snd).dedup

/-- The slice cannot be repaired (R389). -/
def sliceLost (b : BankFailure) : Bool :=
  decide (2 < b.banks.dedup.length) || (List.range 8).any fun g => decide (8 < (failingLanes b g).length)

/-- What the test found in a slice written into the repair registers of its column (R389, R390, R394). -/
def Core.tested (c : Core) (b : BankFailure) : Core :=
  if sliceLost b then
    { c with lost := setBit c.lost (b.layer - 1) true, cstate := if b.layer ≤ 2 then 2 else c.cstate }
  else
    { c with
      bankRep := c.bankRep.set (b.layer - 1) (testedReserves b.banks.dedup),
      laneRep := (List.range 8).foldl (fun l g => l.set (8 * (b.layer - 1) + g) (testedSpares (failingLanes b g))) c.laneRep }

/-- BISTSTAT of a die after the test (R390). -/
def biststatWord (s : State) (d : Nat) : Nat :=
  let cs := (s.cores.filter fun e => dieOf e.1 == d).map Prod.snd
  let sum (f : Core → Nat) : Nat := (cs.map f).foldl (· + ·) 0
  let slices := sum fun c => ((List.range 4).filter fun i => c.lost.getLsbD i).length
  let banks := sum fun c => ((List.range 4).map fun i => (reservesUsed c (i + 1)).length).foldl (· + ·) 0
  let lanes := sum fun c => (c.laneRep.map fun l => (l.filter fun x => decide (x.2 < 256)).length).foldl (· + ·) 0
  2 ^ 63 + flagBit (slices == 0) 62 + banks % 2 ^ 16 * 2 ^ 32 + lanes % 2 ^ 16 * 2 ^ 16 + slices % 2 ^ 16

/-- A slice that a column of the package has. -/
def realSlice (b : BankFailure) : Bool :=
  decide (dieOf b.core < 4) && decide (columnOf b.core < 1152) && decide (1 ≤ b.layer) && decide (b.layer ≤ 4)

/-- SELF_TEST: the arrays are tested and repaired, and the towers cleared (R108, R389). -/
def execSelfTest (failing : List BankFailure) (s : State) : Outcome :=
  if s.pkg.held ∨ s.dies.all (fun d => d.bist.getLsbD 63) = true then .next s
  else
    let s := (failing.filter realSlice).foldl (fun s b => modCore s b.core fun c => c.tested b) s
    let inTower (g : Nat) : Bool := g / 2 ^ 48 == 1
    let s := { s with mem := s.mem.filter outsideTower, poison := s.poison.filter fun g => !inTower g }
    .next { s with dies := s.dies.zipIdx.map fun x => { x.1 with bist := BitVec.ofNat 64 (biststatWord s x.2) } }

/-! Device time (R407). -/

/-- An offset as PTMCFG holds it (R407). -/
def offsetField (x : Int) : Nat := (BitVec.ofInt 32 (max (-(2 ^ 31)) (min x (2 ^ 31 - 1)))).toNat

/-- PER milliseconds have passed since the last measurement, where 0 acts as 1 (R407). -/
def ptmDue (s : State) : Bool :=
  match s.ptmLast with
  | none => true
  | some t => decide (t + cyclesOfMicros (1000 * max 1 (bits s.pkg.ptmcfg 0 16)) ≤ s.now)

/-- PTM_MEASUREMENT: the correction that a measured offset asks for, or a measurement that fails (R407). -/
def execPtmMeasurement (granted : Bool) (offset : Int) (s : State) : Outcome :=
  if !s.pkg.ptmcfg.getLsbD 63 then .next s
  else if ptmDue s = false then .next s
  else if !granted then
    .next { modPkg s (fun p => { p with ptmcfg := setBit p.ptmcfg 62 false }) with
      slew := 0, slewFast := false, ptmLast := some s.now }
  else
    let s : State := { s with synced := true, ptmLast := some s.now }
    let s := modPkg s fun p => { p with
      ptmcfg := setBit (withBits p.ptmcfg 16 32 (offsetField offset)) 62 (decide (-1000 ≤ offset) && decide (offset ≤ 1000)) }
    if 1000000 < offset then .next { s with timeAdj := s.timeAdj + offset, slew := 0, slewFast := false }
    else .next { s with slew := offset, slewFast := decide (offset < -1000000) }

/-- The cycles between two corrections of one nanosecond: 100 ppm, or 1,000 ppm (R1, R407). -/
def slewPeriod (s : State) : Nat := if s.slewFast then 1250 else 12500

/-- One cycle of the slew. -/
def slewTick (s : State) : State :=
  if s.slew = 0 ∨ s.now % slewPeriod s ≠ 0 then s
  else
    let d : Int := if 0 < s.slew then 1 else -1
    { s with slew := s.slew - d, timeAdj := s.timeAdj + d }

/-! Temperature, power and clocks (R432, R434, R435). -/

/-- The existing neighbours of a column on its die (R434). -/
def neighbours (core : Nat) : List Nat :=
  let c := columnOf core
  let cols := (if 1 ≤ c then [c - 1] else []) ++ (if c + 1 < 1152 then [c + 1] else [])
    ++ (if 48 ≤ c then [c - 48] else []) ++ (if c + 48 < 1152 then [c + 48] else [])
  cols.map (coreId (dieOf core))

/-- The neighbours whose sensors have not failed. -/
def soundNeighbours (s : State) (core : Nat) : List Nat := (neighbours core).filter fun k => !(coreOf s k).sensor.failed

/-- The value a column uses in place of its failed sensor, in 1/8 degree (R434). -/
def substitute (s : State) (core : Nat) : Int :=
  match (soundNeighbours s core).map fun k => (coreOf s k).sensor.temp with
  | [] => 1200
  | t :: ts => ts.foldl max t + 64

/-- Some energies differ by more than a tenth of the least (R434). -/
def ratesDiffer (l : List Nat) : Bool :=
  match l with
  | [] => false
  | r :: rs => decide (11 * rs.foldl min r < 10 * rs.foldl max r)

/-- The sensor after a reading, before a substitute is taken (R434): 0 is a sound reading, 1 out of range, 2 unchanged for 4,096
samples while the energy charged from one of these to the next changed by more than a tenth. -/
def Sensor.sample (x : Sensor) (raw : Int) (charged : Nat) : Sensor :=
  let same := if raw = x.raw then x.same + 1 else 1
  let rates := if raw = x.raw then ((charged - x.mark) :: x.rates).take 4095 else []
  let reason := if raw < -320 ∨ 1200 < raw then 1 else if 4096 ≤ same && ratesDiffer rates then 2 else 0
  { x with raw := raw, same := same, mark := charged, rates := rates, failed := reason != 0, reason := reason }

/-- A failed sensor has a failed neighbour: their clusters run at half clock (R435). -/
def adjacentFailure (s : State) (core : Nat) : Bool :=
  (coreOf s core).sensor.failed && (neighbours core).any fun k => (coreOf s k).sensor.failed

/-- Half clock for a column: from 105 degrees until 100 degrees (R435). -/
def Sensor.heat (x : Sensor) : Sensor :=
  { x with hot := if 840 ≤ x.temp then true else if x.temp ≤ 800 then false else x.hot }

/-- A cluster runs at half clock; halving never compounds (R435). -/
def halfClock (s : State) (cluster : Nat) : Bool :=
  s.cores.any fun e => clusterOf e.1 == cluster && (e.2.sensor.hot || adjacentFailure s e.1)

/-- THERMAL_SAMPLE (R434, R435). -/
def execThermalSample (die column : Nat) (raw : Int) (s : State) : Outcome :=
  let core := coreId die column
  let x := (coreOf s core).sensor
  let y := if x.failed then x else x.sample raw (coreOf s core).charged
  let y := if y.failed then { y with subst := true, temp := substitute s core } else { y with subst := false, temp := raw }
  let s := modCore s core fun c => { c with sensor := y.heat }
  let s := if !x.failed && adjacentFailure s core then raiseAlarm s 3 else s
  if 1000 ≤ y.temp then .next (raiseAlarm (modPkg s fun p => { p with held := true }) 3) else .next s

/-- CLOCK_THROTTLE: firmware sets the arithmetic clock of a die: 1.25, 1.0, 0.75 or 0.625 GHz (R432). -/
def execClockThrottle (die : Nat) (level : Fin 4) (s : State) : Outcome :=
  .next (modDie s die fun x => { x with throttle := level.val })

/-- The arithmetic clock of a die ticks in a cycle of the full rate: all, four in five, three in five, or one in two
(R432). -/
def clockTicks (s : State) (d : Nat) : Bool :=
  match (die s d).throttle with
  | 0 => true
  | 1 => s.now % 5 != 4
  | 2 => s.now % 5 % 2 == 0
  | _ => s.now % 2 == 0

/-- A cluster's cores act in a cycle: its die's clock ticks, and at half clock every second tick counts (R432, R435). -/
def clusterTicks (s : State) (cluster : Nat) : Bool :=
  clockTicks s (cluster / 24) && (!halfClock s cluster || s.now / 10 % 2 == 0)

/-! Links, frames, sensors (R423, R426, R430). -/

/-- FLIT_RETRY: software cannot see it (R423). -/
def execFlitRetry (_link : Nat) (s : State) : Outcome := .next s

/-- LINK_DOWN: traffic takes the remaining links (R423). -/
def execLinkDown (link : Nat) (s : State) : Outcome := .next (modPkg s fun p => { p with links := setBit p.links link false })

/-- FRAME_RECEIVE: a write of the front end into LPDDR-6 (R426). -/
def execFrameReceive (addr : Nat) (bytes : List Byte) (s : State) : Outcome :=
  if addr + bytes.length ≤ lpddrSize ∧ s.pkg.held = false then .next (store s .other addr bytes) else .next s

/-- GLITCH_SENSOR (R430). -/
def execGlitchSensor (s : State) : Outcome := .next (securityAlarm s 1)

/-! Hand-over of an allocation (R109). -/

/-- A region whose log names a cleared line is entangled (R382). -/
def entangleCleared (s : State) (h : Handover) : State :=
  (s.dom.regionLog.filter fun e => (List.range 64).any fun i => h.names (e.line + i)).foldl
    (fun s e => entangle s e.frond e.level) s

/-- ALLOCATION_HANDOVER: an extent of the tower or of LPDDR-6 is cleared, with no log entry, and a seal follows, before which
nobody names it through a new handle (R109; log entry 70). -/
def execAllocationHandover (base : Nat) (extent : Extent) (s : State) : Outcome :=
  let h : Handover := ⟨base, extent, s.pkg.intnum⟩
  let s := clearHandover (entangleCleared s h) h
  .next (requestSeal { s with handovers := s.handovers ++ [h] })

/-! Peers (R424, R436). -/

/-- The address lies in the weight layer. -/
def inWeight (pa : Nat) : Bool := pa / 2 ^ 48 == 1 && field pa 43 3 == 1

/-- The address lies in the bundle and microprogram stores. -/
def inStores (pa : Nat) : Bool := pa / 2 ^ 48 == 2

/-- The write of a peer's read-modify-write, which no store falls into: it stands before the stores of the bytes that others may
not see yet (R124, R133, R141). -/
def storeUnder (s : State) (pa : Nat) (bs : List Byte) : State :=
  (pa :: (twinAlso s pa).toList).foldl (fun s pa =>
    if (List.range bs.length).all fun i => (writeUnder s (pa + i) 0).isNone then
      storePoison (dropVeils s pa bs.length) .other pa bs false
    else bs.zipIdx.foldl (fun s (b, i) => (writeUnder s (pa + i) b).getD (store s .other (pa + i) [b])) s) s

/-- PEER_ACCESS_ARRIVAL: an access of another device is judged by this device's own map, and performs or fails with cause
layer-absent (R424, R436). None reads the weight layer or makes an atomic there (R70), and none writes the stores (R79, R301): such an
access fails with cause permission (DESIGN CHOICE, safe: log entry 87). -/
def execPeerAccessArrival (_device : Nat) (access : PeerAccess) (s : State) : Outcome :=
  let at' (addr : Nat) : Nat := peerLocal (8 * 2 ^ 48 + addr % 2 ^ 43)
  let ok (addr n : Nat) : Bool := field addr 40 1 == 0 && field addr 41 2 != 3 && extentMapped s (at' addr) n
  let fails (s : State) (cause : Nat) : Outcome := .next { s with peerReply := ⟨cause, []⟩ }
  if s.pkg.held then .next s
  else match access with
    | .read a n =>
      if !ok a n then fails s 5
      else if inWeight (at' a) then fails s 6
      else
        let s := openCrossing s (at' a)
        .next { s with peerReply := ⟨0, readBytes (outside s noCore) (at' a) n⟩ }
    | .write a bs =>
      if !ok a bs.length then fails s 5
      else if inStores (at' a) then fails s 6
      else .next { storeBoth (openCrossing s (at' a)) .other (at' a) bs false with peerReply := ⟨0, []⟩ }
    | .atomic a aop w64 operand second =>
      let n := if w64 then 8 else 4
      if !ok a n then fails s 5
      else if inWeight (at' a) || inStores (at' a) then fails s 6
      else
        let s := openCrossing s (at' a)
        let old := readNat (outside s noCore) (at' a) n
        .next { storeUnder s (at' a) (leBytes n (atomicResult aop (8 * n) old operand second)) with
                peerReply := ⟨0, leBytes n old⟩ }

end Sys2Proof.Machine
end

