-- ==== Sys2Proof/Machine/FrontEnd.lean ====
section
/-! DEFINITION. The front end at work: the dispatch of each packet type, launches, graphs, waits, fences, completion and its
signal (R325 to R333, R335, R336). -/

namespace Sys2Proof.Machine

open Sys2Proof

/-! The writes of the front end (R326, R330, R135). -/

/-- The issuer of a queue's held writes, beyond the core ids. -/
def queueIssuer (q : Nat) : Nat := 2 ^ 16 + q

/-- A word written, or added, at an address of a queue's program: none while the egress buffer has no room for it, an error
when the address does not translate (R326) or a peer does not find it (R436). An add too needs the page's WR alone, and the
program is the one that QCFG names now (DESIGN CHOICE, unsafe: log entry 91). -/
def signalWrite (s : State) (q va v : Nat) (add : Bool) : Option (Except FailCause State) :=
  let x := queueOf s q
  match translate s x.cluster x.program va ⟨false, true, false⟩ with
  | .error c => some (.error c)
  | .ok pa =>
    if irrevocable s pa then
      if egressFull s x.die then none
      else some (.ok (egressAdd s x.die
        ⟨queueIssuer q, s.pkg.intnum, none, none, if add then .add pa (BitVec.ofNat 32 v) else .bytes pa (leBytes 4 v) (List.replicate 4 false)⟩))
    else if !peerAnswers s pa then some (.error 5)
    else
      let old := if add then leNat (accessRead s pa 4) else 0
      some (.ok (accessWrite s .task .other pa (leBytes 4 (old + v))))

/-! The end of a packet (R325, R327, R335, R336). -/

/-- Failure details (R336). -/
def detailTranslation : Nat := 2 * 4096
def detailSkipped (n : Nat) : Nat := 5 * 4096 + min n 4095
def detailNode (i : Nat) : Nat := 6 * 4096 + i

/-- A packet leaves the front end as completed, or as failed with its detail; its launch slots are free (R329, R336). -/
def closePacket (s : State) (p : Packet) (detail : Nat) : State :=
  let s := journalStatus s p.seq (if detail = 0 then 2 else 3) detail
  { s with dom := { s.dom with
      packets := s.dom.packets.filter fun x => x.seq != p.seq,
      launches := s.dom.launches.filter fun e => e.2.seq != p.seq } }

/-- The completion signal of a packet (R325): none while it has to wait. -/
def completionSignal (s : State) (p : Packet) : Option (Except FailCause State) :=
  let w := wordOfBlock p.words
  if (w 0).testBit 9 then signalWrite s p.queue (packetVA (w 13) (w 14)) (w 15) false else some (.ok s)

/-- A dispatched packet ends: its signal is written, then its journal entry. The signal's own address is one that the packet
names (R325, R326). -/
def finishPacket (s : State) (p : Packet) (detail : Nat) : State :=
  match completionSignal s p with
  | none => modPacket s p.seq fun p => { p with ready := true, detail := detail }
  | some (.error _) => closePacket s p (if detail = 0 then detailTranslation else detail)
  | some (.ok s) => closePacket s p detail

/-! Dispatch (R327). -/

/-- The packet of a queue whose turn it is to dispatch (R327). QCFG.EN is not looked at: a packet that a rollback restores to a queue
disabled since dispatches (DESIGN CHOICE, unsafe: log entry 96). -/
def nextPacket (s : State) (q : Nat) : Option Packet :=
  match (undispatched s q).head? with
  | none => none
  | some p =>
    if (wordOfBlock p.words 0).testBit 8 && (packetsOf s q).head?.map Packet.seq != some p.seq then none else some p

/-- The type of a packet or a node. -/
def blockType (w : List Nat) : Nat := field (wordOfBlock w 0) 0 8

/-- The next packet of a queue, when it has a type. -/
def nextOfType (s : State) (q type : Nat) : Option Packet := (nextPacket s q).filter fun p => blockType p.words == type

/-- A packet is dispatched (R334). -/
def markDispatched (s : State) (p : Packet) : State :=
  modPacket (journalStatus s p.seq 1 0) p.seq fun p => { p with st := .dispatched }

/-! The work of a packet or a node (R326, R328). -/

/-- What a packet or a node has begun: how it ended, if it has, the slot of its launch, the interval its seal waits for. -/
structure Work where
  ended : Option Nat
  launch : Option Nat
  interval : Nat
deriving DecidableEq, Repr

/-- The lowest free launch slot (R329). -/
def freeSlot (s : State) : Option Nat :=
  (List.range (s.dom.launches.length + 1)).find? fun i =>
    decide (i < 65536) && !s.dom.launches.any fun e => e.1 == i

/-- Records offered one after another: a record that cannot be reached, or that is not new, is skipped (R328). -/
def offerRecords (s : State) (x : Queue) (launch : Word) (g0 c fp j : Nat) : Nat → State × Nat
  | 0 => (s, 0)
  | n + 1 =>
    let p := (fp + j) % 2 ^ 32
    let taken : Option State := match recordOf s x.cluster x.program p with
      | none => none
      | some words => if words.getD 12 0 ≠ 0 then none else claimRecord s x.cluster x.program p 0 launch
    match taken with
    | none =>
      let (s, k) := offerRecords s x launch g0 c fp (j + 1) n
      (s, k + 1)
    | some s =>
      let s := offerFrond (raiseLaunch s launch) ((g0 + j % c) % 96) p x.program (programPriv s x.program) launch x.p31
      offerRecords s x launch g0 c fp (j + 1) n

/-- A launch (R328, R329): none while no slot is free. -/
def beginLaunch (s : State) (q seq : Nat) (node : Option Nat) (w : List Nat) : Option (State × Work) :=
  match freeSlot s with
  | none => none
  | some slot =>
    let x := queueOf s q
    let a := wordOfBlock w
    let id : Word := BitVec.ofNat 32 (seq % 65536 * 65536 + slot)
    let s := { s with dom := { s.dom with launches := assign s.dom.launches slot ⟨seq, 0, false, 0⟩ } }
    let s := if node.isNone then journalPut s seq 52 4 id.toNat else s
    let (s, skipped) := offerRecords s x id (24 * field (a 3) 5 2 + field (a 3) 0 5) (field (a 3) 8 7 + 1) (a 1) 0
      (field (a 2) 0 16 + 1)
    let mark (l : Launch) : Launch := { l with offered := true, skipped := skipped }
    some ({ s with dom := { s.dom with
      launches := s.dom.launches.map fun e => if e.1 = slot then (e.1, mark e.2) else e } }, ⟨none, some slot, 0⟩)

/-- The command of a copy packet: block words 0 to 8, the options, and zeros; it counts at no barrier (R326). -/
def packetCommand (s : State) (q seq : Nat) (node : Option Nat) (w : List Nat) : Command :=
  let x := queueOf s q
  let c : Command :=
    { id := s.nextId, op := field (wordOfBlock w 11) 0 6,
      block := tabulate 16 fun i => if i < 10 then BitVec.ofNat 32 (wordOfBlock w (i + 1)) else 0,
      stageIdx := 0, program := x.program, die := x.die, handles := [], core := none, issuer := leaderOf x.cluster, gid := 0,
      issued := s.now, slot := 0, packet := some seq, node := node, barCluster := x.cluster, bar := 0, nb := true, rel := false,
      acq := false, scope := 4, writer := .other, kept := [], judged := false, asked := false, hurt := false, list := [],
      done := 0, written := 0, job := none, flags := 0 }
  { c with handles := captureHandles s x.die c.names }

/-- A copy goes to the streaming engine of the front-end die (R326): none while its queue is full (R87). -/
def beginCopy (s : State) (q seq : Nat) (node : Option Nat) (w : List Nat) : Option (State × Work) :=
  let e := streamEngine (queueOf s q).die
  if 16 ≤ (engineOf s e).queue.length then none
  else
    let c := packetCommand s q seq node w
    some (modEngine { s with nextId := s.nextId + 1 } e fun g => { g with queue := g.queue ++ [c] }, ⟨none, none, 0⟩)

/-- A signal (R326): none while it has to wait for the egress buffer. -/
def beginSignal (s : State) (q : Nat) (w : List Nat) : Option (State × Work) :=
  let a := wordOfBlock w
  match signalWrite s q (packetVA (a 1) (a 2)) (a 3) (field (a 2) 16 2 == 1) with
  | none => none
  | some (.error _) => some (s, ⟨some detailTranslation, none, 0⟩)
  | some (.ok s) => some (s, ⟨some 0, none, 0⟩)

/-- A seal: it completes when the interval open now has sealed (R211, R326). -/
def beginSeal (s : State) : State × Work := (requestSeal s, ⟨none, none, s.pkg.intnum⟩)

/-- A packet or node that a graph may hold begins (R326, R331). -/
def beginWork (s : State) (q seq : Nat) (node : Option Nat) (w : List Nat) : Option (State × Work) :=
  match blockType w with
  | 0 => some (s, ⟨some 0, none, 0⟩)
  | 1 => beginLaunch s q seq node w
  | 3 => some (beginSeal s)
  | 4 => beginCopy s q seq node w
  | 5 => beginSignal s q w
  | _ => none

/-- The next packet of a queue dispatches with its work, when it has a type and its work can begin. -/
def dispatchWork (s : State) (q type : Nat) : State :=
  match nextOfType s q type with
  | none => s
  | some p =>
    match beginWork (markDispatched s p) q p.seq none p.words with
    | none => s
    | some (s, w) =>
      let s := modPacket s p.seq fun p => { p with launch := w.launch, sealInterval := w.interval }
      match w.ended with
      | some detail => finishPacket s p detail
      | none => s

/-- NOP_PACKET (R326). -/
def execNopPacket (q : Nat) (s : State) : Outcome := .next (dispatchWork s q 0)

/-- LAUNCH_PACKET (R328). -/
def execLaunchPacket (q : Nat) (s : State) : Outcome := .next (dispatchWork s q 1)

/-- SEAL_PACKET (R326). -/
def execSealPacket (q : Nat) (s : State) : Outcome := .next (dispatchWork s q 3)

/-- COPY_PACKET (R326). -/
def execCopyPacket (q : Nat) (s : State) : Outcome := .next (dispatchWork s q 4)

/-- SIGNAL_PACKET (R326). -/
def execSignalPacket (q : Nat) (s : State) : Outcome := .next (dispatchWork s q 5)

/-! Waits and fences (R25, R326, R333). -/

/-- The condition of a wait: it holds, it does not, or its address does not translate (R326). -/
def waitHolds (s : State) (p : Packet) : Except FailCause Bool :=
  let a := wordOfBlock p.words
  let x := queueOf s p.queue
  let cond := field (a 2) 16 3
  if cond = 4 then
    let e : Word := BitVec.ofNat 32 (a 1)
    .ok (!e.getLsbD 31 || waitFaulted s e || waitSatisfied s e)
  else match translateThere s x.cluster x.program (packetVA (a 1) (a 2)) 4 ⟨true, false, false⟩ with
    | .error c => .error c
    | .ok pas =>
      let v := Nat.land (leNat (pas.map fun pa => (accessRead (outside s noCore) pa 1).getD 0 0)) (a 4)
      let w := Nat.land (a 3) (a 4)
      .ok (match cond with
        | 0 => v == w
        | 1 => v != w
        | 2 => decide (w ≤ v)
        | _ => decide (v < w))

/-- WAIT_POLL: the condition of the wait whose turn it is is looked at (R326). -/
def execWaitPoll (q : Nat) (s : State) : Outcome :=
  match nextOfType s q 6 with
  | none => .next s
  | some p => match waitHolds s p with
    | .ok true => .next (modPacket s p.seq fun p => { p with ready := true, detail := 0 })
    | .ok false => .next s
    | .error _ => .next (modPacket s p.seq fun p => { p with ready := true, detail := detailTranslation })

/-- WAIT_PACKET: it dispatches once its condition has been seen to hold (R326). -/
def execWaitPacket (q : Nat) (s : State) : Outcome :=
  match nextOfType s q 6 with
  | none => .next s
  | some p => if p.ready then .next (finishPacket (markDispatched s p) p p.detail) else .next s

/-- FENCE_PACKET: the packets accepted after it are discarded, and acceptance resumes behind it (R333). -/
def execFencePacket (q : Nat) (s : State) : Outcome :=
  match nextOfType s q 7 with
  | none => .next s
  | some p =>
    let s := markDispatched s p
    let gone := undispatched s q
    let s := gone.foldl (fun s x => journalStatus s x.seq 4 0) s
    let s := { s with dom := { s.dom with
      packets := s.dom.packets.filter fun x => !(x.queue == q && x.st == .accepted) } }
    .next (finishPacket (setHead s q (p.index + 1)) p 0)

/-! Graphs (R331). -/

/-- The predecessors of a node. -/
def Node.predecessors (n : Node) : List Nat :=
  ([13, 14, 15].map (wordOfBlock n.words)).filterMap fun w => if w.testBit 31 then some (field w 0 10) else none

/-- The predecessors of a node have the state. -/
def Packet.before (p : Packet) (n : Node) (st : PacketState) : List Bool :=
  n.predecessors.map fun i => (p.nodes[i]?).map Node.st == some st

/-- How a launch has ended, if it has (R329). -/
def launchEnd (s : State) (slot : Nat) : Option Nat :=
  match s.dom.launches.find? fun e => e.1 == slot with
  | some (_, l) =>
    if l.offered && l.outstanding == 0 then some (if l.skipped = 0 then 0 else detailSkipped l.skipped) else none
  | none => none

/-- A node ends. -/
def endNode (s : State) (seq i : Nat) (failed skipped : Bool) : State :=
  modPacket s seq fun p => Packet.setNode p i fun n =>
    { n with st := if failed then .failed else .completed, skipped := skipped }

/-- A launch slot is free. -/
def dropLaunch (s : State) (slot : Nat) : State :=
  { s with dom := { s.dom with launches := s.dom.launches.filter fun e => e.1 != slot } }

/-- A node whose work has ended, or whose predecessor has failed, takes its final state (R331). While the seal of a node is
awaited, `reason` holds its interval. -/
def settleNode (s : State) (seq i : Nat) : State :=
  match (packetOf s seq).bind fun p => (p.nodes[i]?).map fun n => (p, n) with
  | none => s
  | some (p, n) =>
    match n.st with
    | .accepted => if (p.before n .failed).any id then endNode s seq i true true else s
    | .dispatched =>
      match n.launch with
      | some slot => match launchEnd s slot with
        | some detail => dropLaunch (endNode s seq i (detail != 0) false) slot
        | none => s
      | none => if blockType n.words = 3 ∧ n.reason < oldestUnsealed s then endNode s seq i false false else s
    | _ => s

/-- Every node of a graph settled, in ascending index. -/
def settleGraph (s : State) (seq : Nat) : State :=
  match packetOf s seq with
  | none => s
  | some p => (List.range p.nodes.length).foldl (fun s i => settleNode s seq i) s

/-- The nodes of a graph that may dispatch. -/
def Packet.readyNodes (p : Packet) : List Nat :=
  (List.range p.nodes.length).filter fun i => match p.nodes[i]? with
    | some n => n.st == .accepted && (p.before n .completed).all id
    | none => false

/-- A node begins; none while it has to wait. -/
def beginNode (s : State) (p : Packet) (i : Nat) : Option State :=
  match p.nodes[i]? with
  | none => none
  | some n =>
    let dispatched := modPacket s p.seq fun p => Packet.setNode p i fun n => { n with st := .dispatched }
    match beginWork dispatched p.queue p.seq (some i) n.words with
    | none => none
    | some (s, w) =>
      let s := modPacket s p.seq fun p => Packet.setNode p i fun n => { n with launch := w.launch, reason := w.interval }
      some (match w.ended with
        | some detail => endNode s p.seq i (detail != 0) false
        | none => s)

/-- GRAPH_PACKET: the graph dispatches with its first node, which has no predecessor (R326, R331). -/
def execGraphPacket (q : Nat) (s : State) : Outcome :=
  match nextOfType s q 2 with
  | none => .next s
  | some p => match beginNode (markDispatched s p) p 0 with
    | some s => .next s
    | none => .next s

/-- GRAPH_NODE_DISPATCH: the lowest node whose predecessors have completed (R331). -/
def execGraphNodeDispatch (seq node : Nat) (s : State) : Outcome :=
  let s := settleGraph s seq
  match packetOf s seq with
  | none => .next s
  | some p =>
    if p.st = .dispatched ∧ p.readyNodes.head? = some node then .next ((beginNode s p node).getD s) else .next s

/-- How a graph has ended, if no node remains to run (R331). -/
def graphEnd (p : Packet) : Option Nat :=
  if p.nodes.any fun n => n.st == .accepted || n.st == .dispatched then none
  else match (List.range p.nodes.length).find? fun i => (p.nodes[i]?).map Node.st == some PacketState.failed with
    | some i => some (detailNode i)
    | none => some 0

/-! Completion (R326, R327, R329, R331). -/

/-- How a dispatched packet has ended, if it has. -/
def packetEnd (s : State) (p : Packet) : Option Nat :=
  if p.st ≠ .dispatched then none
  else if p.ready then some p.detail
  else match blockType p.words with
    | 1 => p.launch.bind (launchEnd s)
    | 2 => graphEnd p
    | 3 => if p.sealInterval < oldestUnsealed s then some 0 else none
    | _ => none

/-- PACKET_COMPLETION (R327). -/
def execPacketCompletion (seq : Nat) (s : State) : Outcome :=
  let s := settleGraph s seq
  match packetOf s seq with
  | none => .next s
  | some p => match packetEnd s p with
    | some detail => .next (finishPacket s p detail)
    | none => .next s

/-! The steps of a front end (R327). -/

/-- The dispatch event of a packet's type. -/
def dispatchEvent (q : Nat) (p : Packet) : Instr :=
  match blockType p.words with
  | 0 => .nopPacket q
  | 1 => .launchPacket q
  | 2 => .graphPacket q
  | 3 => .sealPacket q
  | 4 => .copyPacket q
  | 5 => .signalPacket q
  | 6 => .waitPacket q
  | _ => .fencePacket q

/-- The work of a block can begin now. -/
def canBegin (s : State) (q : Nat) (w : List Nat) : Bool :=
  match blockType w with
  | 1 => (freeSlot s).isSome
  | 4 => decide ((engineOf s (streamEngine (queueOf s q).die)).queue.length < 16)
  | 5 => (beginSignal s q w).isSome
  | _ => true

/-- A packet whose turn it is can dispatch now. -/
def canDispatch (s : State) (p : Packet) : Bool :=
  match blockType p.words with
  | 2 => match p.nodes[0]? with
    | some n => canBegin s p.queue n.words
    | none => true
  | 6 => p.ready
  | _ => canBegin s p.queue p.words

/-- The next node of a dispatched graph that can dispatch. -/
def nodeAction (s : State) (p : Packet) : Option Instr :=
  if p.st ≠ .dispatched then none
  else match p.readyNodes.head? with
    | some i => match p.nodes[i]? with
      | some n => if canBegin s p.queue n.words then some (.graphNodeDispatch p.seq i) else none
      | none => none
    | none => none

/-- The next thing that a front end can do on a queue: a completion whose signal has room, a dispatch, or an acceptance
(R327). -/
def queueAction (s : State) (q : Nat) : Option Instr :=
  let s := (packetsOf s q).foldl (fun s p => settleGraph s p.seq) s
  match (packetsOf s q).find? fun p => (packetEnd s p).isSome && (completionSignal s p).isSome with
  | some p => some (.packetCompletion p.seq)
  | none => match (packetsOf s q).findSome? (nodeAction s) with
    | some i => some i
    | none => match (nextPacket s q).filter (canDispatch s) with
      | some p => some (dispatchEvent q p)
      | none => if acceptsNow s q then some (.packetAcceptance q) else none

end Sys2Proof.Machine
end

