-- ==== Sys2Proof/Machine/Globals.lean ====
section
/-! DEFINITION. What arrives: asynchronous global accesses, results, remote loads, tiles, messages, bank grants, page-table
walks and segment copies (R31, R71, R85, R86, R94 to R96, R169 to R172, R240, R241, R254, R257, R411). -/

namespace Sys2Proof.Machine

open Sys2Proof

/-! Translation (R94, R96). -/

/-- A cluster's TLB takes the leaf of a page; a full TLB of 2,048 entries loses its oldest (R96). -/
def fillTlb (s : State) (cluster program va : Nat) : State :=
  if (tlbHit s cluster program va).isSome then s
  else match walk s program va with
    | none => s
    | some (e, size) =>
      let mine := s.tlb.filter fun x => x.cluster == cluster
      let kept := if mine.length < 2048 then s.tlb else (match mine.head? with
        | some x => s.tlb.erase x
        | none => s.tlb)
      { s with tlb := kept ++ [⟨cluster, program, va / 4096 / size * size, BitVec.ofNat 64 e, size⟩] }

/-- PAGE_TABLE_WALK: a walk that finds a leaf fills the TLB of its cluster (R94, R96). -/
def execPageTableWalk (cluster program page : Nat) (s : State) : Outcome := .next (fillTlb s cluster program (page % 2 ^ 36 * 4096))

/-! Asynchronous global accesses (R240, R241, R391, R436). -/

/-- The party an access acts for (R98, R321). -/
def partyOf (gid : Nat) : Party := if gid = 0 then .firmware else .task

/-- A piece written by an access, into both columns of a twin pair (R387); a register lies outside the rollback domain (R382). -/
def writePiece (s : State) (gid : Nat) (w : Writer) (p : Piece) : State :=
  if isControl p.pa then writeControl (entangleWriter s w) (partyOf gid) (p.pa % 2 ^ 48) p.bytes p.bytes.length
  else storePieceBoth s w p

/-- The access has performed: its barrier counts its bytes (R240). -/
def countGlobal (s : State) (x : Global) (n : Nat) : State := arrive s x.barCluster x.bar n

/-- An access that performs nothing marks its barrier (R240). -/
def failGlobal (s : State) (x : Global) (cause : Nat) : State := markFaulted s x.barCluster x.bar cause

/-- Bytes read by an access land in the near range (R240, R381, R387, R391). -/
def landGlobal (s : State) (x : Global) (near : Nat) (bs : List Byte) (bad : List Bool) : State :=
  let pa := nearPA x.core near
  if extentMapped s pa bs.length then
    let s := chargeTo s x.core x.gid 4 (rowsOf near bs.length)
    countGlobal ((piecesAt (tabulate bs.length fun i => pa + i) bs bad).foldl (fun s p => writePiece s x.gid x.writer p) s) x
      bs.length
  else failGlobal s x 5

/-- The barrier an access reports to. -/
def Global.report (x : Global) : Option (Nat × Nat) := some (x.barCluster, x.bar)

/-- The bytes of a `gst` written at their addresses: an irrevocable byte enters the egress buffer, unless it did so at issue (R135,
R240, R380, R391). -/
def storeGlobal (s : State) (x : Global) (pas : List Nat) (bs : List Byte) : State :=
  (piecesAt pas bs x.poisoned).foldl (fun s p =>
    if irrevocable s p.pa then
      if x.entered then s
      else egressAdd s (dieOf x.core)
        ⟨x.core, s.pkg.intnum, regionOf x.writer, x.report, .bytes p.pa p.bytes p.bad⟩
    else writePiece s x.gid x.writer p) s

/-- The read-modify-write of a `gatom` at its home (R133, R241). -/
def atomicGlobal (s : State) (x : Global) (pa near aop n operand second : Nat) : State :=
  let old := leNat (accessRead (outside s x.core) pa n)
  let bad := poisonedAt s pa n
  let new := leBytes n (atomicResult aop (8 * n) old operand second)
  let s := writePiece s x.gid x.writer ⟨pa, new, new.map fun _ => x.poisoned.any id || (bad && aop != 0)⟩
  landGlobal s x near (leBytes n old) (List.replicate n bad)

/-- An access that is to be held finds no room in the egress buffer of its die for all its entries, or an earlier one of its issuer
that has not entered it, and waits (R135, R380). -/
def globalBlocked (s : State) (x : Global) (pas : List Nat) : Bool :=
  let n := x.entries s pas
  egressShort s (dieOf x.core) n || (n != 0 && heldBefore s x.core x.id)

/-- An access performs at translated addresses. -/
def performGlobal (s : State) (x : Global) (pas : List Nat) : State :=
  match x.op with
  | .load near _ =>
    landGlobal s x near (pas.flatMap fun pa => accessRead (outside s x.core) pa 1) (pas.map fun pa => !isControl pa && poisonedAt s pa 1)
  | .store bs => countGlobal (storeGlobal s x pas bs) x bs.length
  | .held bs =>
    countGlobal (egressAdd s (dieOf x.core) ⟨x.core, s.pkg.intnum, regionOf x.writer, x.report,
      .bytes (pas.headD 0) bs (bs.map fun _ => false)⟩) x 4
  | .landing near bs => landGlobal s x near bs (bs.map fun _ => false)
  | .atomic near aop w64 operand second =>
    let pa := pas.headD 0
    let n := if w64 then 8 else 4
    if irrevocable s pa then
      egressAdd s (dieOf x.core) ⟨x.core, s.pkg.intnum, regionOf x.writer, x.report,
        .atomic pa aop w64 operand second x.core near x.barCluster x.bar x.gid⟩
    else atomicGlobal s x pa near aop n operand second

/-- What holds a translated access: a crossing that admits nothing, no room among the egress entries, or for an atomic bytes
that wait for a `drain` or a compare (R111, R124, R141, R380). -/
def globalHeld (s : State) (x : Global) (pas : List Nat) : Bool :=
  pas.any (crossingShut s) || globalBlocked s x pas || match x.op with
    | .load _ _ | .store _ | .held _ | .landing _ _ => false
    | .atomic _ _ _ _ _ => (hiddenFrom s x.core ++ veiledFrom s x.core).any fun v => pas.any fun pa => homeOf s pa == v.pa

/-- The rows of the tower that an access reads and writes, among them those of the near range in which it lands, and of both columns
of a twin pair (R83, R85, R387). -/
def globalRequests (s : State) (x : Global) (pas : List Nat) : List BankRequest :=
  let land (near n : Nat) : List Nat := tabulate n fun i => nearPA x.core (near + i)
  let writes (l : List Nat) : List BankRequest := towerRequests s 3 x.id (writtenPlaces s l)
  match x.op with
  | .load near n => towerRequests s 4 x.id pas ++ writes (land near n)
  | .store _ => writes (pas.filter fun pa => !irrevocable s pa)
  | .atomic near _ _ _ _ => if pas.any (irrevocable s) then [] else writes (pas ++ land near x.op.size)
  | .held _ => []
  | .landing near bs => writes (land near bs.length)

/-- An access that asks the banks of what it reads and writes. -/
def askGlobal (s : State) (x : Global) (pas : List Nat) : State :=
  { s with
    bankReqs := s.bankReqs ++ globalRequests s x pas,
    globals := s.globals.map fun y => if y.id = x.id then { y with asked := true } else y }

/-- The cause for which a translated access fails: an address of a peer that the peer does not find is a layer that is absent
(R436). -/
def globalFault (s : State) (x : Global) (pas : List Nat) : Option FailCause :=
  match x.op with
  | .held _ | .landing _ _ => none
  | .load _ _ | .store _ | .atomic _ _ _ _ _ => if pas.all (peerAnswers s) then none else some 5

/-- Where an access performs: the place of an `irst` as R242 has it, none of a landing, else every byte of its extent (R240). -/
def globalPlaces (s : State) (x : Global) : Except FailCause (List Nat) :=
  match x.op with
  | .landing _ _ => .ok []
  | .held _ => (translateHeld s (clusterOf x.core) x.space x.va).map fun pa => [pa]
  | .load _ _ | .store _ | .atomic _ _ _ _ _ => translateAll s (clusterOf x.core) x.space x.va x.op.size x.op.need

/-- The pages of an access are looked up, and its TLB takes their leaves (R94, R96). -/
def walkGlobal (s : State) (x : Global) : State :=
  let cluster := clusterOf x.core
  fillTlb (fillTlb s cluster x.space x.va) cluster x.space ((x.va + x.op.size - 1) % 2 ^ 48)

/-- GLOBAL_ACCESS_PERFORM: once nothing before it holds it and the banks have granted its rows, translated page by page before
any part performs; a failure performs nothing (R85, R122, R124, R240). -/
def execGlobalAccessPerform (id : Nat) (s : State) : Outcome :=
  match s.globals.find? fun x => x.id == id with
  | none => .next s
  | some x =>
    if !x.op.isLanding && startWaits s x.core x.issued x.scope then .next s
    else
    let n := x.op.size
    let s := if x.op.isLanding then s else walkGlobal s x
    let done : State := { dropCommandRequests s id with globals := s.globals.filter fun y => y.id != id }
    match globalPlaces s x with
    | .error c => .next (failGlobal done x c)
    | .ok pas =>
      match globalFault s x pas with
      | some c => .next (failGlobal done x c)
      | none =>
        if globalHeld s x pas || commandAsks s id then .next s
        else if x.asked = false ∧ (globalRequests s x pas).isEmpty = false then .next (askGlobal s x pas)
        else .next (performGlobal (if x.op.isLanding then done else chargeTo done x.core x.gid 13 ((n + 63) / 64)) x pas)

/-! Results and remote loads (R31, R71, R234). -/

/-- RESULT_DUE: the results of a core that have fallen due are written (R31, R167). -/
def execResultDue (core : Nat) (s : State) : Outcome :=
  match groupOn s core with
  | some g => .next (deliverDue s core (g.cycleOf core))
  | none => .next s

/-- REMOTE_LOAD_DELIVERY: the oldest remote access of a core goes on; accesses to one column perform in issue order (R71, R85,
R118). -/
def execRemoteLoadDelivery (core : Nat) (s : State) : Outcome := .next (serveRemote s core)

/-! Arbitration (R85, R86, R411). -/

/-- The place of a class in the order of R85, by its code (R411). -/
def classRank (cls : Nat) : Nat := [0, 1, 2, 7, 5, 6, 3, 4, 8, 9, 10, 11].findIdx (· == cls)

/-- A cycle lost by a class at a bank of a core's near layer counts, up to 2^32 − 1 (R411). -/
def countLoss (s : State) (core cls bank : Nat) : State :=
  modCore s core fun c =>
    { c with loss := update 0 c.loss (32 * cls + bank) (min (lookup 0 c.loss (32 * cls + bank) + 1) (2 ^ 32 - 1)) }

/-- The request a bank grants, if any: none in a cycle in which the M slot of the core has won the bank (`mLoses`); else one that
has waited 16 cycles, the oldest first; else by class, then by arrival (R85). -/
def grantOf (s : State) (core layer bank : Nat) (rs : List BankRequest) : Option BankRequest :=
  if layer = 2 ∧ s.bankUsed.contains (core, bank) = true then none
  else match rs.find? fun r => decide (16 ≤ r.waited) with
  | some r => some r
  | none => (sortBy (fun a b : BankRequest => decide (classRank a.cls ≤ classRank b.cls)) rs).head?

/-- The requests that stand at their bank: a row of a matrix read behind another row of the same read is not there yet
(R306). -/
def standing : List BankRequest → List BankRequest
  | [] => []
  | r :: rs => r :: (standing rs).filter fun x => !(r.cls == 1 && x.cls == 1 && x.owner == r.owner)

/-- The requests that lost a cycle, each once, have waited one cycle more. -/
def ageRequests : List BankRequest → List BankRequest → List BankRequest
  | _, [] => []
  | lost, r :: rs => if lost.contains r then { r with waited := r.waited + 1 } :: ageRequests (lost.erase r) rs else r :: ageRequests lost rs

/-- BANK_ARBITRATION: one cycle at a bank: a request is granted, and each of the others that stands there loses the cycle
(R85, R86). The M slot wins or loses its bank as it issues (`mLoses`). -/
def execBankArbitration (core layer bank : Nat) (s : State) : Outcome :=
  let rs := standing (s.bankReqs.filter fun r => r.core == core && r.layer == layer && r.bank == bank && r.cls != 0)
  let granted := grantOf s core layer bank rs
  let lost := match granted with
    | some r => rs.erase r
    | none => rs
  let left := match granted with
    | some r => s.bankReqs.erase r
    | none => s.bankReqs
  let s := { s with bankReqs := ageRequests lost left }
  .next (if layer = 2 then lost.foldl (fun s r => countLoss s core r.cls bank) s else s)

/-! Tiles and messages (R254, R257). -/

/-- A tile is due by a cycle, and every row of it has been granted (R254). -/
def Tile.ripe (s : State) (t : Tile) (cycle : Nat) : Bool := decide (t.due ≤ cycle) && !requestsStand s 5 t.id

/-- The tiles of a lichen context that are due and accepted land (R254). -/
def landLichen (s : State) (core : Nat) : State :=
  let ts := (coreOf s core).lichen.tiles
  let s := (ts.filter fun t => t.ripe s s.now).foldl (fun s t => landTile s (clusterOf core) t) s
  modCore s core fun c => { c with lichen := { c.lichen with tiles := ts.filter fun t => !t.ripe s s.now } }

/-- ROT_DELIVERY: the tiles of a group that are due and accepted land; of group 0, those of the lichen contexts (R254). -/
def execRotDelivery (gid : Nat) (s : State) : Outcome :=
  if gid = 0 then
    .next (((s.cores.filter fun e => !e.2.lichen.tiles.isEmpty).map Prod.fst).foldl landLichen s)
  else match groupOf s gid with
  | none => .next s
  | some g =>
    let ripe (t : Tile) : Bool := t.ripe s (g.cycleOf t.target)
    let s := (g.tiles.filter ripe).foldl (fun s t => landTile s g.cluster t) s
    .next (modGroup s gid fun g => { g with tiles := g.tiles.filter fun t => !ripe t })

/-- The message in flight to a core that enters next: in issue order, and in column order of those issued together (R257). -/
def nextMessage (s : State) (core : Nat) : Option InFlight :=
  (sortBy (fun a b : InFlight => decide (a.sent < b.sent) || (a.sent == b.sent && decide (columnOf a.source ≤ columnOf b.source)))
    (s.inFlight.filter fun m => m.target == core)).head?

/-- A message that holds poison is a consumed error of the group that receives it (R359, R391); where none runs, only a
rollback answers it (R379). -/
def receivePoison (s : State) (core : Nat) : State :=
  match groupOn s core with
  | some g => modGroup s g.gid fun g => { g with pending := ⟨9, 0, [g.rankOf core], none⟩ :: g.pending }
  | none => requestRollback s

/-- MESSAGE_ARRIVAL: the next message in flight to a core enters its queue, and that of its partner in a twin pair (R257,
R386). -/
def execMessageArrival (core : Nat) (s : State) : Outcome :=
  match nextMessage s core with
  | none => .next s
  | some m =>
    let s := { s with inFlight := s.inFlight.erase m }
    let s := (insiders s core).foldl (fun s id =>
      modCore s id fun c => { c with inbound := modifyAt c.inbound m.queue fun l => l ++ [m.bytes] }) s
    .next (if m.bad then receivePoison s core else s)

/-! Segments (R169 to R172). -/

/-- An entry of a program's segment table (R170). -/
structure Segment where
  slot : Nat
  len : Nat
  next : Option Nat
  handle : Nat
  offset : Nat
deriving DecidableEq, Repr

/-- The entry of a segment, when it lies in the table and is valid (R170, R324). A valid entry is taken as it stands, whatever
its reserved bits and its LEN hold (DESIGN CHOICE, unsafe: log entry 71). -/
def segmentEntry (s : State) (program seg : Nat) : Option Segment :=
  if seg < field (programWord s program 2) 0 18 then
    let pa := field (programWord s program 1) 4 48 * 16 + 16 * seg
    let w (i : Nat) : Nat := readNat s (pa + 4 * i) 4
    if (w 0).testBit 31 then
      some ⟨field (w 0) 29 2, field (w 0) 0 15, if (w 1).testBit 31 then some (field (w 1) 0 18) else none,
        field (w 2) 0 12, w 3⟩
    else none
  else none

/-- The overlay slot that holds a segment (R169). -/
def residentSlot (s : State) (core program seg : Nat) : Option Nat :=
  (List.range 4).find? fun i => (coreOf s core).overlay[i]? == some ⟨program, seg, 2⟩

/-- The copy of a segment to a core has failed (R172). -/
def segmentFailed (s : State) (core program seg : Nat) : Bool := (coreOf s core).overlay.contains ⟨program, seg, 3⟩

/-- A copy of a segment to a core is in flight, or waits for one that is (R171). -/
def copyInFlight (s : State) (core program seg : Nat) : Bool :=
  s.segCopies.any fun c => c.core == core && ((c.program == program && c.segment == seg) || c.after == some (program, seg))

/-- An overlay slot of a core replaced. -/
def setOverlay (s : State) (core slot : Nat) (o : Overlay) : State :=
  modCore s core fun c => { c with overlay := c.overlay.set slot o }

/-- A copy of a segment into its slot starts, or waits for the copy in flight there and replaces it (R171). It also replaces
another that waits (DESIGN CHOICE, unsafe: log entry 71). -/
def startCopySegment (s : State) (core program seg : Nat) : State :=
  match segmentEntry s program seg with
  | none => s
  | some e =>
    if copyInFlight s core program seg then s
    else if s.segCopies.any fun c => c.core == core && c.slot == e.slot then
      { s with segCopies := s.segCopies.map fun c =>
          if c.core = core ∧ c.slot = e.slot then { c with after := some (program, seg) } else c }
    else
      setOverlay { s with segCopies := s.segCopies ++ [⟨core, e.slot, program, seg, none, none⟩] } core e.slot ⟨program, seg, 1⟩

/-- The segment mark: a background copy of the next segment, under the conditions of R171. -/
def execSegmentMark (s : State) : Outcome :=
  let core := s.cur.core
  let program := curProgram s
  let here := s.cur.pc.toNat / 2 ^ 14
  match (segmentEntry s program here).bind Segment.next with
  | none => .next s
  | some seg =>
    match segmentEntry s program seg with
    | none => .next s
    | some e =>
      if (residentSlot s core program seg).isSome || residentSlot s core program here == some e.slot then .next s
      else .next (startCopySegment s core program seg)

/-- A byte of a core's bundle store (R79, R169). -/
def bundlePA (core o : Nat) : Nat := 2 * 2 ^ 48 + dieOf core * 2 ^ 46 + columnOf core * 2 ^ 24 + o

/-- The image of a segment, when its handle passes the checks of R90 and every byte is there (R70, R172, R436). -/
def segmentImage (s : State) (core program : Nat) (e : Segment) : Option (List Byte) :=
  let h := handleOf s (dieOf core) e.handle
  let pa (i : Nat) : Nat := h.pa (e.offset + i)
  if h.valid && decide (h.kind < 2) && h.program == program && h.rd && decide (e.offset + e.len ≤ h.len)
      && servedLayer s h.base != 1
      && (List.range e.len).all (fun i => mapped s (pa i) && peerAnswers s (pa i)) then
    let v := outside s noCore
    some (tabulate e.len fun i => readByte v (pa i))
  else none

/-- A copy whose image lies in a layer behind a crossing that admits nothing waits (R111). -/
def segmentHeld (s : State) (c : SegCopy) : Bool :=
  match segmentEntry s c.program c.segment with
  | some e => crossingShut s (handleOf s (dieOf c.core) e.handle).base
  | none => false

/-- The rows of the tower that a copy's image lies in (R83). -/
def segmentRequests (s : State) (c : SegCopy) (id : Nat) : List BankRequest :=
  match segmentEntry s c.program c.segment with
  | some e =>
    let h := handleOf s (dieOf c.core) e.handle
    towerRequests s 4 id (tabulate e.len fun i => h.pa (e.offset + i))
  | none => []

/-- A copy whose image can be read asks the banks before it reads it (R83, R85). -/
def askSegment (s : State) (c : SegCopy) : Option State :=
  let img := (segmentEntry s c.program c.segment).bind (segmentImage s c.core c.program)
  if c.asked.isSome || img.isNone || (segmentRequests s c s.nextId).isEmpty then none
  else some { s with
    nextId := s.nextId + 1, bankReqs := s.bankReqs ++ segmentRequests s c s.nextId,
    segCopies := s.segCopies.map fun x => if x = c then { x with asked := some s.nextId } else x }

/-- SEGMENT_COPY_LANDS: the segment is resident, or its copy has failed; a copy that waits for the slot starts (R171, R172).
The transfers are charged to the cluster leader's lichen context. -/
def execSegmentCopyLands (core : Nat) (slot : Fin 4) (s : State) : Outcome :=
  match s.segCopies.find? fun c => c.core == core && c.slot == slot.val with
  | none => .next s
  | some c =>
    if segmentHeld s c || c.asked.any (commandAsks s) then .next s
    else match askSegment s c with
    | some t => .next t
    | none =>
    let s := { s with segCopies := s.segCopies.erase c }
    let s := match (segmentEntry s c.program c.segment).bind (segmentImage s core c.program) with
      | some bs =>
        let s := chargeTo s (leaderOf (clusterOf core)) 0 12 ((bs.length + 63) / 64)
        setOverlay (store s .other (bundlePA core (16384 * c.slot)) bs) core c.slot ⟨c.program, c.segment, 2⟩
      | none => setOverlay s core c.slot ⟨c.program, c.segment, 3⟩
    match c.after with
    | some (p, seg) =>
      .next (setOverlay { s with segCopies := s.segCopies ++ [⟨core, c.slot, p, seg, none, none⟩] } core c.slot ⟨p, seg, 1⟩)
    | none => .next s

/-! The M slot at its banks (R85, R86). -/


/-- The M slot of a core loses a cycle at a bank: it counts, and its request has waited one cycle more (R85, R86). -/
def loseM (s : State) (core bank : Nat) : State :=
  let s := countLoss s core 0 bank
  if s.bankReqs.any fun r => r.cls == 0 && r.core == core && r.bank == bank then
    { s with bankReqs := s.bankReqs.map fun r =>
      if r.cls = 0 ∧ r.core = core ∧ r.bank = bank then { r with waited := r.waited + 1 } else r }
  else { s with bankReqs := s.bankReqs ++ [⟨core, 2, bank, 0, core, 1⟩] }

end Sys2Proof.Machine
end

