-- ==== Sys2Proof/Machine/Tasks.lean ====
section
/-! DEFINITION. A task at a boundary: the causes that wait, debug stops, the watchdog, and the completion of a suspension
point (R29, R313, R318, R350 to R355, R361, R377, R416). -/

namespace Sys2Proof.Machine

open Sys2Proof

/-! Causes that wait (R350, R354). -/

/-- A cause joined to those that wait: one of its code stands for both, on the ranks of either; the detail is the lowest
rank's (R350). -/
def addCause : List Cause → Cause → List Cause
  | [], c => [c]
  | d :: ds, c =>
    if d.code = c.code then
      { (if c.origin < d.origin then c else d) with ranks := (d.ranks ++ c.ranks).dedup } :: ds
    else d :: addCause ds c

/-- The causes a group may take now: in save mode a pre-emption is held (R354), and a stretch of it that is used up is a cause of
the watchdog (R355). -/
def eligibleCauses (g : Group) : List Cause :=
  let waiting := g.pending.filter fun c => !(g.saveMode && c.code == 12)
  let spent : List Cause := if stretchUsed g then [⟨13, 0, List.range g.members.length, none⟩] else []
  (waiting ++ spent).foldl addCause []

/-- The cause that stands first, by tier and then by code (R350). -/
def nextCause (g : Group) : Option Cause :=
  (sortBy (fun a b : Cause => decide (vector.tierOf a.code < vector.tierOf b.code)
    || (decide (vector.tierOf a.code = vector.tierOf b.code) && decide (a.code ≤ b.code))) (eligibleCauses g)).head?

/-- A consumed error, if one waits (R350 tier 1). -/
def consumedCause (g : Group) : Option Cause := (nextCause g).filter fun c => vector.tierOf c.code == 1

/-! Debug stops (R361, R416). -/

/-- The group freezes at its boundary: TCAUSE and TPC show the stop, and keep what they held (R361). -/
def freezeGroup (s : State) (g : Group) (c : Cause) : State :=
  let tpc := causePC s g c
  let s := trace s (g.members.headD 0) 4 tpc g.counter ((causeWord c 0).toNat + tpc.toNat * 2 ^ 32)
  let saved := g.all.map fun id => (id, (taskOf s id).tcause, (taskOf s id).tpc)
  let s := g.all.foldl (fun s id => modTask s id fun t => { t with tcause := causeWord c (g.rankOf id), tpc := tpc }) s
  modGroup s g.gid fun g => { g with
    frozen := some ⟨saved⟩, single := false, pending := g.pending.filter fun p => p.code != 14 }

/-- The ranks of the cores that issue whose breakpoints name their bundle (R416). -/
def breakpointRanks (s : State) (g : Group) (cores : List Nat) : List Nat :=
  ((cores.filter fun id =>
    let d := (coreOf s id).dbg
    d.en && d.bkpt.any fun b => b.getLsbD 63 && bits b 32 16 == g.program && bits b 2 30 * 4 == (taskOf s id).pc.toNat).map
    (Group.rankOf g)).dedup

/-! Taking a cause (R350, R351, R359). -/

/-- The pause of a group ends, with its trace record (R32, R409). -/
def endPause (s : State) (gid : Nat) : State :=
  match groupOf s gid with
  | none => s
  | some g =>
    if g.pauseCode = 0 then s
    else
      let s := trace s (g.members.headD 0) 7 (taskOf s (g.members.headD 0)).pc g.counter
        (g.pauseCode + g.pauseCount % 2 ^ 32 * 2 ^ 32)
      modGroup s gid fun g => { g with pauseCode := 0, pauseCount := 0 }

/-- The trace record of a watchdog event. -/
def traceWatchdog (s : State) (g : Group) (kind : Nat) : State :=
  trace s (g.members.headD 0) 9 (taskOf s (g.members.headD 0)).pc g.counter (kind + g.frond * 2 ^ 32)

/-- The trap of a drained group, or the end of a task whose stretch of save mode is used up (R351, R355). -/
def endOrVector (s : State) (g : Group) (c : Cause) : State :=
  if stretchUsed g && c.code == 13 then cutOff (traceWatchdog s g 1) g 13 else vector s g c

/-- The trailing cores have a bundle to issue (R384): two cycles behind, or behind leading cores that have stopped. -/
def trailingReady (g : Group) (stopped : Bool) : Bool :=
  g.twin && (decide (2 * g.members.length ≤ g.signatures.length) || (stopped && !g.signatures.isEmpty))

/-- A group takes a cause: a consumed error, a debug stop, or the trap, for which it stops until what it has issued has completed
and its trailing cores have caught up; when poisoned data reach a register as the group drains for a trap, that consumed error
stands first (R350, R351, R359, R384). -/
def takeCause (s : State) (g : Group) (c : Cause) : State :=
  if vector.tierOf c.code = 1 then consumeError s g c
  else if c.code = 14 then freezeGroup s g c
  else if trailingReady g true || drainsStill s g then stopGroup s g c
  else
    let t := drainGroup s g
    match (groupOf t g.gid).bind fun x => (consumedCause x).map fun e => (x, e) with
    | some (x, e) => consumeError t x e
    | none => endOrVector t ((groupOf t g.gid).getD g) c

/-- TRAP_VECTORING: a group that stands at a boundary takes the cause that stands first (R350, R351). -/
def execTrapVectoring (gid : Nat) (s : State) : Outcome :=
  match groupOf s gid with
  | none => .next s
  | some g =>
    if g.frozen.isSome ∨ g.susp.isSome ∨ g.stopping.isSome then .next s
    else match nextCause g with
      | some c => .next (takeCause (endPause s gid) g c)
      | none => .next s

/-! The watchdog (R355). -/

/-- The task limit in nanoseconds of device time (R355). -/
def taskLimit (s : State) : Nat := 1000 * max 1 (bits s.pkg.wdcfg 0 20)

/-- A running task has reached its limit, and the cause does not wait yet. -/
def limitReached (s : State) (g : Group) : Bool :=
  s.pkg.wdcfg.getLsbD 31 && !g.saveMode && g.susp.isNone && decide (taskLimit s ≤ g.limitTicks)
    && !g.pending.any fun c => c.code == 13

/-- TASK_LIMIT_EXPIRY: the task takes cause 13 at its next boundary (R355). -/
def execTaskLimitExpiry (gid : Nat) (s : State) : Outcome :=
  match groupOf s gid with
  | none => .next s
  | some g =>
    if limitReached s g then
      .next (modGroup (traceWatchdog s g 2) gid fun g => { g with
        pending := g.pending ++ [⟨13, 0, List.range g.members.length, none⟩] })
    else .next s

/-- SAVE_MODE_CUTOFF: a group whose stretch of save mode is used up takes the cause that stands first at the boundary, which is
this one unless another stands before it (R350, R355). -/
def execSaveModeCutoff (gid : Nat) (s : State) : Outcome :=
  match groupOf s gid with
  | none => .next s
  | some g => if stretchUsed g && g.frozen.isNone then .next (((nextCause g).map (takeCause (endPause s gid) g)).getD s) else .next s

/-! The suspension point (R29, R313, R318, R377). -/

/-- A matrix unit that still runs a routine, holds a call, or has entries to push. -/
def unitBusy (s : State) (id : Nat) : Bool :=
  let mx := (coreOf s id).mx
  mx.routine.isSome || mx.waiting.isSome || !mx.drain.isEmpty

/-- A running routine cancelled as `mcancel` cancels it (R299, R377). -/
def cancelUnit (s : State) (id : Nat) : State := modMx s id Matrix.cancel

/-- Poisoned data is still to reach a register of the group (R359). -/
def poisonInFlight (s : State) (g : Group) : Bool :=
  g.all.any fun id => (taskOf s id).pend.any Pending.poisoned

/-- Accesses and operations of a group that have not completed (R29): remote accesses, and arrivals and offers that wait for
them. -/
def groupBusy (s : State) (g : Group) : Bool :=
  g.all.any (fun id => !(taskOf s id).remotes.isEmpty || s.lateArrivals.any fun a => a.core == id)
    || s.offers.any fun o => o.gid == g.gid

/-- SUSPENSION_POINT_COMPLETE: every operation the task has issued has completed (R29). A consumed error found by then lies
outside every region (R313, R359); in a seal, a routine that the save routine leaves running is cancelled (R377). -/
def execSuspensionPointComplete (gid : Nat) (s : State) : Outcome :=
  match (groupOf s gid).bind fun g => g.susp.map fun p => (g, p) with
  | none => .next s
  | some (g, p) =>
    if g.frozen.isSome || !g.signatures.isEmpty || g.stopping.isSome then .next s
    else
      let s := if s.seals.phase == .quiesce && (g.saveMode || g.lastCause != 0) then g.all.foldl cancelUnit s else s
      if (consumedCause g).isSome || poisonInFlight s g then .next (startRollback s)
      else if g.all.any (unitBusy s) || groupBusy s g then .next s
      else
        let s := drainGroup s g
        match groupOf s gid with
        | some g => .next (if (consumedCause g).isSome then startRollback s else completeSuspension s g p)
        | none => .next s

end Sys2Proof.Machine
end

