-- ==== Sys2Proof/Machine/Bundle.lean ====
section
/-! DEFINITION. A bundle at issue: its fetch, the checks made before it issues, and the order in which its slots act
(R28, R116, R142 to R146, R151, R169 to R173, R190, R195, R199, R254, R290, R350). -/

namespace Sys2Proof.Machine

open Sys2Proof

/-! Fetch (R142, R169 to R173). -/

/-- What a fetch finds: a byte that is not executable, at its offset in the bundle; a segment to wait for; or the words. -/
inductive Fetched where
  | fault (offset : Nat)
  | stall (segment : Nat)
  | words (ws : List Nat)
deriving DecidableEq, Repr

/-- The byte of a bundle address is executable (R170). -/
def executable (s : State) (program addr : Nat) : Bool :=
  match segmentEntry s program (addr / 2 ^ 14) with
  | some e => decide (addr % 2 ^ 14 < e.len)
  | none => false

/-- The word at a bundle address of a resident segment. -/
def fetchWord (s : State) (core program addr : Nat) : Nat :=
  readNat s (bundlePA core (16384 * (residentSlot s core program (addr / 2 ^ 14)).getD 0 + addr % 2 ^ 14)) 4

/-- The segment of an address is there, or what stands in for the words. -/
def segmentReady (s : State) (core program addr offset : Nat) : Option Fetched :=
  if (residentSlot s core program (addr / 2 ^ 14)).isSome then none
  else if segmentFailed s core program (addr / 2 ^ 14) then some (.fault offset)
  else some (.stall (addr / 2 ^ 14))

/-- The bundle at an address (R173): `offset` i of the bundle is address `pc + i`. An address with bits [1:0] nonzero came from a
register or a stack, and gives offset 0 (R182). Where the bundle runs into a valid segment whose copy fails, the offset is that of
its first byte beyond the segment (DESIGN CHOICE, unsafe: log entry 71). -/
def fetchBundle (s : State) (core program pc : Nat) : Fetched :=
  let at' (i : Nat) : Nat := (pc + i) % 2 ^ 32
  if pc % 4 ≠ 0 then .fault 0
  else if !executable s program pc then .fault 0
  else match segmentReady s core program pc 0 with
    | some f => f
    | none =>
      let len := bundleLength (fetchWord s core program pc)
      match (List.range len).find? fun i => !executable s program (at' i) with
      | some i => .fault i
      | none =>
        let cross := (List.range len).find? fun i => at' i / 2 ^ 14 != pc / 2 ^ 14
        match cross.bind fun i => segmentReady s core program (at' i) i with
        | some f => f
        | none => .words (tabulate (len / 4) fun i => fetchWord s core program (at' (4 * i)))

/-! Slots acting (R116, R143). -/

/-- How an operation acts: a meaning of every instruction. -/
abbrev Meaning := Instr → State → Outcome

/-- The state after an operation. -/
def runOp (ex : Meaning) (s : State) (i : Instr) : State :=
  match ex i s with
  | .next t => t
  | .fault _ => s
  | .refused _ => s

/-- One member in the issue of a bundle: its cursor, the operations of its bundle, and its header's effects. -/
structure Lane where
  cur : Cursor
  ops : List (Slot × Instr)
  effects : List Instr
deriving DecidableEq, Repr

/-- Something done as a member. -/
def inLane (s : State) (l : Lane) (f : State → State) : State × Lane :=
  let t := f { s with cur := l.cur }
  (t, { l with cur := t.cur })

/-- Something done as every member in turn. -/
def eachLane (acc : State × List Lane) (f : Lane → State → State) : State × List Lane :=
  acc.2.foldl (fun (s, ls) l => let r := inLane s l (f l); (r.1, ls ++ [r.2])) (acc.1, [])

/-- The operations of every member that a phase names. -/
def phase (ex : Meaning) (pick : Slot → Instr → Bool) (acc : State × List Lane) : State × List Lane :=
  eachLane acc fun l s => (l.ops.filter fun o => pick o.1 o.2).foldl (fun s o => runOp ex s o.2) s

/-- A C-slot operation that acts once the other slots have acted: offers of fronds, the return from save mode, the close of a
region. -/
def lateC : Instr → Bool
  | .spawn _ _ _ | .spawnn _ _ _ _ | .rft _ _ | .rgclose _ => true
  | _ => false

/-- An operation that reads near memory as it stood before the bundle's stores. -/
def readsFirst : Instr → Bool
  | .rot _ _ _ _ _ _ _ | .qpush _ _ _ _ => true
  | _ => false

/-- An initialisation of a barrier, or its return to idle (R106). -/
def setsBarrier : Instr → Bool
  | .binit _ _ _ _ | .bidle _ _ => true
  | _ => false

def isBarv : Instr → Bool
  | .barv _ _ _ => true
  | _ => false

def isMqclr : Instr → Bool
  | .mqclr _ _ => true
  | _ => false

/-- The first phase: every slot that touches no memory outside its core, except what acts at bundle end. -/
def actsFirst (sl : Slot) (i : Instr) : Bool :=
  match sl with
  | .m | .f => false
  | .c => !lateC i
  | .x => !isMqclr i
  | _ => true

/-- The banks an M slot uses are taken for the cycle, and a request of its that has lost there is met (R85); a lichen bundle leaves
the task's where it stands. -/
def useBanks (s : State) (l : Lane) : State :=
  let s := if s.cur.lichen then s else { s with bankReqs := s.bankReqs.filter fun r => !(r.cls == 0 && r.core == s.cur.core) }
  l.ops.foldl (fun s o =>
    if guarded s o.2 then { s with bankUsed := s.bankUsed ++ ((nearBanks s o.2).map fun b => (s.cur.core, b)) } else s) s

/-- A bundle that accesses memory, or calls a routine that does (R112). -/
def Lane.accesses (s : State) (l : Lane) : Bool :=
  let v := { s with cur := l.cur }
  l.ops.any fun o => guarded v o.2 && (o.1 == .m || o.1 == .f || match o.2 with
    | .mcall _ _ => true
    | _ => false)

/-- The acquires of a task context before a bundle that accesses memory are bound (R122). -/
def bindBefore (s : State) (l : Lane) : State :=
  if !l.cur.lichen && l.accesses s then bindAcquires s l.cur.core else s

/-- What is left for bundle end, after the loop-end mark (R190). -/
def runPost (s : State) : State :=
  s.cur.post.foldl (fun s p => match p with
    | .pushLoop a b c => modCur s fun t => t.pushLoop a b c) s

/-- Every slot of the bundles that issue together, in the order of R116, R106 and R143: reads of memory by `rot` and `qpush`,
the M slot, then what reads after the bundle's stores; within the cycle arrivals before initialisations; at bundle end the
offers, the pops, the marks. -/
def issueLanes (ex : Meaning) (s : State) (ls : List Lane) : State × List Lane :=
  let acc := eachLane (s, ls) fun l s => useBanks (charge (bindBefore s l) 0 1) l
  let acc := phase ex actsFirst acc
  let acc := phase ex (fun sl i => sl == .f && readsFirst i) acc
  let acc := phase ex (fun sl _ => sl == .m) acc
  let acc := phase ex (fun sl i => sl == .f && isBarv i) acc
  let acc := phase ex (fun sl i => sl == .f && setsBarrier i) acc
  let acc := phase ex (fun sl i => sl == .f && !readsFirst i && !isBarv i && !setsBarrier i) acc
  let acc := phase ex (fun sl i => sl == .c && lateC i) acc
  let acc := phase ex (fun sl i => sl == .x && isMqclr i) acc
  eachLane acc fun l s => runPost (l.effects.foldl (runOp ex) s)

/-! Checks at issue (R145, R146, R151, R350). -/

/-- The C slot's operation. -/
def cSlot (ops : List (Slot × Instr)) : Option Instr := (ops.find? fun o => o.1 == .c).map Prod.snd

/-- The state with the checks of the current bundle made. -/
def checkedState (s : State) : State := { s with cur := { s.cur with checked := true } }

/-- The state after one operation, to look ahead. -/
def afterOp (ex : Meaning) (s : State) (i : Option Instr) : State :=
  match i with
  | some i => { runOp ex (checkedState s) i with cur := s.cur }
  | none => s

/-- The C slot takes a transfer (R182). -/
def takesTransfer (ex : Meaning) (s : State) (ops : List (Slot × Instr)) : Bool :=
  match cSlot ops with
  | some i => (runOp ex (checkedState s) i).cur.target.isSome
  | none => false

/-- The bundle carries an effective `qwait` (R199). -/
def waitsForQueues (s : State) (ops : List (Slot × Instr)) : Bool :=
  match cSlot ops with
  | some (.qwait g) => guardHolds s g
  | _ => false

/-- A pattern load and the M slot name one bank (R84, R290); an address that needs the head of an empty queue names none
(R151). -/
def patternCollides (s : State) (ops : List (Slot × Instr)) (empty : List Nat) : Bool :=
  let banks (sl : Slot) : List Nat :=
    (ops.filter fun o => o.1 == sl && guarded s o.2 && !o.2.queueHeads.any empty.contains).flatMap fun o => nearBanks s o.2
  (banks .n).any fun b => (banks .m).contains b

/-- What a member's bundle meets before it issues: a stop, a late event, or nothing. -/
structure Verdict where
  stop : Option Stop
  hold : Option Nat
  lane : Option Lane
deriving DecidableEq, Repr

/-- The member's cursor for a bundle. -/
def bundleCursor (s : State) (g : Group) (id : Nat) (h : Header) (len : Nat) : Cursor :=
  let pc := (taskOf s id).pc
  { Cursor.initial with
    core := id, gid := g.gid, pc := pc, seq := pc + BitVec.ofNat 32 len, scope := h.scope.val, pop := h.pop,
    cycle := g.cycleOf id, marked := h.loopEnd, external := !g.twin || g.trailing.contains id }

/-- The checks of a decoded bundle on the member whose cursor is set. The F slot reads after the bundle's M-slot store
(R116). Of several empty queues the lowest is the detail of the underflow (DESIGN CHOICE, unsafe: log entry 72). -/
def judgeBundle (ex : Meaning) (s : State) (b : Bundle) : Verdict :=
  let path := match cSlot b.ops with
    | some i => pathOf s i
    | none => 4
  let s := { s with cur := { s.cur with path := path } }
  let sM := afterOp ex s ((b.ops.find? fun o => o.1 == .m).map Prod.snd)
  let view (sl : Slot) : State := if sl = .f then sM else s
  let stops := (b.ops.flatMap fun o => stopsOf o.2 (view o.1)).filter fun st => st.code != 4
  let marks := if b.header.loopEnd && (curTask s).ld == 0 && !takesTransfer ex s b.ops then [Stop.illegal 0] else []
  let empty := (queuesOf b.header.pop).filter (queueEmpty s)
  let banks := if patternCollides s b.ops empty then [Stop.illegal 8] else []
  let waits := waitsForQueues s b.ops
  let queues : List Stop := if waits then [] else empty.map fun q => ⟨3, 0, 4, q, none⟩
  let early := (stops ++ marks).filter fun st => decide (st.tier ≤ 2)
  let hold := b.ops.findSome? fun o => if guarded s o.2 then holdOf o.2 (view o.1) else none
  let lane : Lane := ⟨{ s.cur with checked := true }, b.ops, b.header.effects⟩
  if waits && !empty.isEmpty then ⟨firstStop (early ++ banks), some 6, some lane⟩
  else ⟨firstStop (stops ++ marks ++ banks ++ queues), hold, some lane⟩

/-- The checks of the bundle a member is to issue (R146). -/
def judgeMember (ex : Meaning) (s : State) (g : Group) (id : Nat) : Verdict :=
  match fetchBundle s id g.program (taskOf s id).pc.toNat with
  | .fault off => ⟨some ⟨0, 0, 3, off, none⟩, none, none⟩
  | .stall _ => ⟨none, some 5, none⟩
  | .words ws => match decodeBundle ws with
    | .error _ => ⟨some (Stop.illegal 0), none, none⟩
    | .ok b => judgeBundle ex { s with cur := bundleCursor s g id b.header b.len } b

/-! Agreement (R28, R195, R254). -/

/-- What the members of a group must agree on: which operation ends the task or returns, and the shape of a `rot`. -/
def agreementKey (i : Instr) : Option (Nat × Nat) :=
  match i with
  | .susp _ _ _ | .suspTarget _ _ _ => some (1, 0)
  | .endTask _ => some (2, 0)
  | .irrev _ _ | .irrevTarget _ _ => some (3, 0)
  | .rft _ _ => some (4, 0)
  | .rot _ _ _ cnt dir len _ => some (5, len.val * 4 + dir.toNat * 2 + cnt.toNat)
  | _ => none

/-- The keys of the operations a member issues with true guards. -/
def laneKeys (s : State) (l : Lane) : List (Nat × Nat) :=
  let s := { s with cur := l.cur }
  (l.ops.filter fun o => guarded s o.2).filterMap fun o => agreementKey o.2

/-- The members agree (R28, R195, R254). -/
def agrees (s : State) (ls : List Lane) : Bool :=
  match ls with
  | [] => true
  | l :: rest => rest.all fun m => laneKeys s m == laneKeys s l

/-- The verdicts of the members as one cause: the stop that stands first, on every rank where it arises (R350). -/
def groupStop (vs : List Verdict) : Option Cause :=
  match firstStop (vs.filterMap Verdict.stop) with
  | none => none
  | some st =>
    let ranks := (List.range vs.length).filter fun r => match (vs[r]?).bind Verdict.stop with
      | some x => x.code == st.code && x.tier == st.tier
      | none => false
    let own := ((vs[ranks.headD 0]?).bind Verdict.stop).getD st
    some ⟨own.code, own.detail, ranks, own.tpc⟩

/-- A disagreement is an illegal bundle on every member. -/
def agreementStop (s : State) (vs : List Verdict) : Option Cause :=
  let ls := vs.filterMap Verdict.lane
  if ls.length = vs.length ∧ agrees s ls = false then some ⟨1, 0, List.range vs.length, none⟩ else none

/-- The cause the bundles about to issue give, before any slot acts (R146, R350): a fetch fault, an illegal bundle, then the
rest. -/
def issueCause (s : State) (vs : List Verdict) : Option Cause :=
  match groupStop vs with
  | some c => if c.code = 3 ∨ (vs.any fun v => match v.stop with
      | some st => decide (st.tier ≤ 1)
      | none => false) = true then some c
    else (match agreementStop s vs with
      | some a => some a
      | none => some c)
  | none => agreementStop s vs

/-! A group at its boundary (R30, R32, R350, R351, R384 to R386). -/


/-- A command of a group stands beyond the 16 entries of its engine's queue: the bundle brought more than there was room for, and
the engine has not accepted it (R87). -/
def commandUnaccepted (s : State) (g : Group) : Bool :=
  s.dom.engines.any fun e => (e.2.queue.drop 16).any fun c => c.packet.isNone && c.gid == g.gid

/-- Late events of bundles that have issued: a remote load past its due cycle, a tile not accepted, a call that waits, a command
that its engine has not accepted (R32). -/
def earlierHold (s : State) (g : Group) : Option Nat :=
  if g.all.any fun id => (taskOf s id).remotes.any fun r => r.late (g.cycleOf id) then some 1
  else if commandUnaccepted s g then some 10
  else if g.tiles.any fun t => decide (t.due ≤ g.cycleOf t.target) && requestsStand s 5 t.id then some 3
  else if g.all.any fun id => (coreOf s id).mx.waiting.any Call.pauses then some 9
  else none

/-- The tiles of a group that are due and accepted land before the bundle of their cycle (R254). -/
def landDue (s : State) (g : Group) : State :=
  match execRotDelivery g.gid s with
  | .next t => t
  | .fault _ => s
  | .refused _ => s

/-- The results due at a boundary are delivered on every core, those of one cycle together (R16, R31, R167). -/
def deliverGroup (s : State) (g : Group) : State := g.all.foldl (fun s id => deliverDue s id (g.cycleOf id)) s

/-- The segments the members wait for start to be copied (R172). -/
def startStalls (s : State) (g : Group) : State :=
  g.all.foldl (fun s id => match fetchBundle s id g.program (taskOf s id).pc.toNat with
    | .stall seg => startCopySegment s id g.program seg
    | .fault _ => s
    | .words _ => s) s

/-- The lost cycles of an M slot that a bank does not grant (R86). -/
def countMLosses (s : State) (vs : List Verdict) : State :=
  (vs.filterMap fun v => if v.hold = some 2 then v.lane else none).foldl (fun s l =>
    let v := { s with cur := l.cur }
    let banks := ((l.ops.filter fun o => guarded v o.2).flatMap fun o => nearBanks v o.2).dedup
    (banks.filter (mLoses s l.cur.core)).foldl (fun s b => loseM s l.cur.core b) s) s

/-- A member goes on: to its target, or to the next bundle (R182). -/
def advanceLane (s : State) (l : Lane) : State := modTask s l.cur.core fun t => { t with pc := l.cur.target.getD l.cur.seq }

/-- A command of a pair keeps the bytes that a compared store of the leading column replaces after it (R117, R141). -/
def Command.keepVeiled (c : Command) (pair : List Nat) (now : Nat) (vs : List Veil) : Command :=
  if pair.contains c.issuer && decide (c.issued < now) then
    { c with kept := c.kept ++ (vs.filter fun v =>
        c.handles.any (fun h => h.2.covers v.pa) && !(c.kept.any fun k => k.1 == v.pa)).map fun v => (v.pa, v.old, false) }
  else c

/-- The stores of a leading core up to a bundle have been compared: everyone sees them (R141). -/
def liftVeils (s : State) (lead trail cycle : Nat) : State :=
  let vs := (taskOf s lead).veiled.filter fun v => decide (v.stamp ≤ cycle)
  if vs.isEmpty then s
  else
    let keep (c : Command) : Command := c.keepVeiled [lead, trail] s.now vs.reverse
    let s := { s with dom := { s.dom with engines := s.dom.engines.map fun (k, e) =>
      (k, { e with queue := e.queue.map keep, running := e.running.map keep }) } }
    modTask s lead fun t => { t with veiled := t.veiled.filter fun v => !decide (v.stamp ≤ cycle) }

/-- A trailing core commits a bundle: its signature is compared with its leading core's. Its stores are seen by everyone when the
two agree, and a difference is a twin divergence (R141, R385, R388). -/
def judgeTwin (s : State) (g : Group) (l : Lane) : State :=
  let r := g.rankOf l.cur.core
  if g.signatures[r]? = some l.cur.sig then liftVeils s (g.members.getD r 0) l.cur.core l.cur.cycle else twinDiverges s g r

/-- The group's counters after a bundle: the cycle counter, the count of save mode, the boundaries since the lichen
contexts issued, and the stops that breakpoints and stepping ask for (R30, R36, R355, R416, R417). -/
def closeBundle (s : State) (g : Group) (leading trailing : List Lane) (ranks : List Nat) : State :=
  let w := g.members.length
  let stops : List Cause :=
    (if ranks.isEmpty then [] else [⟨14, 0, ranks, none⟩])
      ++ (if g.single then [⟨14, 0, List.range w, none⟩] else [])
  modGroup s g.gid fun x => { x with
    counter := x.counter + 1,
    saveCount := if leading.isEmpty then x.saveCount else if g.saveMode then x.saveCount + 1 else 0,
    boundaries := (0 :: x.boundaries).take 64,
    single := if leading.isEmpty then x.single else false,
    pending := x.pending ++ stops,
    signatures := (if trailing.isEmpty then x.signatures else x.signatures.drop w)
      ++ (if x.twin then leading.map fun l => l.cur.sig else []) }

/-- A trailing lane that takes no effect outside its core: its bundle differs from its leading core's. -/
def Lane.silent (l : Lane) : Lane := { l with cur := { l.cur with external := false } }

/-- The trailing lanes that issue: those whose bundles have been compared and agree act outside their cores, the others do not
(R386). -/
def comparedLanes (ex : Meaning) (s : State) (g : Group) (leading trailing : List Lane) : List Lane :=
  if trailing.isEmpty then trailing
  else
    let done := (issueLanes ex s (leading ++ trailing)).2.drop leading.length
    (trailing.zip done).map fun (l, d) =>
      if g.signatures[g.rankOf l.cur.core]? = some d.cur.sig then l else l.silent

/-- The bundles of the leading and the trailing cores that issue in this cycle act (R30, R384, R386). -/
def issueGroup (ex : Meaning) (s : State) (g : Group) (leading trailing : List Lane) : State :=
  let s := endPause s g.gid
  let ranks := breakpointRanks s g ((leading ++ trailing).map fun l => l.cur.core)
  let (s, ls) := issueLanes ex s (leading ++ comparedLanes ex s g leading trailing)
  let lead := ls.take leading.length
  let trail := ls.drop leading.length
  let s := trail.foldl (fun s l => judgeTwin s g l) s
  let s := ls.foldl advanceLane s
  closeBundle s g lead trail ranks

/-- What the members meet where some of them wait for the segment of their bundle: until it is resident on every member nothing
stops the bundle but a fetch fault (R172). -/
def awaitSegments (vs : List Verdict) : List Verdict :=
  if vs.any fun v => v.hold == some 5 then
    vs.map fun v => if v.stop.all fun x => x.code == 3 then v else { v with stop := none }
  else vs

/-- The bundles that issue together take more egress entries than the buffer of their die has room for (R380). -/
def egressCrowded (s : State) (ls : List Lane) : Bool :=
  let need (l : Lane) : Nat :=
    let v := { s with cur := l.cur }
    if l.cur.external then ((l.ops.filter fun o => guarded v o.2).map fun o => egressNeeds o.2 v).sum else 0
  let d := dieOf ((ls.head?.map fun l => l.cur.core).getD 0)
  egressShort s d (256 * ls.length) && egressShort s d (ls.map need).sum

/-- The late event that holds the bundles about to issue: of a member, or of the egress buffer for all of them (R32, R380). -/
def bundleHold (s : State) (vs : List Verdict) : Option Nat :=
  match vs.findSome? Verdict.hold with
  | some code => some code
  | none => if egressCrowded s (vs.filterMap Verdict.lane) then some 8 else none

/-- The verdicts of the trailing cores; one that is stopped where its leading core was not has diverged (R385). -/
def trailingVerdicts (ex : Meaning) (s : State) (g : Group) : List Verdict :=
  awaitSegments (g.trailing.map (judgeMember ex s g))

/-- The lichen cycle of a boundary is over (R32, R35). -/
def endLichen (s : State) (gid : Nat) : State := modGroup s gid fun g => { g with lichenHold := false, lichenCores := [] }

/-- A trailing core that cannot issue what its leading core issued has diverged. -/
def divergeTrailing (s : State) (g : Group) (vs : List Verdict) : State :=
  ((List.range vs.length).filter fun r => ((vs[r]?).bind Verdict.stop).isSome).foldl (fun s r => twinDiverges s g r) s

/-- Only the trailing cores issue: they catch up with leading cores that have stopped (R384). -/
def catchUp (ex : Meaning) (s : State) (g : Group) : State :=
  let vs := trailingVerdicts ex s g
  if vs.any fun v => v.stop.isSome then divergeTrailing s g vs
  else match bundleHold s vs with
    | some code => pauseGroup (startStalls (countMLosses s vs) g) g.gid code
    | none => issueGroup ex s g [] (vs.filterMap Verdict.lane)

/-- A group stops for a cause at its boundary, which ends a pause (R351); overlay slots whose copies failed are empty again after
their fetch fault. -/
def stopFor (s : State) (g : Group) (c : Cause) : State :=
  let clear (o : Overlay) : Overlay := if o.state = 3 ∧ o.program = g.program then ⟨0, 0, 0⟩ else o
  let s := if c.code = 3 then g.all.foldl (fun s id => modCore s id fun x => { x with overlay := x.overlay.map clear }) s else s
  takeCause (endPause s g.gid) g c

/-- A group that has stopped for a cause: its trailing cores catch up, each once nothing in flight holds its bundle, and then the
cause is taken (R351, R384). An mcall that waits holds none of them (R320). -/
def goOnStopping (ex : Meaning) (s : State) (g : Group) (c : Cause) : State :=
  if trailingReady g true = false then takeCause (endPause s g.gid) g c
  else if g.lichenHold then endLichen s g.gid
  else match (earlierHold s g).filter (· != 9) with
    | some _ => s
    | none => catchUp ex s g

/-- A group whose leading cores have issued a suspension: late events hold its trailing cores as they hold any bundle, and they
catch up (R32, R35, R384). -/
def goOnSuspending (ex : Meaning) (s : State) (g : Group) : State :=
  if trailingReady g true = false then endLichen s g.gid
  else match (if g.lichenHold then some 4 else earlierHold s g) with
    | some code => pauseGroup (endLichen s g.gid) g.gid code
    | none => catchUp ex s g


/-- The bundle about to issue: what stops it, what waits, what holds it, or its issue. -/
def issueOrStop (ex : Meaning) (s : State) (g : Group) : State :=
  let vs := awaitSegments (g.members.map (judgeMember ex s g))
  match issueCause s vs with
  | some c => stopFor s g { c with tpc := some (causePC s g c) }
  | none => match nextCause g with
    | some c => stopFor s g c
    | none => match bundleHold s vs with
      | some code => pauseGroup (startStalls (countMLosses s vs) g) g.gid code
      | none =>
        let ts := if trailingReady g false then trailingVerdicts ex s g else []
        if ts.any fun v => v.stop.isSome then divergeTrailing s g ts
        else match bundleHold s ts with
          | some code => pauseGroup (startStalls (countMLosses s ts) g) g.gid code
          | none => issueGroup ex s g (vs.filterMap Verdict.lane) (ts.filterMap Verdict.lane)


/-- The cut-off of a stretch of save mode whose last bundle suspends the task (R355). -/
def takeCutoff (s : State) (gid : Nat) : State :=
  match execSaveModeCutoff gid s with
  | .next t => t
  | .fault _ => s
  | .refused _ => s

/-- A group at its boundary (R30 to R32, R35, R350, R351). -/
def groupCycle (ex : Meaning) (s : State) (gid : Nat) : State :=
  match groupOf s gid with
  | none => s
  | some g =>
    if g.frozen.isSome then endLichen s gid
    else
      let s := deliverGroup (landDue s g) g
      match groupOf s gid with
      | none => s
      | some g =>
        match consumedCause g with
        | some c => if g.susp.isSome && g.stopping.isNone then s else takeCause (endPause s gid) g c
        | none =>
          match g.stopping with
          | some c => goOnStopping ex s g c
          | none =>
            if g.susp.isSome && stretchUsed g then takeCutoff s gid
            else if g.susp.isSome then goOnSuspending ex s g
            else match (if g.lichenHold then some 4 else earlierHold s g) with
              | some code => match nextCause g with
                | some c => stopFor (endLichen s gid) g c
                | none => pauseGroup (endLichen s gid) gid code
              | none => issueOrStop ex s g

end Sys2Proof.Machine
end

