-- ==== Sys2Proof/Machine/Scalar.lean ====
section
/-! DEFINITION. The A and B slots: the integer forms, the compares, and the copies to other files (R217 to R223). -/

namespace Sys2Proof.Machine

open Sys2Proof

/-! Word functions of the table of R218. -/

/-- A shift amount: y[4:0]. -/
def amount (y : Word) : Nat := bits y 0 5

/-- A word from an integer, modulo 2^32. -/
def wordOf (x : Int) : Word := BitVec.ofInt 32 x

def aluMin (x y : Word) : Word := if x.toInt ≤ y.toInt then x else y
def aluMax (x y : Word) : Word := if x.toInt ≤ y.toInt then y else x
def aluMinu (x y : Word) : Word := if x.toNat ≤ y.toNat then x else y
def aluMaxu (x y : Word) : Word := if x.toNat ≤ y.toNat then y else x
def aluMulh (x y : Word) : Word := wordOf (x.toInt * y.toInt / 2 ^ 32)
def aluMulhu (x y : Word) : Word := BitVec.ofNat 32 (x.toNat * y.toNat / 2 ^ 32)

/-- The quotient and remainder of the signed forms (R219). -/
def divSigned (x y : Word) : Int × Int :=
  if y = 0 then (-1, x.toInt)
  else if x.toInt = -2 ^ 31 ∧ y.toInt = -1 then (-2 ^ 31, 0)
  else (x.toInt.tdiv y.toInt, x.toInt - y.toInt * x.toInt.tdiv y.toInt)

/-- The quotient and remainder of the unsigned forms (R219). -/
def divUnsigned (x y : Word) : Nat × Nat := if y = 0 then (2 ^ 32 - 1, x.toNat) else (x.toNat / y.toNat, x.toNat % y.toNat)

/-- Position and length of a bit field (R220). -/
def fieldPos (y : Word) : Nat := bits y 0 5
def fieldLen (y : Word) : Nat := bits y 5 5 + 1

/-- The field of R220, zeros entering above bit 31. -/
def fieldOf (x y : Word) : Nat := x.toNat / 2 ^ fieldPos y % 2 ^ fieldLen y

/-- The mask of a bit field within 32 bits. -/
def fieldMask (y : Word) : Word := BitVec.ofNat 32 ((2 ^ fieldLen y - 1) * 2 ^ fieldPos y)

/-- The insertion of R220. -/
def insertField (old x y : Word) : Word :=
  (old &&& ~~~fieldMask y) ||| (BitVec.ofNat 32 (x.toNat * 2 ^ fieldPos y) &&& fieldMask y)

/-- Leading zeros, counted from bit `n` - 1 downward. -/
def leadingZeros (x : Word) : Nat → Nat
  | 0 => 0
  | n + 1 => if x.getLsbD n then 0 else 1 + leadingZeros x n

/-- Trailing zeros of the low `n` bits, counted upward from bit 32 - n. -/
def trailingZeros (x : Word) : Nat → Nat
  | 0 => 0
  | n + 1 => if x.getLsbD (31 - n) then 0 else 1 + trailingZeros x n

/-- The number of 1 bits among the low `n` (R8). -/
def onesBelow (x : Word) : Nat → Nat
  | 0 => 0
  | n + 1 => (x.getLsbD n).toNat + onesBelow x n

/-- The low `w` bits as a signed number, and as an unsigned one. -/
def signExtend (x : Word) (w : Nat) : Word := wordOf (sextNat x.toNat w)
def zeroExtend (x : Word) (w : Nat) : Word := BitVec.ofNat 32 (x.toNat % 2 ^ w)

/-- The four bytes in reverse order. -/
def byteSwap (x : Word) : Word :=
  BitVec.ofNat 32 (bits x 24 8 + bits x 16 8 * 2 ^ 8 + bits x 8 8 * 2 ^ 16 + bits x 0 8 * 2 ^ 24)

/-- The bits in reverse order. -/
def bitReverse (x : Word) : Word :=
  BitVec.ofNat 32 ((List.range 32).foldl (fun a i => a + (x.getLsbD (31 - i)).toNat * 2 ^ i) 0)

/-- The condition of a signed compare (R221). -/
def condSigned (c : Cond) (x y : Word) : Bool :=
  match c with
  | .eq => x == y
  | .ne => x != y
  | .lt => decide (x.toInt < y.toInt)
  | .le => decide (x.toInt ≤ y.toInt)
  | .gt => decide (y.toInt < x.toInt)
  | .ge => decide (y.toInt ≤ x.toInt)

/-- The condition of an unsigned compare (R221). -/
def condUnsigned (c : Cond) (x y : Word) : Bool :=
  match c with
  | .eq => x == y
  | .ne => x != y
  | .lt => decide (x.toNat < y.toNat)
  | .le => decide (x.toNat ≤ y.toNat)
  | .gt => decide (y.toNat < x.toNat)
  | .ge => decide (y.toNat ≤ x.toNat)

/-! Issue of the two shapes. -/

/-- A scalar operation charged (R364), with a result for its own file. -/
def giveAB (s : State) (u : UnitAB) (d : Fin 32) (lat : Nat) (v : Word) : State :=
  giveScalar (charge s 1 1) (UnitAB.file u) (UnitAB.slot u) lat d.val v

/-- A form of two sources. -/
def binaryAB (i : Instr) (u : UnitAB) (d : Fin 32) (x y : SSrc) (lat : Nat) (f : Word → Word → Word) (s : State) : Outcome :=
  issue i s fun s => giveAB s u d lat (f (srcVal s (UnitAB.file u) x) (srcVal s (UnitAB.file u) y))

/-- A form of one source. -/
def unaryAB (i : Instr) (u : UnitAB) (d : Fin 32) (x : SSrc) (lat : Nat) (f : Word → Word) (s : State) : Outcome :=
  issue i s fun s => giveAB s u d lat (f (srcVal s (UnitAB.file u) x))

/-- A form that writes a predicate pair. -/
def pairAB (i : Instr) (u : UnitAB) (k : Fin 8) (x y : SSrc) (f : Word → Word → Bool) (s : State) : Outcome :=
  issue i s fun s => givePair (charge s 1 1) (UnitAB.slot u) k.val
    (f (srcVal s (UnitAB.file u) x) (srcVal s (UnitAB.file u) y))

/-! The forms (R218). -/

/-- add (R218). -/
def execAdd (u : UnitAB) (g : Guard) (d : Fin 32) (x y : SSrc) (s : State) : Outcome :=
  binaryAB (.add u g d x y) u d x y 1 (fun x y => x + y) s

/-- sub (R218). -/
def execSub (u : UnitAB) (g : Guard) (d : Fin 32) (x y : SSrc) (s : State) : Outcome :=
  binaryAB (.sub u g d x y) u d x y 1 (fun x y => x - y) s

/-- and (R218). -/
def execAnd (u : UnitAB) (g : Guard) (d : Fin 32) (x y : SSrc) (s : State) : Outcome :=
  binaryAB (.and u g d x y) u d x y 1 (fun x y => x &&& y) s

/-- or (R218). -/
def execOr (u : UnitAB) (g : Guard) (d : Fin 32) (x y : SSrc) (s : State) : Outcome :=
  binaryAB (.or u g d x y) u d x y 1 (fun x y => x ||| y) s

/-- xor (R218). -/
def execXor (u : UnitAB) (g : Guard) (d : Fin 32) (x y : SSrc) (s : State) : Outcome :=
  binaryAB (.xor u g d x y) u d x y 1 (fun x y => x ^^^ y) s

/-- andn (R218). -/
def execAndn (u : UnitAB) (g : Guard) (d : Fin 32) (x y : SSrc) (s : State) : Outcome :=
  binaryAB (.andn u g d x y) u d x y 1 (fun x y => x &&& ~~~y) s

/-- sll (R218). -/
def execSll (u : UnitAB) (g : Guard) (d : Fin 32) (x y : SSrc) (s : State) : Outcome :=
  binaryAB (.sll u g d x y) u d x y 1 (fun x y => x <<< amount y) s

/-- srl (R218). -/
def execSrl (u : UnitAB) (g : Guard) (d : Fin 32) (x y : SSrc) (s : State) : Outcome :=
  binaryAB (.srl u g d x y) u d x y 1 (fun x y => x >>> amount y) s

/-- sra (R218). -/
def execSra (u : UnitAB) (g : Guard) (d : Fin 32) (x y : SSrc) (s : State) : Outcome :=
  binaryAB (.sra u g d x y) u d x y 1 (fun x y => wordOf (x.toInt / 2 ^ amount y)) s

/-- rol (R218). -/
def execRol (u : UnitAB) (g : Guard) (d : Fin 32) (x y : SSrc) (s : State) : Outcome :=
  binaryAB (.rol u g d x y) u d x y 1 (fun x y => x.rotateLeft (amount y)) s

/-- min (R218). -/
def execMin (u : UnitAB) (g : Guard) (d : Fin 32) (x y : SSrc) (s : State) : Outcome :=
  binaryAB (.min u g d x y) u d x y 1 (aluMin) s

/-- max (R218). -/
def execMax (u : UnitAB) (g : Guard) (d : Fin 32) (x y : SSrc) (s : State) : Outcome :=
  binaryAB (.max u g d x y) u d x y 1 (aluMax) s

/-- minu (R218). -/
def execMinu (u : UnitAB) (g : Guard) (d : Fin 32) (x y : SSrc) (s : State) : Outcome :=
  binaryAB (.minu u g d x y) u d x y 1 (aluMinu) s

/-- maxu (R218). -/
def execMaxu (u : UnitAB) (g : Guard) (d : Fin 32) (x y : SSrc) (s : State) : Outcome :=
  binaryAB (.maxu u g d x y) u d x y 1 (aluMaxu) s

/-- mul (R218). -/
def execMul (u : UnitAB) (g : Guard) (d : Fin 32) (x y : SSrc) (s : State) : Outcome :=
  binaryAB (.mul u g d x y) u d x y 3 (fun x y => x * y) s

/-- mulh (R218). -/
def execMulh (u : UnitAB) (g : Guard) (d : Fin 32) (x y : SSrc) (s : State) : Outcome :=
  binaryAB (.mulh u g d x y) u d x y 3 (aluMulh) s

/-- mulhu (R218). -/
def execMulhu (u : UnitAB) (g : Guard) (d : Fin 32) (x y : SSrc) (s : State) : Outcome :=
  binaryAB (.mulhu u g d x y) u d x y 3 (aluMulhu) s

/-- div (R219). -/
def execDiv (u : UnitAB) (g : Guard) (d : Fin 32) (x y : SSrc) (s : State) : Outcome :=
  binaryAB (.div u g d x y) u d x y 12 (fun x y => wordOf (divSigned x y).1) s

/-- divu (R219). -/
def execDivu (u : UnitAB) (g : Guard) (d : Fin 32) (x y : SSrc) (s : State) : Outcome :=
  binaryAB (.divu u g d x y) u d x y 12 (fun x y => BitVec.ofNat 32 (divUnsigned x y).1) s

/-- rem (R219). -/
def execRem (u : UnitAB) (g : Guard) (d : Fin 32) (x y : SSrc) (s : State) : Outcome :=
  binaryAB (.rem u g d x y) u d x y 12 (fun x y => wordOf (divSigned x y).2) s

/-- remu (R219). -/
def execRemu (u : UnitAB) (g : Guard) (d : Fin 32) (x y : SSrc) (s : State) : Outcome :=
  binaryAB (.remu u g d x y) u d x y 12 (fun x y => BitVec.ofNat 32 (divUnsigned x y).2) s

/-- bfx (R220). -/
def execBfx (u : UnitAB) (g : Guard) (d : Fin 32) (x y : SSrc) (s : State) : Outcome :=
  binaryAB (.bfx u g d x y) u d x y 1 (fun x y => wordOf (sextNat (fieldOf x y) (fieldLen y))) s

/-- bfxu (R220). -/
def execBfxu (u : UnitAB) (g : Guard) (d : Fin 32) (x y : SSrc) (s : State) : Outcome :=
  binaryAB (.bfxu u g d x y) u d x y 1 (fun x y => BitVec.ofNat 32 (fieldOf x y)) s

/-- li (R218). -/
def execLi (u : UnitAB) (g : Guard) (d : Fin 32) (x : SSrc) (s : State) : Outcome :=
  unaryAB (.li u g d x) u d x 1 (id) s

/-- clz (R218). -/
def execClz (u : UnitAB) (g : Guard) (d : Fin 32) (x : SSrc) (s : State) : Outcome :=
  unaryAB (.clz u g d x) u d x 1 (fun x => BitVec.ofNat 32 (leadingZeros x 32)) s

/-- ctz (R218). -/
def execCtz (u : UnitAB) (g : Guard) (d : Fin 32) (x : SSrc) (s : State) : Outcome :=
  unaryAB (.ctz u g d x) u d x 1 (fun x => BitVec.ofNat 32 (trailingZeros x 32)) s

/-- popc (R218). -/
def execPopc (u : UnitAB) (g : Guard) (d : Fin 32) (x : SSrc) (s : State) : Outcome :=
  unaryAB (.popc u g d x) u d x 1 (fun x => BitVec.ofNat 32 (onesBelow x 32)) s

/-- abs (R218). -/
def execAbs (u : UnitAB) (g : Guard) (d : Fin 32) (x : SSrc) (s : State) : Outcome :=
  unaryAB (.abs u g d x) u d x 1 (fun x => wordOf x.toInt.natAbs) s

/-- bswap (R218). -/
def execBswap (u : UnitAB) (g : Guard) (d : Fin 32) (x : SSrc) (s : State) : Outcome :=
  unaryAB (.bswap u g d x) u d x 1 (byteSwap) s

/-- brev (R218). -/
def execBrev (u : UnitAB) (g : Guard) (d : Fin 32) (x : SSrc) (s : State) : Outcome :=
  unaryAB (.brev u g d x) u d x 1 (bitReverse) s

/-- bfi: register D is read at issue as a third source, and reads zero as a0 or b0 (R220). -/
def execBfi (u : UnitAB) (g : Guard) (d : Fin 32) (x y : SSrc) (s : State) : Outcome :=
  issue (.bfi u g d x y) s fun s =>
    let old := readReg (curTask s) (UnitAB.file u) d.val
    giveAB s u d 1 (insertField old (srcVal s (UnitAB.file u) x) (srcVal s (UnitAB.file u) y))

/-- sel: x when pn reads 1 at issue, else y (R218). -/
def execSel (u : UnitAB) (g : Guard) (d : Fin 32) (n : Fin 16) (x y : SSrc) (s : State) : Outcome :=
  issue (.sel u g d n x y) s fun s =>
    giveAB s u d 1 (if readPred (curTask s) n.val then srcVal s (UnitAB.file u) x else srcVal s (UnitAB.file u) y)

/-- cmp (R221). -/
def execCmp (u : UnitAB) (g : Guard) (k : Fin 8) (c : Cond) (x y : SSrc) (s : State) : Outcome :=
  pairAB (.cmp u g k c x y) u k x y (condSigned c) s

/-- cmpu (R221). -/
def execCmpu (u : UnitAB) (g : Guard) (k : Fin 8) (c : Cond) (x y : SSrc) (s : State) : Outcome :=
  pairAB (.cmpu u g k c x y) u k x y (condUnsigned c) s

/-- lea (R218). -/
def execLea (u : UnitAB) (g : Guard) (d : Fin 32) (x y : SSrc) (sh : Fin 16) (s : State) : Outcome :=
  binaryAB (.lea u g d x y sh) u d x y 1 (fun x y => x + y <<< sh.val) s

/-- The A- or B-slot xmov: its result enters no latch stack (R150, R222). -/
def execXmovAB (u : UnitAB) (g : Guard) (fl : File) (d : Fin 32) (x : SSrc) (s : State) : Outcome :=
  issue (.xmovAB u g fl d x) s fun s =>
    giveXmov (charge s 1 1) (UnitAB.slot u) fl d.val (srcVal s (UnitAB.file u) x)

/-- xmovp.get: the mask of the scalar predicates (R223). -/
def execXmovpGet (u : UnitAB) (g : Guard) (d : Fin 32) (s : State) : Outcome :=
  issue (.xmovpGet u g d) s fun s =>
    giveOnly (charge s 1 1) (UnitAB.slot u) 2
      (regDest (UnitAB.file u) d.val (BitVec.ofNat 32 (predMask (curTask s))))

/-- xmovp.set: a pair from x[0] (R223). -/
def execXmovpSet (u : UnitAB) (g : Guard) (k : Fin 8) (x : SSrc) (s : State) : Outcome :=
  issue (.xmovpSet u g k x) s fun s =>
    givePair (charge s 1 1) (UnitAB.slot u) k.val ((srcVal s (UnitAB.file u) x).getLsbD 0)

/-- sxt (R218). -/
def execSxt (u : UnitAB) (g : Guard) (d : Fin 32) (x : SSrc) (w1 : Fin 16) (s : State) : Outcome :=
  unaryAB (.sxt u g d x w1) u d x 1 (fun x => signExtend x (w1.val + 1)) s

/-- zxt (R218). -/
def execZxt (u : UnitAB) (g : Guard) (d : Fin 32) (x : SSrc) (w1 : Fin 16) (s : State) : Outcome :=
  unaryAB (.zxt u g d x w1) u d x 1 (fun x => zeroExtend x (w1.val + 1)) s

end Sys2Proof.Machine
end

