-- ==== Sys2Proof/Machine/Lichen.lean ====
section
/-! DEFINITION. A cycle of a core's lichen context: the operations it may hold, the view it runs on, and its place among the
boundaries of a group (R34 to R36, R342, R362, R363). -/

namespace Sys2Proof.Machine

open Sys2Proof

/-- The operations a lichen bundle may hold, and the header's effects; no other form reaches this point (R35). -/
def lichenOp : Meaning := fun i s =>
  match i with
  | .jmp g disp => execJmp g disp s
  | .jmpl g target => execJmpl g target s
  | .jr g r => execJr g r s
  | .call g disp => execCall g disp s
  | .calll g target => execCalll g target s
  | .ret g => execRet g s
  | .mbr g shape q0 q1 q2 q3 t0 t1 t2 t3 => execMbr g shape q0 q1 q2 q3 t0 t1 t2 t3 s
  | .loop g c exit => execLoop g c exit s
  | .loopi g exit count => execLoopi g exit count s
  | .lexit g => execLexit g s
  | .drain g => execDrain g s
  | .trap g code => execTrap g code s
  | .csrr g d csr => execCsrr g d csr s
  | .csrw g r csr => execCsrw g r csr s
  | .csrwValue g csr value => execCsrwValue g csr value s
  | .seal g => execSeal g s
  | .lshare g share => execLshare g share s
  | .brk g code => execBrk g code s
  | .xmovC g r fl d => execXmovC g r fl d s
  | .kli g d imm => execKli g d imm s
  | .kliLong g d value => execKliLong g d value s
  | .add u g d x y => execAdd u g d x y s
  | .sub u g d x y => execSub u g d x y s
  | .and u g d x y => execAnd u g d x y s
  | .or u g d x y => execOr u g d x y s
  | .xor u g d x y => execXor u g d x y s
  | .andn u g d x y => execAndn u g d x y s
  | .sll u g d x y => execSll u g d x y s
  | .srl u g d x y => execSrl u g d x y s
  | .sra u g d x y => execSra u g d x y s
  | .rol u g d x y => execRol u g d x y s
  | .min u g d x y => execMin u g d x y s
  | .max u g d x y => execMax u g d x y s
  | .minu u g d x y => execMinu u g d x y s
  | .maxu u g d x y => execMaxu u g d x y s
  | .mul u g d x y => execMul u g d x y s
  | .mulh u g d x y => execMulh u g d x y s
  | .mulhu u g d x y => execMulhu u g d x y s
  | .div u g d x y => execDiv u g d x y s
  | .divu u g d x y => execDivu u g d x y s
  | .rem u g d x y => execRem u g d x y s
  | .remu u g d x y => execRemu u g d x y s
  | .li u g d x => execLi u g d x s
  | .bfx u g d x y => execBfx u g d x y s
  | .bfxu u g d x y => execBfxu u g d x y s
  | .bfi u g d x y => execBfi u g d x y s
  | .clz u g d x => execClz u g d x s
  | .ctz u g d x => execCtz u g d x s
  | .popc u g d x => execPopc u g d x s
  | .sel u g d n x y => execSel u g d n x y s
  | .cmp u g k c x y => execCmp u g k c x y s
  | .lea u g d x y sh => execLea u g d x y sh s
  | .xmovAB u g fl d x => execXmovAB u g fl d x s
  | .xmovpGet u g d => execXmovpGet u g d s
  | .xmovpSet u g k x => execXmovpSet u g k x s
  | .sxt u g d x w1 => execSxt u g d x w1 s
  | .zxt u g d x w1 => execZxt u g d x w1 s
  | .abs u g d x => execAbs u g d x s
  | .bswap u g d x => execBswap u g d x s
  | .brev u g d x => execBrev u g d x s
  | .cmpu u g k c x y => execCmpu u g k c x y s
  | .ldb g fl d x y => execLdb g fl d x y s
  | .ldbu g fl d x y => execLdbu g fl d x y s
  | .ldh g fl d x y => execLdh g fl d x y s
  | .ldhu g fl d x y => execLdhu g fl d x y s
  | .ldw g fl d x y => execLdw g fl d x y s
  | .stb g fl d x y => execStb g fl d x y s
  | .sth g fl d x y => execSth g fl d x y s
  | .stw g fl d x y => execStw g fl d x y s
  | .rld g fl d x y => execRld g fl d x y s
  | .rst g fl d x y => execRst g fl d x y s
  | .qst g q x y => execQst g q x y s
  | .gld g d x y len4 bar => execGld g d x y len4 bar s
  | .gst g d x y len4 bar => execGst g d x y len4 bar s
  | .gatom g d x y aop w64 bar => execGatom g d x y aop w64 bar s
  | .mli g d y => execMli g d y s
  | .madd g d x y => execMadd g d x y s
  | .xmovM g fl d x => execXmovM g fl d x s
  | .irst g fl d x y bar => execIrst g fl d x y bar s
  | .pld g vp x y => execPld g vp x y s
  | .pst g vp x y => execPst g vp x y s
  | .cpy g slot x y nb rel acq => execCpy g slot x y nb rel acq s
  | .cpy2d g slot x y nb rel acq => execCpy2d g slot x y nb rel acq s
  | .cpyt g slot x y nb rel acq => execCpyt g slot x y nb rel acq s
  | .cpyg g slot x y nb rel acq => execCpyg g slot x y nb rel acq s
  | .cpys g slot x y nb rel acq => execCpys g slot x y nb rel acq s
  | .strm g slot x y nb rel acq => execStrm g slot x y nb rel acq s
  | .strmx g slot x y nb rel acq => execStrmx g slot x y nb rel acq s
  | .cpyx g slot x y nb rel acq => execCpyx g slot x y nb rel acq s
  | .mcast g slot x y nb rel acq => execMcast g slot x y nb rel acq s
  | .rot g x y cnt dir len1 bar => execRot g x y cnt dir len1 bar s
  | .binit g x y scope => execBinit g x y scope s
  | .bidle g x => execBidle g x s
  | .barv g x y => execBarv g x y s
  | .qpush g x y q => execQpush g x y q s
  | .tsort g slot x y nb rel acq => execTsort g slot x y nb rel acq s
  | .fli g d x => execFli g d x s
  | .fadd g d x y => execFadd g d x y s
  | .fsub g d x y => execFsub g d x y s
  | .fsll g d x y => execFsll g d x y s
  | .xmovF g fl d x => execXmovF g fl d x s
  | .cpstat g d x => execCpstat g d x s
  | .cpfill g slot x y nb rel acq => execCpfill g slot x y nb rel acq s
  | .sqcfg g slot x y nb rel acq => execSqcfg g slot x y nb rel acq s
  | .sqbind g slot x y nb rel acq => execSqbind g slot x y nb rel acq s
  | .sqstage g slot x y nb rel acq => execSqstage g slot x y nb rel acq s
  | .sqtake g slot x y nb rel acq => execSqtake g slot x y nb rel acq s
  | .sqjudge g slot y nb rel acq => execSqjudge g slot y nb rel acq s
  | .sqstat g slot x y nb rel acq => execSqstat g slot x y nb rel acq s
  | .idleBundle => execIdleBundle s
  | .loopEndMark => execLoopEndMark s
  | .segmentMark => execSegmentMark s
  | .queuePop mask => execQueuePop mask s
  | _ => .next s

/-! The view (R34). -/

/-- A list of a lichen file as the task file of the same name. -/
def padTo (n : Nat) (l : List Word) : List Word := (l ++ List.replicate n 0).take n

/-- The lichen context seen as a context: its files are the low registers, and it keeps no other state of a task; what orders the
accesses of the core is the task context's too (R117, R118, R122, R123). The scalar predicates of its guards are its own, and a
bundle of its finds its latch stacks empty (DESIGN CHOICE, unsafe: log entry 73). -/
def Lichen.view (l : Lichen) (t : Task) : Task :=
  { Task.initial with
    remotes := t.remotes, fences := t.fences, hidden := t.hidden, veiled := t.veiled,
    a := padTo 32 l.a, b := padTo 32 l.b, k := padTo 16 l.k, m := padTo 32 l.m, f := padTo 16 l.f,
    preds := l.preds, energy := l.energy, timeCapture := l.timeCapture, energyCapture := l.energyCapture,
    pend := l.pend, order := l.order }

/-- The lichen context after a cycle on its view. -/
def Lichen.unview (l : Lichen) (t : Task) : Lichen :=
  { l with
    a := t.a.take 8, b := t.b.take 8, k := t.k.take 4, m := t.m.take 8, f := t.f.take 4, preds := t.preds,
    energy := t.energy, timeCapture := t.timeCapture, energyCapture := t.energyCapture,
    pend := t.pend, order := t.order, cycle := l.cycle + 1, asked := false }

/-- The cursor of a lichen bundle. -/
def lichenCursor (core cycle : Nat) (b : Bundle) : Cursor :=
  { Cursor.initial with
    core := core, seq := BitVec.ofNat 32 b.len, scope := b.header.scope.val, pop := b.header.pop, cycle := cycle,
    lichen := true, marked := b.header.loopEnd }

/-- The state in which the lichen context of a core stands in the place of its task context, its due results delivered. -/
def enterLichen (s : State) (core : Nat) : State :=
  modCore s core fun c =>
    let l := c.lichen
    Core.deliver { c with task := l.view c.task } l.cycle l.pend.length

/-- A result for a register that belongs to the core: LSHARE, or EWEIGHT (R205, R213). -/
def Pending.forCore (p : Pending) : Bool :=
  p.dsts.any fun d => match d with
    | .csr n _ => decide (n = 0x033) || decide (0x040 ≤ n ∧ n ≤ 0x04F)
    | _ => false

/-- The core's own registers take the values that its lichen context has written, for the next cycle (R205, R213). -/
def Core.takeOwn (c : Core) : Core :=
  (c.task.pend.filter Pending.forCore).foldl (fun c p => p.dsts.foldl (fun c d => match d with
    | .csr n v => c.setCsr n v
    | _ => c) c) { c with task := { c.task with pend := c.task.pend.filter fun p => !p.forCore } }

/-- The task context back in its place, and what its lichen context has become: the remote accesses of the bundle perform, for
which it has had the banks (`askLichen`), and what orders the core's accesses stays with the core. -/
def leaveLichen (s : State) (core : Nat) (task : Task) : State :=
  let own := (taskOf s core).remotes.drop task.remotes.length
  let s := own.foldl (fun s r => remoteEffect s core r) s
  modCore s core fun c =>
    let c := c.takeOwn
    { c with lichen := c.lichen.unview c.task,
             task := { task with fences := c.task.fences, hidden := c.task.hidden, veiled := c.task.veiled } }

/-! Boundaries (R35, R36, R342). -/

/-- The lichen issue cycles a group allows in 64 boundaries: the largest share of its members, where zero on a cluster
leader is one (R36, R342). -/
def groupShare (s : State) (g : Group) : Nat :=
  (g.all.map fun id =>
    let n := (coreOf s id).lshare
    if n = 0 ∧ memberOf id = 0 then 1 else n).foldl max 0

/-- A group lets a core's lichen context issue at its boundary: with the others in the cycle that the group takes already, or
in a new one (R35, R36). -/
def lichenMayIssue (s : State) (g : Group) (core : Nat) : Bool :=
  if g.lichenHold then !g.lichenCores.contains core
  else decide (g.boundaries.sum < groupShare s g)

/-- The lichen cycle as a late event of the group at this boundary (R32, R35, R36). -/
def noteLichen (s : State) (g : Group) (core : Nat) : State :=
  modGroup s g.gid fun g => { g with
    lichenHold := true, lichenCores := core :: g.lichenCores,
    boundaries := if g.lichenHold then g.boundaries else (g.boundaries.headD 0 + 1) :: g.boundaries.tail }

/-! Banks and frames (R85, R135, R426). -/

/-- The banks of near layers that the M slot of a lichen bundle names, with their cores (R84, R85). -/
def lichenBanks (s : State) (ops : List (Slot × Instr)) : List (Nat × Nat) :=
  ops.flatMap fun (_, i) => if !guarded s i then [] else match i with
    | .rld _ _ _ x y | .rst _ _ _ x y =>
      let a := sumAddr s x y
      [(memberCore (clusterOf s.cur.core) (field a 18 6), field a 13 5)]
    | _ => (nearBanks s i).map fun b => (s.cur.core, b)

/-- The columns whose near layers a lichen bundle accesses as remote ones. -/
def lichenTargets (s : State) (ops : List (Slot × Instr)) : List Nat :=
  ops.flatMap fun (_, i) => if !guarded s i then [] else match i with
    | .rld _ _ _ x y | .rst _ _ _ x y => [memberCore (clusterOf s.cur.core) (field (sumAddr s x y) 18 6)]
    | _ => []

/-- A lichen bundle waits for the remote accesses of its core's task: to a column that both access (R118), and to all of them at a
scope above 0 (R122); and its remote accesses wait for the core's `drain` (R124). -/
def lichenOrder (s : State) (core scope : Nat) (targets : List Nat) : Bool :=
  let rs := (taskOf s core).remotes
  rs.any (fun r => targets.contains r.target) || (scope != 0 && !rs.isEmpty) || (!targets.isEmpty && drainPending s core)

/-- A bank serves another in this cycle: an M slot has used it, or a request stands there. -/
def bankTaken (s : State) (b : Nat × Nat) : Bool :=
  s.bankUsed.contains b || s.bankReqs.any fun r => r.core == b.1 && r.layer == 2 && r.bank == b.2

/-- The requests of a lichen bundle, class lichen (R85). -/
def askLichen (s : State) (core : Nat) (bs : List (Nat × Nat)) : State :=
  modCore { s with bankReqs := s.bankReqs ++ bs.map fun b => ⟨b.1, 2, b.2, 10, core, 0⟩ } core fun c =>
    { c with lichen := { c.lichen with asked := true } }

/-- A frame in pieces of up to 64 bytes; `fuel` bounds their number. -/
def framePieces : Nat → List Byte → List (List Byte)
  | 0, _ => []
  | n + 1, bs => if bs.isEmpty then [] else bs.take 64 :: framePieces n (bs.drop 64)

/-- The held writes of frames that firmware hands to the Ethernet ports (R135, R426; log entry 68). -/
def frameWrites (frames : List (Fin 4 × List Byte)) : List HeldWrite :=
  frames.flatMap fun (p, bs) => (framePieces bs.length bs).map (HeldWrite.send p.val)

/-- The frames enter the egress buffer of the core's die (R135, R380). -/
def sendFrames (s : State) (core : Nat) (frames : List (Fin 4 × List Byte)) : State :=
  (frameWrites frames).foldl (fun s w => egressAdd s (dieOf core) ⟨core, s.pkg.intnum, none, none, w⟩) s

/-! The cycle (R35, R362). -/

/-- The bundle of a lichen cycle acts; or it meets a trap cause, or poisoned data that fall due, which its fault service has; or it
waits for an engine, for banks, or for egress entries. -/
def runLichen (s : State) (core : Nat) (b : Bundle) (frames : List (Fin 4 × List Byte)) : State :=
  let task := taskOf s core
  let l := (coreOf s core).lichen
  let view := enterLichen s core
  let cur := { view with cur := lichenCursor core l.cycle b }
  let v := judgeBundle lichenOp cur b
  let slots := b.ops.any fun o => o.1 == .v || o.1 == .w || o.1 == .x || o.1 == .n
  let banks := lichenBanks cur b.ops
  let bad (p : Pending) : Bool := decide (p.due ≤ l.cycle) && p.poisoned
  if l.pend.any bad then
    lichenFault (modCore s core fun c => { c with lichen := { c.lichen with pend := c.lichen.pend.filter fun p => !bad p } }) core
  else if v.stop.isSome || slots then lichenFault s core
  else if !frames.isEmpty && decide (8192 < (die s (dieOf core)).egress.length + (frameWrites frames).length) then s
  else match v.hold, v.lane with
    | none, some lane =>
      if lichenOrder s core b.header.scope.val (lichenTargets cur b.ops) then s
      else if l.asked && requestsStand s 10 core then s
      else if !l.asked && banks.any (bankTaken s) then askLichen s core banks
      else
        let s := modCore view core fun c => { c with lichen := { c.lichen with inFault := false } }
        let s := { s with bankUsed := s.bankUsed ++ banks }
        let (t, _) := issueLanes lichenOp s [lane]
        let t := sendFrames (leaveLichen t core task) core frames
        match groupOn t core with
        | some g => noteLichen t g core
        | none => t
    | _, _ => s

/-- LICHEN_CYCLE: the lichen context of a core issues a bundle of the firmware at a boundary of its task context, where the results
due are written (R31, R213), and the frames that firmware sends leave (R35, R36, R362, R426). -/
def execLichenCycle (core : Nat) (work : LichenWork) (s : State) : Outcome :=
  let s := match groupOn s core with
    | some g => deliverGroup s g
    | none => s
  let free := match groupOn s core with
    | some g => lichenMayIssue s g core
    | none => true
  if free then
    match decodeBundle (work.words.map BitVec.toNat) with
    | .ok b => .next (runLichen s core b work.frames)
    | .error _ => .next (lichenFault s core)
  else .next s

end Sys2Proof.Machine
end

