-- ==== Sys2Proof/Machine/Vector.lean ====
section
/-! DEFINITION. The V and W slots: element-wise arithmetic, special functions, conversion, compares and predicates, lane
movement, reductions, block packing, and the copies out of the vector files (R260 to R286). -/

namespace Sys2Proof.Machine

open Sys2Proof

/-! Shared forms. -/

/-- A vector operation: charged per active lane, its lanes computed at issue, delivered after its latency (R268, R364). -/
def vectorOp (i : Instr) (u : UnitVW) (lp : Fin 16) (cls lat : Nat) (d : VDst) (f : State → List (Word × Nat)) (s : State) :
    Outcome :=
  issue i s fun s =>
    let act := lanesOf s lp
    giveLanes (charge s cls (laneCount act)) u lat d act (f s)

/-- An element operation of one source on every lane. -/
def unaryLanes (s : State) (u : UnitVW) (ef : Format) (a : VSrc) (op : Env → Nat → Nat × Nat) : List (Word × Nat) :=
  (srcLanes s u a).map (mapElems ef (op (envOf s)))

/-- An element operation of two sources on every lane. -/
def binaryLanes (s : State) (u : UnitVW) (ef : Format) (a b : VSrc) (op : Env → Nat → Nat → Nat × Nat) : List (Word × Nat) :=
  ((srcLanes s u a).zip (srcLanes s u b)).map fun (x, y) => zipElems ef (op (envOf s)) x y

/-- An element operation of two sources and the destination on every lane (R267). -/
def ternaryLanes (s : State) (u : UnitVW) (ef : Format) (a b : VSrc) (d : Fin 28) (op : Env → Nat → Nat → Nat → Nat × Nat) :
    List (Word × Nat) :=
  ((srcLanes s u a).zip ((srcLanes s u b).zip (readLanes (curTask s) u d.val))).map
    fun (x, y, z) => zipElems3 ef (op (envOf s)) x y z

/-- Lanes that raise no flag. -/
def plainLanes (l : Lanes) : List (Word × Nat) := l.map fun w => (w, 0)

/-! Element-wise arithmetic (R266 to R270). -/

/-- vadd: a + b (R267). -/
def execVadd (u : UnitVW) (lp : Fin 16) (ef : Format) (d : VDst) (a b : VSrc) (s : State) : Outcome :=
  vectorOp (.vadd u lp ef d a b) u lp 2 2 d (fun s => binaryLanes s u ef a b (elemBin .add ef)) s

/-- vsub: a − b (R267). -/
def execVsub (u : UnitVW) (lp : Fin 16) (ef : Format) (d : VDst) (a b : VSrc) (s : State) : Outcome :=
  vectorOp (.vsub u lp ef d a b) u lp 2 2 d (fun s => binaryLanes s u ef a b (elemBin .sub ef)) s

/-- vmul: a × b (R267). -/
def execVmul (u : UnitVW) (lp : Fin 16) (ef : Format) (d : VDst) (a b : VSrc) (s : State) : Outcome :=
  vectorOp (.vmul u lp ef d a b) u lp 2 2 d (fun s => binaryLanes s u ef a b (elemBin .mul ef)) s

/-- vmin: the smaller (R267). -/
def execVmin (u : UnitVW) (lp : Fin 16) (ef : Format) (d : VDst) (a b : VSrc) (s : State) : Outcome :=
  vectorOp (.vmin u lp ef d a b) u lp 2 2 d (fun s => binaryLanes s u ef a b (elemBin .min ef)) s

/-- vmax: the larger (R267). -/
def execVmax (u : UnitVW) (lp : Fin 16) (ef : Format) (d : VDst) (a b : VSrc) (s : State) : Outcome :=
  vectorOp (.vmax u lp ef d a b) u lp 2 2 d (fun s => binaryLanes s u ef a b (elemBin .max ef)) s

/-- vdiv: a / b (R269). -/
def execVdiv (u : UnitVW) (lp : Fin 16) (ef : Format) (d : VDst) (a b : VSrc) (s : State) : Outcome :=
  vectorOp (.vdiv u lp ef d a b) u lp 2 8 d (fun s => binaryLanes s u ef a b (elemBin .div ef)) s

/-- vfma: a × b + c, rounded once (R267). -/
def execVfma (u : UnitVW) (lp : Fin 16) (ef : Format) (d : Fin 28) (a b : VSrc) (s : State) : Outcome :=
  vectorOp (.vfma u lp ef d a b) u lp 2 4 (.reg d) (fun s => ternaryLanes s u ef a b d (elemFma false false ef)) s

/-- vfms: a × b − c, rounded once (R267). -/
def execVfms (u : UnitVW) (lp : Fin 16) (ef : Format) (d : Fin 28) (a b : VSrc) (s : State) : Outcome :=
  vectorOp (.vfms u lp ef d a b) u lp 2 4 (.reg d) (fun s => ternaryLanes s u ef a b d (elemFma false true ef)) s

/-- vfnma: c − a × b, rounded once (R267). -/
def execVfnma (u : UnitVW) (lp : Fin 16) (ef : Format) (d : Fin 28) (a b : VSrc) (s : State) : Outcome :=
  vectorOp (.vfnma u lp ef d a b) u lp 2 4 (.reg d) (fun s => ternaryLanes s u ef a b d (elemFma true false ef)) s

/-- vclamp: min(max(c, a), b) (R267). -/
def execVclamp (u : UnitVW) (lp : Fin 16) (ef : Format) (d : Fin 28) (a b : VSrc) (s : State) : Outcome :=
  vectorOp (.vclamp u lp ef d a b) u lp 2 2 (.reg d) (fun s => ternaryLanes s u ef a b d (elemClamp ef)) s

/-- vscl: a × 2 to the signed integer b (R267). -/
def execVscl (u : UnitVW) (lp : Fin 16) (ef : Format) (d : VDst) (a b : VSrc) (s : State) : Outcome :=
  vectorOp (.vscl u lp ef d a b) u lp 2 2 d (fun s => binaryLanes s u ef a b (floatScale ef)) s

/-- vsgnj: a with the sign of b (R270). -/
def execVsgnj (u : UnitVW) (lp : Fin 16) (ef : Format) (d : VDst) (a b : VSrc) (s : State) : Outcome :=
  vectorOp (.vsgnj u lp ef d a b) u lp 2 2 d (fun s => binaryLanes s u ef a b fun _ => elemSgnj ef) s

/-- vabs: |a| (R270). -/
def execVabs (u : UnitVW) (lp : Fin 16) (ef : Format) (d : VDst) (a : VSrc) (s : State) : Outcome :=
  vectorOp (.vabs u lp ef d a) u lp 2 2 d (fun s => unaryLanes s u ef a fun _ => elemAbs ef) s

/-- vneg: −a (R270). -/
def execVneg (u : UnitVW) (lp : Fin 16) (ef : Format) (d : VDst) (a : VSrc) (s : State) : Outcome :=
  vectorOp (.vneg u lp ef d a) u lp 2 2 d (fun s => unaryLanes s u ef a fun _ => elemNeg ef) s

/-- vrcp: 1 / a (R267, R269). -/
def execVrcp (u : UnitVW) (lp : Fin 16) (ef : Format) (d : VDst) (a : VSrc) (s : State) : Outcome :=
  vectorOp (.vrcp u lp ef d a) u lp 2 8 d (fun s => unaryLanes s u ef a (floatRcp ef)) s

/-- vsqrt: √a (R267). -/
def execVsqrt (u : UnitVW) (lp : Fin 16) (ef : Format) (d : VDst) (a : VSrc) (s : State) : Outcome :=
  vectorOp (.vsqrt u lp ef d a) u lp 2 8 d (fun s => unaryLanes s u ef a (floatSqrt ef)) s

/-- vround: integral values under FMT.RM (R272). -/
def execVround (u : UnitVW) (lp : Fin 16) (ef : Format) (d : VDst) (a : VSrc) (s : State) : Outcome :=
  vectorOp (.vround u lp ef d a) u lp 2 3 d (fun s => unaryLanes s u ef a (fun env => floatIntegral ef env env.mode)) s

/-- vtrunc: integral values toward zero (R272). -/
def execVtrunc (u : UnitVW) (lp : Fin 16) (ef : Format) (d : VDst) (a : VSrc) (s : State) : Outcome :=
  vectorOp (.vtrunc u lp ef d a) u lp 2 3 d (fun s => unaryLanes s u ef a (fun env => floatIntegral ef env .rtz)) s

/-- The shift amount of an element: b mod w (R267). -/
def shiftBy (ef : Format) (b : Nat) : Nat := b % ef.width

/-- vand: a AND b (R267). -/
def execVand (u : UnitVW) (lp : Fin 16) (ef : Format) (d : VDst) (a b : VSrc) (s : State) : Outcome :=
  vectorOp (.vand u lp ef d a b) u lp 2 2 d (fun s => binaryLanes s u ef a b (fun _ x y => (Nat.land x y, 0))) s

/-- vor: a OR b (R267). -/
def execVor (u : UnitVW) (lp : Fin 16) (ef : Format) (d : VDst) (a b : VSrc) (s : State) : Outcome :=
  vectorOp (.vor u lp ef d a b) u lp 2 2 d (fun s => binaryLanes s u ef a b (fun _ x y => (Nat.lor x y, 0))) s

/-- vxor: a XOR b (R267). -/
def execVxor (u : UnitVW) (lp : Fin 16) (ef : Format) (d : VDst) (a b : VSrc) (s : State) : Outcome :=
  vectorOp (.vxor u lp ef d a b) u lp 2 2 d (fun s => binaryLanes s u ef a b (fun _ x y => (Nat.xor x y, 0))) s

/-- vshl: a shifted left (R267). -/
def execVshl (u : UnitVW) (lp : Fin 16) (ef : Format) (d : VDst) (a b : VSrc) (s : State) : Outcome :=
  vectorOp (.vshl u lp ef d a b) u lp 2 2 d (fun s => binaryLanes s u ef a b (fun _ x y => (x * 2 ^ shiftBy ef y % 2 ^ ef.width, 0))) s

/-- vshr: a shifted right, zeros entering (R267). -/
def execVshr (u : UnitVW) (lp : Fin 16) (ef : Format) (d : VDst) (a b : VSrc) (s : State) : Outcome :=
  vectorOp (.vshr u lp ef d a b) u lp 2 2 d (fun s => binaryLanes s u ef a b (fun _ x y => (x / 2 ^ shiftBy ef y, 0))) s

/-- vsra: a shifted right, copies of its top bit entering (R267). -/
def execVsra (u : UnitVW) (lp : Fin 16) (ef : Format) (d : VDst) (a b : VSrc) (s : State) : Outcome :=
  vectorOp (.vsra u lp ef d a b) u lp 2 2 d (fun s => binaryLanes s u ef a b (fun _ x y => (patternOf ef.width (sextNat x ef.width / 2 ^ shiftBy ef y), 0))) s

/-! Special functions (R271). -/

/-- vrsqrt: 1 / √a (R271). -/
def execVrsqrt (u : UnitVW) (lp : Fin 16) (d : VDst) (a : VSrc) (s : State) : Outcome :=
  vectorOp (.vrsqrt u lp d a) u lp 3 8 d (fun s => unaryLanes s u .fp32 a floatRsqrt) s

/-- vexp2: 2 to the a (R271). -/
def execVexp2 (u : UnitVW) (lp : Fin 16) (d : VDst) (a : VSrc) (s : State) : Outcome :=
  vectorOp (.vexp2 u lp d a) u lp 3 6 d (fun s => unaryLanes s u .fp32 a floatExp2) s

/-- vlog2: log2 a (R271). -/
def execVlog2 (u : UnitVW) (lp : Fin 16) (d : VDst) (a : VSrc) (s : State) : Outcome :=
  vectorOp (.vlog2 u lp d a) u lp 3 6 d (fun s => unaryLanes s u .fp32 a floatLog2) s

/-- vsin: sine (R271). -/
def execVsin (u : UnitVW) (lp : Fin 16) (d : VDst) (a : VSrc) (s : State) : Outcome :=
  vectorOp (.vsin u lp d a) u lp 3 10 d (fun s => unaryLanes s u .fp32 a floatSin) s

/-- vcos: cosine (R271). -/
def execVcos (u : UnitVW) (lp : Fin 16) (d : VDst) (a : VSrc) (s : State) : Outcome :=
  vectorOp (.vcos u lp d a) u lp 3 10 d (fun s => unaryLanes s u .fp32 a floatCos) s

/-- vtanh: hyperbolic tangent (R271). -/
def execVtanh (u : UnitVW) (lp : Fin 16) (d : VDst) (a : VSrc) (s : State) : Outcome :=
  vectorOp (.vtanh u lp d a) u lp 3 10 d (fun s => unaryLanes s u .fp32 a floatTanh) s

/-- vsigm: 1 / (1 + e to the −a) (R271). -/
def execVsigm (u : UnitVW) (lp : Fin 16) (d : VDst) (a : VSrc) (s : State) : Outcome :=
  vectorOp (.vsigm u lp d a) u lp 3 10 d (fun s => unaryLanes s u .fp32 a floatSigm) s

/-! Conversion (R273). -/

/-- A lane of a conversion: narrowing fills part H of the lane held; widening takes part H of the source (R273). -/
def convertLane (ef sf : Format) (env : Env) (h : Nat) (held a : Word) : Word × Nat :=
  let ns := sf.perLane
  let nd := ef.perLane
  let src := elemsOf sf a
  if ns < nd then
    let rs := src.map (convertElem ef sf env)
    let old := elemsOf ef held
    (ofElems ef (tabulate nd fun i => if h * ns ≤ i ∧ i < h * ns + ns then (rs.getD (i - h * ns) (0, 0)).1 else old.getD i 0),
      joinFlags (rs.map Prod.snd))
  else
    let rs := ((src.drop (h * nd)).take nd).map (convertElem ef sf env)
    (ofElems ef (rs.map Prod.fst), joinFlags (rs.map Prod.snd))

/-- vcvt (R273). -/
def execVcvt (u : UnitVW) (lp : Fin 16) (ef sf : Format) (d : VDst) (a : VSrc) (h : Fin 4) (s : State) : Outcome :=
  vectorOp (.vcvt u lp ef sf d a h) u lp 2 3 d
    (fun s => ((heldLanes s u d).zip (srcLanes s u a)).map fun (o, x) => convertLane ef sf (envOf s) h.val o x) s

/-! Compares (R274). -/

/-- The relations of the compares. -/
inductive Relation where
  | eq | ne | lt | le | gt | ge
deriving DecidableEq, Repr

/-- A relation from "less" and "equal". -/
def Relation.holds (r : Relation) (less equal : Bool) : Bool :=
  match r with
  | .eq => equal
  | .ne => !equal
  | .lt => less
  | .le => less || equal
  | .gt => !(less || equal)
  | .ge => !less

/-- The relation is an ordering, which a quiet NaN makes invalid (R274). -/
def Relation.ordering : Relation → Bool
  | .eq | .ne => false
  | .lt | .le | .gt | .ge => true

/-- One lane compared: the condition, the witness, the flags (R274). -/
def compareLane (r : Relation) (ef : Format) (env : Env) (a b : Word) : Bool × Bool × Nat :=
  if isAbsent ef a.toNat || isAbsent ef b.toNat then (false, true, 0)
  else if ef.isFloat then
    let x := decodeFloat ef env.fz a.toNat
    let y := decodeFloat ef env.fz b.toNat
    match firstNaN [x, y] with
    | some _ => (decide (r = .ne), false, if Relation.ordering r then flagNV else signalling [x, y])
    | none => (Relation.holds r (ltVal x y) (eqVal x y), false, 0)
  else if ef.isInt then (Relation.holds r (decide (a.toInt < b.toInt)) (a == b), false, 0)
  else (Relation.holds r (decide (a.toNat < b.toNat)) (a == b), false, 0)

/-- A compare: the pair, and the witness where one is named (R274). -/
def compareOp (i : Instr) (r : Relation) (u : UnitVW) (lp : Fin 16) (ef : Format) (k : Fin 8) (a b : VSrc)
    (wit : Option (Fin 16)) (s : State) : Outcome :=
  issue i s fun s =>
    let act := lanesOf s lp
    let rs := ((srcLanes s u a).zip (srcLanes s u b)).map fun (x, y) => compareLane r ef (envOf s) x y
    let c := maskOf fun l => (rs.getD l (false, false, 0)).1
    let m := maskOf fun l => (rs.getD l (false, false, 0)).2.1
    let fl := activeFlags act (rs.map fun r => ((0 : Word), r.2.2))
    let w : List Dest := match wit with
      | some r => if r.val < 2 then [] else [.vsingle r.val m act]
      | none => []
    issueResult (charge s 2 (laneCount act)) 2 (UnitVW.slot u) none
      (.vpair k.val (some c) (some (~~~c)) act :: w) (stickyFlags fl) false

/-- vcmpeq (R274). -/
def execVcmpeq (u : UnitVW) (lp : Fin 16) (ef : Format) (k : Fin 8) (a b : VSrc) (wit : Option (Fin 16)) (s : State) : Outcome :=
  compareOp (.vcmpeq u lp ef k a b wit) .eq u lp ef k a b wit s

/-- vcmpne (R274). -/
def execVcmpne (u : UnitVW) (lp : Fin 16) (ef : Format) (k : Fin 8) (a b : VSrc) (wit : Option (Fin 16)) (s : State) : Outcome :=
  compareOp (.vcmpne u lp ef k a b wit) .ne u lp ef k a b wit s

/-- vcmplt (R274). -/
def execVcmplt (u : UnitVW) (lp : Fin 16) (ef : Format) (k : Fin 8) (a b : VSrc) (wit : Option (Fin 16)) (s : State) : Outcome :=
  compareOp (.vcmplt u lp ef k a b wit) .lt u lp ef k a b wit s

/-- vcmple (R274). -/
def execVcmple (u : UnitVW) (lp : Fin 16) (ef : Format) (k : Fin 8) (a b : VSrc) (wit : Option (Fin 16)) (s : State) : Outcome :=
  compareOp (.vcmple u lp ef k a b wit) .le u lp ef k a b wit s

/-- vcmpgt (R274). -/
def execVcmpgt (u : UnitVW) (lp : Fin 16) (ef : Format) (k : Fin 8) (a b : VSrc) (wit : Option (Fin 16)) (s : State) : Outcome :=
  compareOp (.vcmpgt u lp ef k a b wit) .gt u lp ef k a b wit s

/-- vcmpge (R274). -/
def execVcmpge (u : UnitVW) (lp : Fin 16) (ef : Format) (k : Fin 8) (a b : VSrc) (wit : Option (Fin 16)) (s : State) : Outcome :=
  compareOp (.vcmpge u lp ef k a b wit) .ge u lp ef k a b wit s

/-! Predicates (R275 to R277). -/

/-- A form that writes a predicate pair with its complement in the active lanes. -/
def pairOp (i : Instr) (u : UnitVW) (lp : Fin 16) (k : Fin 8) (f : State → Mask) (s : State) : Outcome :=
  issue i s fun s =>
    let act := lanesOf s lp
    giveVPair (charge s 2 (laneCount act)) u k.val act (f s)

/-- visab (R275). -/
def execVisab (u : UnitVW) (lp : Fin 16) (ef : Format) (k : Fin 8) (a : VSrc) (s : State) : Outcome :=
  pairOp (.visab u lp ef k a) u lp k
    (fun s => let l := srcLanes s u a; maskOf fun i => (elemsOf ef (l.getD i 0)).any (isAbsent ef)) s

/-- vpand: vp[a] AND vp[b] (R276). -/
def execVpand (u : UnitVW) (lp : Fin 16) (k : Fin 8) (a b : Fin 16) (s : State) : Outcome :=
  pairOp (.vpand u lp k a b) u lp k (fun s => readVPred (curTask s) a.val &&& readVPred (curTask s) b.val) s

/-- vpor: vp[a] OR vp[b] (R276). -/
def execVpor (u : UnitVW) (lp : Fin 16) (k : Fin 8) (a b : Fin 16) (s : State) : Outcome :=
  pairOp (.vpor u lp k a b) u lp k (fun s => readVPred (curTask s) a.val ||| readVPred (curTask s) b.val) s

/-- vpxor: vp[a] XOR vp[b] (R276). -/
def execVpxor (u : UnitVW) (lp : Fin 16) (k : Fin 8) (a b : Fin 16) (s : State) : Outcome :=
  pairOp (.vpxor u lp k a b) u lp k (fun s => readVPred (curTask s) a.val ^^^ readVPred (curTask s) b.val) s

/-- vpnot (R276). -/
def execVpnot (u : UnitVW) (lp : Fin 16) (k : Fin 8) (a : Fin 16) (s : State) : Outcome :=
  pairOp (.vpnot u lp k a) u lp k (fun s => ~~~readVPred (curTask s) a.val) s

/-- vpbc: a scalar predicate in every active lane (R277). -/
def execVpbc (u : UnitVW) (lp : Fin 16) (k : Fin 8) (n : Fin 16) (s : State) : Outcome :=
  pairOp (.vpbc u lp k n) u lp k (fun s => if readPred (curTask s) n.val then BitVec.allOnes 128 else 0) s

/-- vpcnt: the number of lanes set (R277). -/
def execVpcnt (u : UnitVW) (lp : Fin 16) (d : VDst) (n : Fin 16) (s : State) : Outcome :=
  vectorOp (.vpcnt u lp d n) u lp 2 6 d
    (fun s => plainLanes (List.replicate 128 (BitVec.ofNat 32 (laneCount (readVPred (curTask s) n.val))))) s

/-- vmkab: the absent code in the lanes vp[n] sets (R275). -/
def execVmkab (u : UnitVW) (lp : Fin 16) (ef : Format) (d : VDst) (a : VSrc) (n : Fin 16) (s : State) : Outcome :=
  vectorOp (.vmkab u lp ef d a n) u lp 2 2 d
    (fun s => let m := readVPred (curTask s) n.val
      plainLanes ((srcLanes s u a).zipIdx.map fun (x, i) =>
        if m.getLsbD i then ofElems ef (List.replicate ef.perLane (Format.absentCode ef)) else x)) s

/-! Selection and movement (R278 to R281). -/

/-- vsel (R278). -/
def execVsel (u : UnitVW) (lp : Fin 16) (n : Fin 16) (d : VDst) (a b : VSrc) (s : State) : Outcome :=
  vectorOp (.vsel u lp n d a b) u lp 2 2 d
    (fun s => let m := readVPred (curTask s) n.val
      plainLanes (((srcLanes s u a).zip (srcLanes s u b)).zipIdx.map fun ((x, y), i) => if m.getLsbD i then x else y)) s

/-- vmov (R278). -/
def execVmov (u : UnitVW) (lp : Fin 16) (d : VDst) (a : VSrc) (s : State) : Outcome :=
  vectorOp (.vmov u lp d a) u lp 2 2 d (fun s => plainLanes (srcLanes s u a)) s

/-- Lane `i` of the lane group of a lane. -/
def groupLane (l : Lanes) (lane i : Nat) : Word := l.getD (lane / 16 * 16 + i % 16) 0

/-- vbcast (R278). -/
def execVbcast (u : UnitVW) (lp : Fin 16) (i : Fin 16) (d : VDst) (a : VSrc) (s : State) : Outcome :=
  vectorOp (.vbcast u lp i d a) u lp 2 2 d
    (fun s => let l := srcLanes s u a; plainLanes (tabulate 128 fun k => groupLane l k i.val)) s

/-- vlane (R278). -/
def execVlane (u : UnitVW) (lp : Fin 16) (d : VDst) (s : State) : Outcome :=
  vectorOp (.vlane u lp d) u lp 2 2 d (fun _ => plainLanes (tabulate 128 fun k => BitVec.ofNat 32 k)) s

/-- vperm (R279). -/
def execVperm (u : UnitVW) (lp : Fin 16) (d : VDst) (a x : VSrc) (s : State) : Outcome :=
  vectorOp (.vperm u lp d a x) u lp 2 2 d
    (fun s => let l := srcLanes s u a
      plainLanes ((srcLanes s u x).zipIdx.map fun (w, k) => groupLane l k (w.toNat % 16))) s

/-- gxch: lane groups moved by the map (R280). -/
def execGxch (u : UnitVW) (lp : Fin 16) (d : VDst) (a : VSrc) (map : BitVec 24) (s : State) : Outcome :=
  vectorOp (.gxch u lp d a map) u lp 2 4 d
    (fun s => let l := srcLanes s u a
      plainLanes (tabulate 128 fun k => l.getD (16 * bits map (3 * (k / 16)) 3 + k % 16) 0)) s

/-- vxld: a read within the lane group by index, and which lanes read a valid value (R281). -/
def execVxld (u : UnitVW) (lp : Fin 16) (d : VDst) (a x : VSrc) (j : Fin 16) (s : State) : Outcome :=
  issue (.vxld u lp d a x j) s fun s =>
    let act := lanesOf s lp
    let l := srcLanes s u a
    let idx := srcLanes s u x
    let valid := maskOf fun k =>
      decide ((idx.getD k 0).toNat < 16) && act.getLsbD (k / 16 * 16 + (idx.getD k 0).toNat % 16)
    let r : Lanes := tabulate 128 fun k => if valid.getLsbD k then groupLane l k (idx.getD k 0).toNat else l.getD k 0
    let out := mixLanes act (heldLanes s u d) r
    let dst := match d with
      | .reg r => [Dest.lanes u r.val out act]
      | .latchOnly => []
    let vp := if j.val < 2 then [] else [Dest.vsingle j.val valid act]
    issueResult (charge s 2 (laneCount act)) 4 (UnitVW.slot u) (some (.vector u out)) (dst ++ vp) 0 false

/-! Reductions (R282). -/

/-- The present elements of the active lanes of a lane group, in ascending index. -/
def groupElems (ef : Format) (act : Mask) (l : Lanes) (g : Nat) : List Nat :=
  ((List.range 16).flatMap fun i =>
    if act.getLsbD (16 * g + i) then elemsOf ef (l.getD (16 * g + i) 0) else []).filter fun e => !isAbsent ef e

/-- The exact sum of finite values over a common exponent: mantissa and exponent. -/
def exactSum (vs : List Val) : Int × Int :=
  let e := vs.foldl (fun m v => match v with
    | .real _ _ _ x => min m x
    | _ => m) 0
  (vs.foldl (fun acc v => match v with
    | .real n m _ x => acc + toInt n (m * 2 ^ (x - e).toNat)
    | _ => acc) 0, e)

/-- The sum of present elements of class I: exact, rounded once (R282). -/
def floatSum (f : Format) (env : Env) (es : List Nat) : Nat × Nat :=
  let vs := es.map (decodeFloat f env.fz)
  ieeeOp f vs fun _ =>
    let pos := vs.any fun v => v == .inf false
    let neg := vs.any fun v => v == .inf true
    if pos && neg then (Format.canonical f, flagNV)
    else if pos || neg then encodeFloat f env (Format.fracBits f) (.inf neg)
    else
      let (n, e) := exactSum vs
      if n = 0 then
        let isNeg := vs.all Val.isNeg || (env.mode == .rdn && vs.any Val.isNeg)
        (isNeg.toNat * 2 ^ (f.width - 1), 0)
      else roundReal f env (decide (n < 0)) n.natAbs 1 e

/-- The sum of present elements in the class of their format (R282). -/
def elemSum (f : Format) (env : Env) (es : List Nat) : Nat × Nat :=
  if f.isFloat then floatSum f env es
  else if f.isInt then (patternOf f.width (saturate f.width ((es.map (signedOf f.width)).foldl (· + ·) 0)), 0)
  else (es.foldl (· + ·) 0 % 2 ^ f.width, 0)

/-- The smallest or largest of present elements, by the rules of vmin and vmax (R282). -/
def elemExtreme (op : BinOp) (f : Format) (env : Env) : List Nat → Nat × Nat
  | [] => (0, 0)
  | e :: es => es.foldl (fun acc x => let r := elemBin op f env acc.1 x; (r.1, orFlags acc.2 r.2)) (elemBin op f env e e)

/-- A reduction of every lane group: without a present element the absent code, or zero in the raw class (R282). -/
def reduceGroups (s : State) (u : UnitVW) (lp : Fin 16) (ef : Format) (a : VSrc) (op : Env → List Nat → Nat × Nat) :
    List (List Nat × Nat × Nat) :=
  let l := srcLanes s u a
  let act := lanesOf s lp
  tabulate 8 fun g =>
    match groupElems ef act l g with
    | [] => ([], if ef.hasAbsent then Format.absentCode ef else 0, 0)
    | es => (es, op (envOf s) es)

/-- The result of a group in every element of its lanes. -/
def spreadGroups (ef : Format) (rs : List (List Nat × Nat × Nat)) : List (Word × Nat) :=
  tabulate 128 fun l =>
    let r := rs.getD (l / 16) ([], 0, 0)
    (ofElems ef (List.replicate ef.perLane r.2.1), r.2.2)

/-- vsum (R282). -/
def execVsum (u : UnitVW) (lp : Fin 16) (ef : Format) (d : VDst) (a : VSrc) (s : State) : Outcome :=
  vectorOp (.vsum u lp ef d a) u lp 2 6 d (fun s => spreadGroups ef (reduceGroups s u lp ef a (elemSum ef))) s

/-- vsumc: the sum in even lanes and the count in odd ones (R282). -/
def execVsumc (u : UnitVW) (lp : Fin 16) (ef : Format) (d : VDst) (a : VSrc) (s : State) : Outcome :=
  vectorOp (.vsumc u lp ef d a) u lp 2 6 d
    (fun s =>
      let rs := reduceGroups s u lp ef a (elemSum ef)
      tabulate 128 fun l =>
        let r := rs.getD (l / 16) ([], 0, 0)
        (BitVec.ofNat 32 (if l % 2 = 0 then r.2.1 else r.1.length), r.2.2)) s

/-- vrmin (R282). -/
def execVrmin (u : UnitVW) (lp : Fin 16) (ef : Format) (d : VDst) (a : VSrc) (s : State) : Outcome :=
  vectorOp (.vrmin u lp ef d a) u lp 2 6 d (fun s => spreadGroups ef (reduceGroups s u lp ef a (elemExtreme .min ef))) s

/-- vrmax (R282). -/
def execVrmax (u : UnitVW) (lp : Fin 16) (ef : Format) (d : VDst) (a : VSrc) (s : State) : Outcome :=
  vectorOp (.vrmax u lp ef d a) u lp 2 6 d (fun s => spreadGroups ef (reduceGroups s u lp ef a (elemExtreme .max ef))) s

/-! Block pack and unpack (R283, R284). -/

/-- A lane group encoded: its string in the 16 lanes, and the flags (R283). -/
def packGroup (ef : Format) (env : Env) (act : Mask) (l : Lanes) (g : Nat) : Nat × Nat :=
  encodeBlock ef env.mode (tabulate 16 fun i =>
    if act.getLsbD (16 * g + i) then decodeFloat .fp32 env.fz (l.getD (16 * g + i) 0).toNat else .absent)

/-- vpack (R283). -/
def execVpack (u : UnitVW) (lp : Fin 16) (ef : Format) (d : VDst) (a : VSrc) (s : State) : Outcome :=
  vectorOp (.vpack u lp ef d a) u lp 2 4 d
    (fun s =>
      let l := srcLanes s u a
      let gs := tabulate 8 fun g => packGroup ef (envOf s) (lanesOf s lp) l g
      tabulate 128 fun k =>
        let r := gs.getD (k / 16) (0, 0)
        (BitVec.ofNat 32 (field r.1 (32 * (k % 16)) 32), r.2)) s

/-- The string at the start of a lane group, as a number. -/
def groupString (ef : Format) (l : Lanes) (g : Nat) : Nat :=
  ((List.range 16).foldr (fun i acc => (l.getD (16 * g + i) 0).toNat + 2 ^ 32 * acc) 0) % 256 ^ Format.groupSize ef

/-- vunpk (R284). -/
def execVunpk (u : UnitVW) (lp : Fin 16) (ef : Format) (d : VDst) (a : VSrc) (s : State) : Outcome :=
  vectorOp (.vunpk u lp ef d a) u lp 2 4 d
    (fun s =>
      let l := srcLanes s u a
      let gs := tabulate 8 fun g => groupString ef l g
      plainLanes (tabulate 128 fun k =>
        BitVec.ofNat 32 (encodeFloat .fp32 Env.plain 24 (blockElem ef (gs.getD (k / 16) 0) (k % 16))).1)) s

/-! Copies out of the vector files (R285). -/

/-- The V- and W-slot xmov: between the vector files in the active lanes, else lane 0 (R285). -/
def execXmovV (u : UnitVW) (lp : Fin 16) (fl : File) (d : Fin 32) (a : VSrc) (s : State) : Outcome :=
  issue (.xmovV u lp fl d a) s fun s =>
    let l := srcLanes s u a
    let act := lanesOf s lp
    match fl with
    | .v => giveOnly (charge s 2 (laneCount act)) (UnitVW.slot u) 2
        (if d.val < 28 then [.lanes .v d.val (mixLanes act (readLanes (curTask s) .v d.val) l) act] else [])
    | .w => giveOnly (charge s 2 (laneCount act)) (UnitVW.slot u) 2
        (if d.val < 28 then [.lanes .w d.val (mixLanes act (readLanes (curTask s) .w d.val) l) act] else [])
    | fl => giveOnly (charge s 2 1) (UnitVW.slot u) (xmovVecLatency fl) (regDest fl d.val (l.getD 0 0))

end Sys2Proof.Machine
end

