-- ==== Sys2Proof/Machine/Dispatch.lean ====
section
/-! DEFINITION. What each instruction does: one arm per constructor. -/

namespace Sys2Proof.Machine

open Sys2Proof

/-- The meaning of an instruction in a state. -/
def exec (i : Instr) (s : State) : Host.Outcome State Fault Refusal :=
  match i with
  | .jmp g disp => Sys2Proof.Machine.execJmp g disp s
  | .jmpl g target => Sys2Proof.Machine.execJmpl g target s
  | .jr g r => Sys2Proof.Machine.execJr g r s
  | .call g disp => Sys2Proof.Machine.execCall g disp s
  | .calll g target => Sys2Proof.Machine.execCalll g target s
  | .ret g => Sys2Proof.Machine.execRet g s
  | .mbr g shape q0 q1 q2 q3 t0 t1 t2 t3 => Sys2Proof.Machine.execMbr g shape q0 q1 q2 q3 t0 t1 t2 t3 s
  | .loop g c exit => Sys2Proof.Machine.execLoop g c exit s
  | .loopi g exit count => Sys2Proof.Machine.execLoopi g exit count s
  | .lexit g => Sys2Proof.Machine.execLexit g s
  | .susp g t w => Sys2Proof.Machine.execSusp g t w s
  | .suspTarget g target w => Sys2Proof.Machine.execSuspTarget g target w s
  | .endTask g => Sys2Proof.Machine.execEndTask g s
  | .spawn g p c => Sys2Proof.Machine.execSpawn g p c s
  | .spawnn g p c n => Sys2Proof.Machine.execSpawnn g p c n s
  | .setfmt g r => Sys2Proof.Machine.execSetfmt g r s
  | .setfmtValue g value => Sys2Proof.Machine.execSetfmtValue g value s
  | .qwait g => Sys2Proof.Machine.execQwait g s
  | .drain g => Sys2Proof.Machine.execDrain g s
  | .trap g code => Sys2Proof.Machine.execTrap g code s
  | .rft g r => Sys2Proof.Machine.execRft g r s
  | .csrr g d csr => Sys2Proof.Machine.execCsrr g d csr s
  | .csrw g r csr => Sys2Proof.Machine.execCsrw g r csr s
  | .csrwValue g csr value => Sys2Proof.Machine.execCsrwValue g csr value s
  | .rgopen g disp => Sys2Proof.Machine.execRgopen g disp s
  | .rgclose g => Sys2Proof.Machine.execRgclose g s
  | .seal g => Sys2Proof.Machine.execSeal g s
  | .irrev g t => Sys2Proof.Machine.execIrrev g t s
  | .irrevTarget g target => Sys2Proof.Machine.execIrrevTarget g target s
  | .lshare g share => Sys2Proof.Machine.execLshare g share s
  | .brk g code => Sys2Proof.Machine.execBrk g code s
  | .xmovC g r fl d => Sys2Proof.Machine.execXmovC g r fl d s
  | .kli g d imm => Sys2Proof.Machine.execKli g d imm s
  | .kliLong g d value => Sys2Proof.Machine.execKliLong g d value s
  | .add u g d x y => Sys2Proof.Machine.execAdd u g d x y s
  | .sub u g d x y => Sys2Proof.Machine.execSub u g d x y s
  | .and u g d x y => Sys2Proof.Machine.execAnd u g d x y s
  | .or u g d x y => Sys2Proof.Machine.execOr u g d x y s
  | .xor u g d x y => Sys2Proof.Machine.execXor u g d x y s
  | .andn u g d x y => Sys2Proof.Machine.execAndn u g d x y s
  | .sll u g d x y => Sys2Proof.Machine.execSll u g d x y s
  | .srl u g d x y => Sys2Proof.Machine.execSrl u g d x y s
  | .sra u g d x y => Sys2Proof.Machine.execSra u g d x y s
  | .rol u g d x y => Sys2Proof.Machine.execRol u g d x y s
  | .min u g d x y => Sys2Proof.Machine.execMin u g d x y s
  | .max u g d x y => Sys2Proof.Machine.execMax u g d x y s
  | .minu u g d x y => Sys2Proof.Machine.execMinu u g d x y s
  | .maxu u g d x y => Sys2Proof.Machine.execMaxu u g d x y s
  | .mul u g d x y => Sys2Proof.Machine.execMul u g d x y s
  | .mulh u g d x y => Sys2Proof.Machine.execMulh u g d x y s
  | .mulhu u g d x y => Sys2Proof.Machine.execMulhu u g d x y s
  | .div u g d x y => Sys2Proof.Machine.execDiv u g d x y s
  | .divu u g d x y => Sys2Proof.Machine.execDivu u g d x y s
  | .rem u g d x y => Sys2Proof.Machine.execRem u g d x y s
  | .remu u g d x y => Sys2Proof.Machine.execRemu u g d x y s
  | .li u g d x => Sys2Proof.Machine.execLi u g d x s
  | .bfx u g d x y => Sys2Proof.Machine.execBfx u g d x y s
  | .bfxu u g d x y => Sys2Proof.Machine.execBfxu u g d x y s
  | .bfi u g d x y => Sys2Proof.Machine.execBfi u g d x y s
  | .clz u g d x => Sys2Proof.Machine.execClz u g d x s
  | .ctz u g d x => Sys2Proof.Machine.execCtz u g d x s
  | .popc u g d x => Sys2Proof.Machine.execPopc u g d x s
  | .sel u g d n x y => Sys2Proof.Machine.execSel u g d n x y s
  | .cmp u g k c x y => Sys2Proof.Machine.execCmp u g k c x y s
  | .lea u g d x y sh => Sys2Proof.Machine.execLea u g d x y sh s
  | .xmovAB u g fl d x => Sys2Proof.Machine.execXmovAB u g fl d x s
  | .xmovpGet u g d => Sys2Proof.Machine.execXmovpGet u g d s
  | .xmovpSet u g k x => Sys2Proof.Machine.execXmovpSet u g k x s
  | .sxt u g d x w1 => Sys2Proof.Machine.execSxt u g d x w1 s
  | .zxt u g d x w1 => Sys2Proof.Machine.execZxt u g d x w1 s
  | .abs u g d x => Sys2Proof.Machine.execAbs u g d x s
  | .bswap u g d x => Sys2Proof.Machine.execBswap u g d x s
  | .brev u g d x => Sys2Proof.Machine.execBrev u g d x s
  | .cmpu u g k c x y => Sys2Proof.Machine.execCmpu u g k c x y s
  | .ldb g fl d x y => Sys2Proof.Machine.execLdb g fl d x y s
  | .ldbu g fl d x y => Sys2Proof.Machine.execLdbu g fl d x y s
  | .ldh g fl d x y => Sys2Proof.Machine.execLdh g fl d x y s
  | .ldhu g fl d x y => Sys2Proof.Machine.execLdhu g fl d x y s
  | .ldw g fl d x y => Sys2Proof.Machine.execLdw g fl d x y s
  | .ldd g d x y => Sys2Proof.Machine.execLdd g d x y s
  | .stb g fl d x y => Sys2Proof.Machine.execStb g fl d x y s
  | .sth g fl d x y => Sys2Proof.Machine.execSth g fl d x y s
  | .stw g fl d x y => Sys2Proof.Machine.execStw g fl d x y s
  | .std g d x y => Sys2Proof.Machine.execStd g d x y s
  | .vld g u d x y ext => Sys2Proof.Machine.execVld g u d x y ext s
  | .vst g u d x y ext => Sys2Proof.Machine.execVst g u d x y ext s
  | .vldth g u d x y ext => Sys2Proof.Machine.execVldth g u d x y ext s
  | .rld g fl d x y => Sys2Proof.Machine.execRld g fl d x y s
  | .rst g fl d x y => Sys2Proof.Machine.execRst g fl d x y s
  | .rvld g u d x y ext => Sys2Proof.Machine.execRvld g u d x y ext s
  | .rvst g u d x y ext => Sys2Proof.Machine.execRvst g u d x y ext s
  | .qst g q x y => Sys2Proof.Machine.execQst g q x y s
  | .gld g d x y len4 bar => Sys2Proof.Machine.execGld g d x y len4 bar s
  | .gst g d x y len4 bar => Sys2Proof.Machine.execGst g d x y len4 bar s
  | .gatom g d x y aop w64 bar => Sys2Proof.Machine.execGatom g d x y aop w64 bar s
  | .mli g d y => Sys2Proof.Machine.execMli g d y s
  | .madd g d x y => Sys2Proof.Machine.execMadd g d x y s
  | .xmovM g fl d x => Sys2Proof.Machine.execXmovM g fl d x s
  | .irst g fl d x y bar => Sys2Proof.Machine.execIrst g fl d x y bar s
  | .vstm g u d x y ext => Sys2Proof.Machine.execVstm g u d x y ext s
  | .pld g vp x y => Sys2Proof.Machine.execPld g vp x y s
  | .pst g vp x y => Sys2Proof.Machine.execPst g vp x y s
  | .vadd u lp ef d a b => Sys2Proof.Machine.execVadd u lp ef d a b s
  | .vsub u lp ef d a b => Sys2Proof.Machine.execVsub u lp ef d a b s
  | .vmul u lp ef d a b => Sys2Proof.Machine.execVmul u lp ef d a b s
  | .vfma u lp ef d a b => Sys2Proof.Machine.execVfma u lp ef d a b s
  | .vfms u lp ef d a b => Sys2Proof.Machine.execVfms u lp ef d a b s
  | .vfnma u lp ef d a b => Sys2Proof.Machine.execVfnma u lp ef d a b s
  | .vmin u lp ef d a b => Sys2Proof.Machine.execVmin u lp ef d a b s
  | .vmax u lp ef d a b => Sys2Proof.Machine.execVmax u lp ef d a b s
  | .vabs u lp ef d a => Sys2Proof.Machine.execVabs u lp ef d a s
  | .vneg u lp ef d a => Sys2Proof.Machine.execVneg u lp ef d a s
  | .vdiv u lp ef d a b => Sys2Proof.Machine.execVdiv u lp ef d a b s
  | .vrcp u lp ef d a => Sys2Proof.Machine.execVrcp u lp ef d a s
  | .vsqrt u lp ef d a => Sys2Proof.Machine.execVsqrt u lp ef d a s
  | .vrsqrt u lp d a => Sys2Proof.Machine.execVrsqrt u lp d a s
  | .vexp2 u lp d a => Sys2Proof.Machine.execVexp2 u lp d a s
  | .vlog2 u lp d a => Sys2Proof.Machine.execVlog2 u lp d a s
  | .vsin u lp d a => Sys2Proof.Machine.execVsin u lp d a s
  | .vcos u lp d a => Sys2Proof.Machine.execVcos u lp d a s
  | .vtanh u lp d a => Sys2Proof.Machine.execVtanh u lp d a s
  | .vround u lp ef d a => Sys2Proof.Machine.execVround u lp ef d a s
  | .vtrunc u lp ef d a => Sys2Proof.Machine.execVtrunc u lp ef d a s
  | .vcvt u lp ef sf d a h => Sys2Proof.Machine.execVcvt u lp ef sf d a h s
  | .vcmpeq u lp ef k a b wit => Sys2Proof.Machine.execVcmpeq u lp ef k a b wit s
  | .vcmpne u lp ef k a b wit => Sys2Proof.Machine.execVcmpne u lp ef k a b wit s
  | .vcmplt u lp ef k a b wit => Sys2Proof.Machine.execVcmplt u lp ef k a b wit s
  | .vcmple u lp ef k a b wit => Sys2Proof.Machine.execVcmple u lp ef k a b wit s
  | .vcmpgt u lp ef k a b wit => Sys2Proof.Machine.execVcmpgt u lp ef k a b wit s
  | .vcmpge u lp ef k a b wit => Sys2Proof.Machine.execVcmpge u lp ef k a b wit s
  | .vsel u lp n d a b => Sys2Proof.Machine.execVsel u lp n d a b s
  | .vmov u lp d a => Sys2Proof.Machine.execVmov u lp d a s
  | .vbcast u lp ix d a => Sys2Proof.Machine.execVbcast u lp ix d a s
  | .vpbc u lp k n => Sys2Proof.Machine.execVpbc u lp k n s
  | .vperm u lp d a x => Sys2Proof.Machine.execVperm u lp d a x s
  | .gxch u lp d a map => Sys2Proof.Machine.execGxch u lp d a map s
  | .vxld u lp d a x j => Sys2Proof.Machine.execVxld u lp d a x j s
  | .vsum u lp ef d a => Sys2Proof.Machine.execVsum u lp ef d a s
  | .vsumc u lp ef d a => Sys2Proof.Machine.execVsumc u lp ef d a s
  | .vrmin u lp ef d a => Sys2Proof.Machine.execVrmin u lp ef d a s
  | .vrmax u lp ef d a => Sys2Proof.Machine.execVrmax u lp ef d a s
  | .vpack u lp ef d a => Sys2Proof.Machine.execVpack u lp ef d a s
  | .vunpk u lp ef d a => Sys2Proof.Machine.execVunpk u lp ef d a s
  | .visab u lp ef k a => Sys2Proof.Machine.execVisab u lp ef k a s
  | .vmkab u lp ef d a n => Sys2Proof.Machine.execVmkab u lp ef d a n s
  | .vand u lp ef d a b => Sys2Proof.Machine.execVand u lp ef d a b s
  | .vor u lp ef d a b => Sys2Proof.Machine.execVor u lp ef d a b s
  | .vxor u lp ef d a b => Sys2Proof.Machine.execVxor u lp ef d a b s
  | .vshl u lp ef d a b => Sys2Proof.Machine.execVshl u lp ef d a b s
  | .vshr u lp ef d a b => Sys2Proof.Machine.execVshr u lp ef d a b s
  | .vsra u lp ef d a b => Sys2Proof.Machine.execVsra u lp ef d a b s
  | .vpand u lp k a b => Sys2Proof.Machine.execVpand u lp k a b s
  | .vpor u lp k a b => Sys2Proof.Machine.execVpor u lp k a b s
  | .vpxor u lp k a b => Sys2Proof.Machine.execVpxor u lp k a b s
  | .vpnot u lp k a => Sys2Proof.Machine.execVpnot u lp k a s
  | .vlane u lp d => Sys2Proof.Machine.execVlane u lp d s
  | .vscl u lp ef d a b => Sys2Proof.Machine.execVscl u lp ef d a b s
  | .vclamp u lp ef d a b => Sys2Proof.Machine.execVclamp u lp ef d a b s
  | .vsgnj u lp ef d a b => Sys2Proof.Machine.execVsgnj u lp ef d a b s
  | .vsigm u lp d a => Sys2Proof.Machine.execVsigm u lp d a s
  | .vpcnt u lp d n => Sys2Proof.Machine.execVpcnt u lp d n s
  | .xmovV u lp fl d a => Sys2Proof.Machine.execXmovV u lp fl d a s
  | .mcall g idx => Sys2Proof.Machine.execMcall g idx s
  | .mload g r b => Sys2Proof.Machine.execMload g r b s
  | .xli g d v => Sys2Proof.Machine.execXli g d v s
  | .xlih g d v => Sys2Proof.Machine.execXlih g d v s
  | .xadd g d r v => Sys2Proof.Machine.execXadd g d r v s
  | .xins g d r pos len1 => Sys2Proof.Machine.execXins g d r pos len1 s
  | .xmovX g r fl d hi => Sys2Proof.Machine.execXmovX g r fl d hi s
  | .mqclr g mask => Sys2Proof.Machine.execMqclr g mask s
  | .mcancel g => Sys2Proof.Machine.execMcancel g s
  | .cpy g slot x y nb rel acq => Sys2Proof.Machine.execCpy g slot x y nb rel acq s
  | .cpy2d g slot x y nb rel acq => Sys2Proof.Machine.execCpy2d g slot x y nb rel acq s
  | .cpyt g slot x y nb rel acq => Sys2Proof.Machine.execCpyt g slot x y nb rel acq s
  | .cpyg g slot x y nb rel acq => Sys2Proof.Machine.execCpyg g slot x y nb rel acq s
  | .cpys g slot x y nb rel acq => Sys2Proof.Machine.execCpys g slot x y nb rel acq s
  | .strm g slot x y nb rel acq => Sys2Proof.Machine.execStrm g slot x y nb rel acq s
  | .strmx g slot x y nb rel acq => Sys2Proof.Machine.execStrmx g slot x y nb rel acq s
  | .cpyx g slot x y nb rel acq => Sys2Proof.Machine.execCpyx g slot x y nb rel acq s
  | .mcast g slot x y nb rel acq => Sys2Proof.Machine.execMcast g slot x y nb rel acq s
  | .rot g x y cnt dir len1 bar => Sys2Proof.Machine.execRot g x y cnt dir len1 bar s
  | .binit g x y scope => Sys2Proof.Machine.execBinit g x y scope s
  | .bidle g x => Sys2Proof.Machine.execBidle g x s
  | .barv g x y => Sys2Proof.Machine.execBarv g x y s
  | .qpush g x y q => Sys2Proof.Machine.execQpush g x y q s
  | .tsort g slot x y nb rel acq => Sys2Proof.Machine.execTsort g slot x y nb rel acq s
  | .fli g d x => Sys2Proof.Machine.execFli g d x s
  | .fadd g d x y => Sys2Proof.Machine.execFadd g d x y s
  | .fsub g d x y => Sys2Proof.Machine.execFsub g d x y s
  | .fsll g d x y => Sys2Proof.Machine.execFsll g d x y s
  | .xmovF g fl d x => Sys2Proof.Machine.execXmovF g fl d x s
  | .cpstat g d x => Sys2Proof.Machine.execCpstat g d x s
  | .cpfill g slot x y nb rel acq => Sys2Proof.Machine.execCpfill g slot x y nb rel acq s
  | .sqcfg g slot x y nb rel acq => Sys2Proof.Machine.execSqcfg g slot x y nb rel acq s
  | .sqbind g slot x y nb rel acq => Sys2Proof.Machine.execSqbind g slot x y nb rel acq s
  | .sqstage g slot x y nb rel acq => Sys2Proof.Machine.execSqstage g slot x y nb rel acq s
  | .sqtake g slot x y nb rel acq => Sys2Proof.Machine.execSqtake g slot x y nb rel acq s
  | .sqjudge g slot y nb rel acq => Sys2Proof.Machine.execSqjudge g slot y nb rel acq s
  | .sqstat g slot x y nb rel acq => Sys2Proof.Machine.execSqstat g slot x y nb rel acq s
  | .bnet g d x y pat => Sys2Proof.Machine.execBnet g d x y pat s
  | .bnld g x y pat => Sys2Proof.Machine.execBnld g x y pat s
  | .nfill g d x wc => Sys2Proof.Machine.execNfill g d x wc s
  | .nli g d x => Sys2Proof.Machine.execNli g d x s
  | .nadd g d x y => Sys2Proof.Machine.execNadd g d x y s
  | .xmovN g fl d x => Sys2Proof.Machine.execXmovN g fl d x s
  | .idleBundle => Sys2Proof.Machine.execIdleBundle s
  | .loopEndMark => Sys2Proof.Machine.execLoopEndMark s
  | .segmentMark => Sys2Proof.Machine.execSegmentMark s
  | .queuePop mask => Sys2Proof.Machine.execQueuePop mask s
  | .mend => Sys2Proof.Machine.execMend s
  | .mstep sw => Sys2Proof.Machine.execMstep sw s
  | .mclr => Sys2Proof.Machine.execMclr s
  | .mloop endAddr count => Sys2Proof.Machine.execMloop endAddr count s
  | .mloopZ z sh endAddr => Sys2Proof.Machine.execMloopZ z sh endAddr s
  | .mendl => Sys2Proof.Machine.execMendl s
  | .madv d imm => Sys2Proof.Machine.execMadv d imm s
  | .madvParam d pw => Sys2Proof.Machine.execMadvParam d pw s
  | .mshape => Sys2Proof.Machine.execMshape s
  | .mdrain pw clr => Sys2Proof.Machine.execMdrain pw clr s
  | .mwaitb z inc => Sys2Proof.Machine.execMwaitb z inc s
  | .msig z bytes => Sys2Proof.Machine.execMsig z bytes s
  | .mset d imm => Sys2Proof.Machine.execMset d imm s
  | .msetParam d pw => Sys2Proof.Machine.execMsetParam d pw s
  | .mmad d z pw => Sys2Proof.Machine.execMmad d z pw s
  | .mskz z n => Sys2Proof.Machine.execMskz z n s
  | .mjmp target => Sys2Proof.Machine.execMjmp target s
  | .mnop => Sys2Proof.Machine.execMnop s
  | .mfence => Sys2Proof.Machine.execMfence s
  | .mcallAccept core => Sys2Proof.Machine.execMcallAccept core s
  | .drainPush core => Sys2Proof.Machine.execDrainPush core s
  | .mloadInstall core => Sys2Proof.Machine.execMloadInstall core s
  | .nopPacket q => Sys2Proof.Machine.execNopPacket q s
  | .launchPacket q => Sys2Proof.Machine.execLaunchPacket q s
  | .graphPacket q => Sys2Proof.Machine.execGraphPacket q s
  | .sealPacket q => Sys2Proof.Machine.execSealPacket q s
  | .copyPacket q => Sys2Proof.Machine.execCopyPacket q s
  | .signalPacket q => Sys2Proof.Machine.execSignalPacket q s
  | .waitPacket q => Sys2Proof.Machine.execWaitPacket q s
  | .fencePacket q => Sys2Proof.Machine.execFencePacket q s
  | .waitPoll q => Sys2Proof.Machine.execWaitPoll q s
  | .packetAcceptance q => Sys2Proof.Machine.execPacketAcceptance q s
  | .packetCompletion seq => Sys2Proof.Machine.execPacketCompletion seq s
  | .graphNodeDispatch seq node => Sys2Proof.Machine.execGraphNodeDispatch seq node s
  | .qtailNotification q value => Sys2Proof.Machine.execQtailNotification q value s
  | .queueEnable q value => Sys2Proof.Machine.execQueueEnable q value s
  | .queueDisable q value => Sys2Proof.Machine.execQueueDisable q value s
  | .handleEntryWrite die h word value => Sys2Proof.Machine.execHandleEntryWrite die h word value s
  | .tlbinvAll die => Sys2Proof.Machine.execTlbinvAll die s
  | .tlbinvProgram die program => Sys2Proof.Machine.execTlbinvProgram die program s
  | .tlbinvPage die program page => Sys2Proof.Machine.execTlbinvPage die program page s
  | .tlbinvComplete die => Sys2Proof.Machine.execTlbinvComplete die s
  | .attestationRequest => Sys2Proof.Machine.execAttestationRequest s
  | .attestationComplete => Sys2Proof.Machine.execAttestationComplete s
  | .debugUnlock => Sys2Proof.Machine.execDebugUnlock s
  | .debugStopRequest core => Sys2Proof.Machine.execDebugStopRequest core s
  | .debugPreemptRequest core => Sys2Proof.Machine.execDebugPreemptRequest core s
  | .debugResume core => Sys2Proof.Machine.execDebugResume core s
  | .dbgdataWrite core value => Sys2Proof.Machine.execDbgdataWrite core value s
  | .replayGo value => Sys2Proof.Machine.execReplayGo value s
  | .traceEnable value => Sys2Proof.Machine.execTraceEnable value s
  | .alarmClear value => Sys2Proof.Machine.execAlarmClear value s
  | .lclkWrite die value => Sys2Proof.Machine.execLclkWrite die value s
  | .clockRatioChange die far => Sys2Proof.Machine.execClockRatioChange die far s
  | .wdcfgWrite value => Sys2Proof.Machine.execWdcfgWrite value s
  | .cstateWrite core value => Sys2Proof.Machine.execCstateWrite core value s
  | .lossCounterClear core cls bank => Sys2Proof.Machine.execLossCounterClear core cls bank s
  | .registerWrite offset value => Sys2Proof.Machine.execRegisterWrite offset value s
  | .hostRead bar offset n => Sys2Proof.Machine.execHostRead bar offset n s
  | .hostWrite bar offset n value => Sys2Proof.Machine.execHostWrite bar offset n value s
  | .coldBoot verdict => Sys2Proof.Machine.execColdBoot verdict s
  | .selfTest failing => Sys2Proof.Machine.execSelfTest failing s
  | .functionLevelReset => Sys2Proof.Machine.execFunctionLevelReset s
  | .resultDue core => Sys2Proof.Machine.execResultDue core s
  | .remoteLoadDelivery core => Sys2Proof.Machine.execRemoteLoadDelivery core s
  | .bankArbitration core layer bank => Sys2Proof.Machine.execBankArbitration core layer bank s
  | .lichenCycle core work => Sys2Proof.Machine.execLichenCycle core work s
  | .rotDelivery gid => Sys2Proof.Machine.execRotDelivery gid s
  | .messageArrival core => Sys2Proof.Machine.execMessageArrival core s
  | .pageTableWalk cluster program page => Sys2Proof.Machine.execPageTableWalk cluster program page s
  | .globalAccessPerform id => Sys2Proof.Machine.execGlobalAccessPerform id s
  | .engineCommandStart engine => Sys2Proof.Machine.execEngineCommandStart engine s
  | .engineCommandCompletion engine id => Sys2Proof.Machine.execEngineCommandCompletion engine id s
  | .segmentCopyLands core slot => Sys2Proof.Machine.execSegmentCopyLands core slot s
  | .sorusDispatch cluster => Sys2Proof.Machine.execSorusDispatch cluster s
  | .steal cluster => Sys2Proof.Machine.execSteal cluster s
  | .stealTake cluster => Sys2Proof.Machine.execStealTake cluster s
  | .suspensionPointComplete gid => Sys2Proof.Machine.execSuspensionPointComplete gid s
  | .trapVectoring gid => Sys2Proof.Machine.execTrapVectoring gid s
  | .taskLimitExpiry gid => Sys2Proof.Machine.execTaskLimitExpiry gid s
  | .saveModeCutoff gid => Sys2Proof.Machine.execSaveModeCutoff gid s
  | .rollback => Sys2Proof.Machine.execRollback s
  | .sealPeriodExpiry => Sys2Proof.Machine.execSealPeriodExpiry s
  | .sealRequestMessage device => Sys2Proof.Machine.execSealRequestMessage device s
  | .quiesceWindowExpiry => Sys2Proof.Machine.execQuiesceWindowExpiry s
  | .sealCheckpoint => Sys2Proof.Machine.execSealCheckpoint s
  | .quiescedReport => Sys2Proof.Machine.execQuiescedReport s
  | .quiescedMessage device => Sys2Proof.Machine.execQuiescedMessage device s
  | .cutMessage => Sys2Proof.Machine.execCutMessage s
  | .readyReport => Sys2Proof.Machine.execReadyReport s
  | .readyMessage device => Sys2Proof.Machine.execReadyMessage device s
  | .commitMessage => Sys2Proof.Machine.execCommitMessage s
  | .abortMessage => Sys2Proof.Machine.execAbortMessage s
  | .sealTimeout => Sys2Proof.Machine.execSealTimeout s
  | .settleWalkComplete interval => Sys2Proof.Machine.execSettleWalkComplete interval s
  | .egressGapExpiry => Sys2Proof.Machine.execEgressGapExpiry s
  | .scrubPass core layer bank corrected bad => Sys2Proof.Machine.execScrubPass core layer bank corrected bad s
  | .bankSubstitutionComplete core layer bank lane => Sys2Proof.Machine.execBankSubstitutionComplete core layer bank lane s
  | .quarantineTest core fails => Sys2Proof.Machine.execQuarantineTest core fails s
  | .ptmMeasurement granted offset => Sys2Proof.Machine.execPtmMeasurement granted offset s
  | .thermalSample die column raw => Sys2Proof.Machine.execThermalSample die column raw s
  | .clockThrottle die level => Sys2Proof.Machine.execClockThrottle die level s
  | .flitRetry link => Sys2Proof.Machine.execFlitRetry link s
  | .linkDown link => Sys2Proof.Machine.execLinkDown link s
  | .peerUnreachable device => Sys2Proof.Machine.execPeerUnreachable device s
  | .frameReceive addr bytes => Sys2Proof.Machine.execFrameReceive addr bytes s
  | .glitchSensor => Sys2Proof.Machine.execGlitchSensor s
  | .allocationHandover base extent => Sys2Proof.Machine.execAllocationHandover base extent s
  | .peerAccessArrival device access => Sys2Proof.Machine.execPeerAccessArrival device access s

end Sys2Proof.Machine
end

