-- ==== Sys2Proof/Machine/Issue.lean ====
section
/-! DEFINITION. The cycle of the machine: what happens next, one thing at a time. A step takes the head of the agenda; when the
agenda is empty it plans one cycle, in which every unit that can act acts once (R30, R85, R87, R327; log entry 8). -/

namespace Sys2Proof.Machine

open Sys2Proof

/-! One micro-op of a matrix unit (R295, R300, R302, R312). -/

/-- The cursor of a matrix unit. -/
def unitCursor (s : State) (core : Nat) : Cursor :=
  { Cursor.initial with
    core := core, gid := match groupOn s core with
      | some g => g.gid
      | none => 0 }

/-- The next micro-op of a core's routine, once the banks have granted what it reads: a word that is none, or no word at all, is a
routine fault (R302, R312). -/
def unitCycle (s : State) (core : Nat) : State :=
  match (coreOf s core).mx.routine with
  | none => s
  | some r =>
    let s := { s with cur := unitCursor s core }
    if 2048 ≤ r.pc then routineFault s r 1
    else match decodeMicro (r.prog.getD r.pc 0).toNat with
      | .ok i => (microAsks s core r i).getD (runOp exec s i)
      | .error _ => routineFault s r 1

/-! One cycle passes (R1, R32, R355, R364, R407). -/

/-- The cycle as it counts on a group: residency and pauses in cycles of its clock, and the task limit in nanoseconds of device
time (R355, R361, R364, R432). -/
def tickGroup (ns : Nat) (s : State) (g : Group) : State :=
  let s := if clusterTicks s g.cluster then
      let s := g.all.foldl (fun s id => chargeTo s id g.gid 15 1) s
      if g.pauseCode = 0 then s else g.all.foldl (fun s id => chargeTo s id g.gid 14 1) s
    else s
  if g.saveMode || g.frozen.isSome then s else modGroup s g.gid fun g => { g with limitTicks := g.limitTicks + ns }

/-- The device clock one cycle on. -/
def passTime (s : State) : State := slewTick { s with now := s.now + 1 }

/-- One cycle of the arithmetic clock passes. -/
def tick (s : State) : State :=
  let s := s.groups.foldl (tickGroup (deviceClock (passTime s) - deviceClock s)) s
  judgeBounds (passTime { s with bankUsed := [] })

/-! The end of a cycle's traffic (R85, R106, R118, R197, R255). -/

/-- The banks that hold requests arbitrate, and then the remote accesses go on (R85, R118). -/
def banksAgenda (s : State) : List Act :=
  ((s.bankReqs.map fun r => (r.core, r.layer, r.bank)).dedup.map fun r => .unit .bankArbitration r.1 r.2.1 r.2.2)
    ++ (s.cores.filter fun e => !e.2.task.remotes.isEmpty).map fun e => .unit .remoteLoadDelivery e.1 0 0

/-- The arrivals of `barv` whose accesses have performed join those of the cycle (R255). -/
def takeLateArrivals (s : State) : State :=
  let ready (a : LateArrival) : Bool := accessesDone s a.core a.issued
  { s with
    arrivals := s.arrivals ++ (s.lateArrivals.filter ready).map fun a => (a.key, a.n),
    lateArrivals := s.lateArrivals.filter fun a => !ready a }

/-- What reached the barriers in the cycle: the arrivals of each barrier as one of their total, the faults, the initialisations in
column order (R106). -/
def settleBarriers (s : State) : State :=
  let arrivals := s.arrivals
  let marks := s.marks
  let starts := sortBy (fun a b : BarStart => decide (columnOf a.core ≤ columnOf b.core)) s.starts
  let s := { s with gather := false, arrivals := [], marks := [], starts := [] }
  let s := (arrivals.map Prod.fst).dedup.foldl (fun s k =>
    arriveNow s (k / 1024) (k % 1024) (((arrivals.filter fun a => a.1 == k).map Prod.snd).foldl (· + ·) 0)) s
  let s := marks.foldl (fun s m => markNow s (m.1 / 1024) (m.1 % 1024) m.2) s
  starts.foldl startBarrier s

/-- The offers that may be read now, of each core in issue order (R127, R197). -/
def takeOffers (s : State) : State :=
  s.offers.foldl (fun s o =>
    if o.ready s && (s.offers.find? fun x => x.core == o.core) == some o then makeOffer { s with offers := s.offers.erase o } o
    else s) s

/-- What the traffic of the cycle has brought about at the barriers and the sori. -/
def settle (s : State) : State := takeOffers (settleBarriers (takeLateArrivals s))

/-! The plan of a cycle (R30, R85, R327, R338; log entry 8). -/

/-- The queues a front end serves: enabled, or with packets that have not ended (R327). -/
def servedQueues (s : State) (cluster : Nat) : List Nat :=
  (List.range 64).filter fun q =>
    (queueOf s q).cluster == cluster && ((queueOf s q).enabled || !(packetsOf s q).isEmpty)

/-- The action a front end takes in a step among the queues of one set, in rotation after the one it served last (R327). -/
def rotateQueues (s : State) (key : Nat) (qs : List Nat) : Option (Nat × Nat × Instr) :=
  let last := lookup 63 s.feLast key
  ((List.range 64).map fun i => (last + 1 + i) % 64).findSome? fun q =>
    if qs.contains q then (queueAction s q).map fun i => (key, q, i) else none

/-- One step of a front end: P31 queues before the others (R327). -/
def frontStep (s : State) (cluster : Nat) : Option (Nat × Nat × Instr) :=
  let qs := servedQueues s cluster
  match rotateQueues s (2 * cluster) (qs.filter fun q => (queueOf s q).p31) with
  | some x => some x
  | none => rotateQueues s (2 * cluster + 1) (qs.filter fun q => !(queueOf s q).p31)

/-- The waits that are looked at (R326). -/
def waitPolls (s : State) : List Act :=
  (List.range 64).filterMap fun q => match nextPacket s q with
    | some p => if blockType p.words = 6 ∧ p.ready = false then some (.unit .waitPoll q 0 0) else none
    | none => none

/-- The steps of every front end, one in sixteen cycles (R327). -/
def frontSteps (s : State) : List (Nat × Nat × Instr) :=
  if s.now % 16 = 0 then (List.range 96).filterMap (frontStep s) else []

/-- What the sori do: dispatch, and steal where there is something to take (R338, R339). -/
def sorusActs (s : State) : List Act :=
  let busy := (s.dom.sori.filter fun e => !e.2.fronds.isEmpty || e.2.reservedFor.isSome).map Prod.fst
  let loot := s.dom.sori.any fun e => e.2.fronds.any (stealable false)
  (busy.map fun c => .unit .sorusDispatch c 0 0)
    ++ ((s.dom.sori.filter fun e => e.2.stealing.isSome).map fun e => .unit .stealTake e.1 0 0)
    ++ (if loot then ((List.range 96).filter (canSteal s)).map fun c => .unit .steal c 0 0 else [])

/-- What the groups do: a bundle where their clock ticks, and the end of a suspension point (R30, R33, R432, R435). -/
def groupActs (s : State) : List Act :=
  s.groups.flatMap fun g =>
    (if clusterTicks s g.cluster then [.bundle g.gid] else [])
      ++ (if g.susp.isSome then [.unit .suspensionPointComplete g.gid 0 0] else [])
      ++ (if limitReached s g then [.unit .taskLimitExpiry g.gid 0 0] else [])

/-- The drain buffers push, before an `mqclr` of the cycle (R298). -/
def drainActs (s : State) : List Act :=
  (s.cores.filter fun e => !e.2.mx.drain.isEmpty).map fun e => .unit .drainPush e.1 0 0

/-- What the units beside the cores' slots do: the matrix units. -/
def unitActs (s : State) : List Act :=
  s.cores.flatMap fun (id, c) =>
    (if c.mx.waiting.isSome && c.mx.routine.isNone then [.unit .mcallAccept id 0 0] else [])
      ++ (if c.mx.routine.isSome then [.micro id] else [])
      ++ (if s.dom.loads.any fun l => l.core == id then [.unit .mloadInstall id 0 0] else [])

/-- What the engines do: start, one unit of each running command, completion (R87). -/
def engineActs (s : State) : List Act :=
  s.dom.engines.flatMap fun (e, g) =>
    (if g.queue.isEmpty then [] else [.unit .engineCommandStart e 0 0])
      ++ g.running.flatMap fun c => [.advance e c.id 1, .unit .engineCommandCompletion e c.id 0]

/-- What is in flight arrives. -/
def flightActs (s : State) : List Act :=
  (s.globals.map fun x => .unit .globalAccessPerform x.id 0 0)
    ++ (s.inFlight.map fun m => .unit .messageArrival m.target 0 0)
    ++ (s.segCopies.map fun c => .unit .segmentCopyLands c.core c.slot 0)
    ++ (if s.cores.all fun e => e.2.lichen.tiles.isEmpty then [] else [.unit .rotDelivery 0 0 0])

/-- What recovery and the registers of the package do. -/
def packageActs (s : State) : List Act :=
  ([Doing.sealPeriodExpiry, .quiesceWindowExpiry, .sealCheckpoint, .quiescedReport, .readyReport, .egressGapExpiry,
    .sealTimeout].map fun k => .unit k 0 0 0)
    ++ (s.seals.settling.map fun n => .unit .settleWalkComplete n 0 0)
    ++ ((List.range 4).flatMap fun d => if (die s d).tlbinv.getLsbD 63 then [.unit .tlbinvComplete d 0 0] else [])
    ++ (if s.pkg.attctl.getLsbD 63 then [.unit .attestationComplete 0 0 0] else [])

/-- What repair does: a pass of the scrubber or the copy of a bank goes on. -/
def scrubActs (s : State) : List Act := s.scrubs.map fun x => .unit .scrubGrant x.id 0 0

/-- The agenda of one cycle: the egress entries of sealed intervals leave, the clock ratios that wait change, each unit that can
act acts once, what the banks granted in the last cycle before what the groups do in this one (R113), the banks grant, the
barriers settle, and the cycle passes. -/
def plan (s : State) : State :=
  let s := releaseEgress { s with gather := true }
  let fronts := frontSteps s
  let last := fronts.foldl (fun l x => assign l x.1 x.2.1) s.feLast
  { s with
    feLast := last,
    agenda := (List.range 4).flatMap (ratioChanges s) ++ (fronts.map fun x => Act.ev x.2.2) ++ (if s.now % 16 = 0 then waitPolls s else []) ++ sorusActs s
      ++ flightActs s ++ engineActs s ++ scrubActs s ++ drainActs s ++ groupActs s ++ unitActs s ++ [.banks, .settle]
      ++ packageActs s ++ [.tick] }

/-! A step. -/

/-- What still happens while the compute dies are held in reset (R427, R430, R435). -/
def actsHeld : Act → Bool
  | .ev (.coldBoot _) | .ev (.hostRead _ _ _) | .ev (.hostWrite _ _ _ _) | .ev (.alarmClear _) | .ev .attestationRequest
  | .ev .attestationComplete | .ev .glitchSensor | .unit .attestationComplete _ _ _ => true
  | _ => false

/-- A cycle in which the compute dies are held: time passes, and a report that was asked for is formed (R427, R428). -/
def heldCycle (s : State) : Outcome := execAttestationComplete (passTime s)

/-- An event that a unit makes by itself. -/
def runUnit (k : Doing) (a b c : Nat) (s : State) : Outcome :=
  match k with
  | .waitPoll => execWaitPoll a s
  | .sorusDispatch => execSorusDispatch a s
  | .steal => execSteal a s
  | .stealTake => execStealTake a s
  | .suspensionPointComplete => execSuspensionPointComplete a s
  | .taskLimitExpiry => execTaskLimitExpiry a s
  | .remoteLoadDelivery => execRemoteLoadDelivery a s
  | .rotDelivery => execRotDelivery a s
  | .mcallAccept => execMcallAccept a s
  | .drainPush => execDrainPush a s
  | .mloadInstall => execMloadInstall a s
  | .engineCommandStart => execEngineCommandStart a s
  | .engineCommandCompletion => execEngineCommandCompletion a b s
  | .globalAccessPerform => execGlobalAccessPerform a s
  | .messageArrival => execMessageArrival a s
  | .segmentCopyLands => execSegmentCopyLands a ⟨b % 4, Nat.mod_lt _ (by decide)⟩ s
  | .bankArbitration => execBankArbitration a b c s
  | .scrubGrant => .next (scrubGranted s a)
  | .sealPeriodExpiry => execSealPeriodExpiry s
  | .quiesceWindowExpiry => execQuiesceWindowExpiry s
  | .sealCheckpoint => execSealCheckpoint s
  | .quiescedReport => execQuiescedReport s
  | .readyReport => execReadyReport s
  | .egressGapExpiry => execEgressGapExpiry s
  | .sealTimeout => execSealTimeout s
  | .settleWalkComplete => execSettleWalkComplete a s
  | .farRatioChange => execClockRatioChange a true s
  | .midRatioChange => execClockRatioChange a false s
  | .tlbinvComplete => execTlbinvComplete a s
  | .attestationComplete => execAttestationComplete s

/-- One act. -/
def runAct (a : Act) (s : State) : Outcome :=
  match a with
  | .ev i => exec i s
  | .bundle gid => .next (groupCycle exec s gid)
  | .micro core => .next (unitCycle s core)
  | .advance e id n => .next (advanceCommand s e id n)
  | .unit k a b c => runUnit k a b c s
  | .banks => .next { s with agenda := banksAgenda s ++ s.agenda }
  | .settle => .next (settle s)
  | .tick => .next (tick s)

/-- The next step: the head of the agenda, or the plan of a cycle. A module held in reset drops all but what answers it, and
time passes. -/
def advance (s : State) : Outcome :=
  match s.agenda with
  | a :: rest =>
    let s := { s with agenda := rest }
    if s.pkg.held && !actsHeld a then .next s else runAct a s
  | [] => if s.pkg.held then heldCycle s else .next (plan s)

/-! A program placed by hand. -/

/-- The slot and the extension words with which a word of the opcode table decodes (R147). -/
def tableChoice (nbits w : Nat) : Option (Slot × List Nat) :=
  (tableSlots.flatMap fun sl => (decodeTableWord.extChoices nbits w).map fun e => (sl, e)).find? fun x =>
    match decodeSlot x.1 (field w 0 32) x.2 with
    | .ok _ => true
    | .error _ => false

/-- The header of a bundle that holds one slot with a number of extension words and pops the queues whose heads it reads
(R142, R151). -/
def headerOf (sl : Slot) (n : Nat) (heads : List Nat) : Nat :=
  2 ^ sl.index + (if sl = .c then n * 2 ^ 17 else n * 2 ^ (8 + sl.index))
    + heads.dedup.foldl (fun m q => m + 2 ^ (22 + q)) 0

/-- The words of the bundle that holds one operation (R142). -/
def bundleWords (sl : Slot) (w : Nat) (ext : List Nat) : List Nat :=
  let heads := match decodeSlot sl w ext with
    | .ok i => i.queueHeads
    | .error _ => []
  headerOf sl ext.length heads :: w :: ext

/-- The frond that runs a program placed by hand: a task of width 1 on core 0. -/
def placedFrond : Frond where
  ptr := 0
  space := 0
  launch := 0
  waits := [0, 0, 0, 0]
  faulted := 0
  st := .running
  ready := 0
  tie := 0
  priority := 0
  widthCode := 0
  stage := 0
  base := 0
  pinned := false
  roam := false
  twin := false
  lastSusp := 0
  cause := 0
  hold := none
  p31 := false
  broken := false

/-- The group of that frond, of a program with the privileged attribute. -/
def placedGroup (gid now : Nat) : Group where
  gid := gid
  members := [0]
  trailing := []
  twin := false
  frond := 0
  space := 0
  program := 0
  launch := 0
  priority := 0
  cluster := 0
  spill := 0
  privProgram := true
  counter := 0
  saveMode := false
  trailingSave := false
  saveCount := 0
  lastCause := 0
  pending := []
  susp := none
  stopping := none
  tiles := []
  pauseCode := 0
  pauseCount := 0
  frozen := none
  single := false
  limitTicks := 0
  boundaries := []
  lichenHold := false
  lichenCores := []
  dispatched := now
  signatures := []
  loads := []

/-- Core 0 runs a task at PC 0, with segment 0 of program 0 in overlay slot 0. -/
def placedCore (c : Core) : Core :=
  { c with
    task := { c.task with pc := 0, pend := [], remotes := [] },
    overlay := [⟨0, 0, 2⟩, ⟨0, 0, 0⟩, ⟨0, 0, 0⟩, ⟨0, 0, 0⟩],
    mx := { c.mx with routine := none, waiting := none, drain := [] } }

/-- Memory that holds program 0 and its segment 0, `len` bytes long: the program-table entry where PTBASE says, with the
valid bit and the privileged attribute, and the segment-table entry behind it (R170, R324). -/
def placedTables (s : State) (len : Nat) : List Host.Cell :=
  let at' := programEntryPA s 0
  let entry := leBytes 8 (2 ^ 63 + 2 ^ 62) ++ leBytes 8 (at' + 64) ++ leBytes 8 1 ++ leBytes 8 0
  let seg := leBytes 4 (2 ^ 31 + len) ++ leBytes 12 0
  writeCells (writeCells s.mem at' entry) (at' + 64) seg

/-- A bundle placed where core 0 issues its next one (log entry 24). -/
def placeBundle (s : State) (ws : List Nat) : State :=
  let bytes := ws.flatMap (leBytes 4)
  let s := { s with mem := writeCells (placedTables s bytes.length) (bundlePA 0 0) bytes }
  let s := modSorus (modCore s 0 placedCore) 0 fun so => { so with fronds := [placedFrond] }
  { s with
    pkg := { s.pkg with held := false },
    groups := (s.groups.filter fun g => !g.all.contains 0) ++ [placedGroup s.nextId s.now],
    nextId := s.nextId + 1, agenda := [.bundle s.nextId] }

/-- A micro-op placed as the next of the routine that core 0's matrix unit runs (log entry 24). -/
def placeMicro (s : State) (w : Nat) : State :=
  let r : Routine := ⟨List.replicate 16 0, 0x20008800, [BitVec.ofNat 32 w], List.replicate 8 0, 0, [], 0, true, false⟩
  let s := placeBundle s [0]
  { modCore s 0 fun c => { c with mx := { c.mx with routine := some r } } with agenda := [.micro 0] }

/-- An instruction of the opcode table placed so that the next step runs it: its slot word in a bundle of its own, a micro-op
in a routine; a word that decodes nowhere stands as a bundle. -/
def placeWord (s : State) (nbits w : Nat) : State :=
  match tableChoice nbits w with
  | some (.micro, _) => placeMicro s (field w 0 32)
  | some (sl, ext) => placeBundle s (bundleWords sl (field w 0 32) ext)
  | none => placeBundle s [field w 0 32]

end Sys2Proof.Machine
end

