-- ==== Sys2Proof/Machine/Step.lean ====
section
/-! DEFINITION. One step of the machine, and a program placed by hand (log entries 8 and 24). -/

namespace Sys2Proof.Machine

open Sys2Proof

/-- One step: the head of the agenda, or the plan of the next cycle. -/
def step (s : State) : Host.Outcome State Fault Refusal := advance s

/-- `s` with an instruction of the opcode table as what the next step runs. -/
def State.withFetchWord (s : State) (nbits w : Nat) : State := placeWord s nbits w

end Sys2Proof.Machine
end

