-- ==== Sys2Proof/Safety.lean ====
section
/-! DEFINITION. What counts as a safe run, and the terms in which claims say what an operation leaves unchanged. -/

namespace Sys2Proof.Machine

open Sys2Proof

/-- The machine goes on: no error of the spec ends a run, each is a trap, a rollback, a report or an alarm (R350, R379). -/
def GoesOn (o : Outcome) : Prop := ∃ t, o = .next t

/-- What a safe run keeps: memory in its canonical form, so that equal memories are equal data. -/
def Sound (s : State) : Prop := Memory.wf s.mem

/-- Every state that a number of steps reach is sound. -/
def SafeRun (k : Nat) (s : State) : Prop :=
  match k with
  | 0 => Sound s
  | n + 1 => Sound s ∧ ∃ t, step s = .next t ∧ SafeRun n t

/-! Frames. -/

/-- Every byte reads as before. -/
def SameMemory (s t : State) : Prop := ∀ a, readByte t a = readByte s a

/-- An address outside `n` bytes at another, where the accesses are made. -/
def Outside (s : State) (pa n a : Nat) : Prop := homeOf s a < homeOf s pa ∨ homeOf s pa + n ≤ homeOf s a

/-- An address outside the trace ring, while tracing is on: a request for a seal writes its record there (R377, R408, R409). -/
def OutsideRing (s : State) (a : Nat) : Prop :=
  s.pkg.trctl.getLsbD 63 = true → ∀ k < 2 ^ bits s.pkg.trctl 32 5, Outside s (bits s.pkg.trbase 5 47 * 32 + 32 * k) 32 a

/-- Every byte outside `n` bytes at an address, and outside the trace ring, reads as before. -/
def SameMemoryBut (s t : State) (pa n : Nat) : Prop :=
  ∀ a, Outside s pa n a → OutsideRing s a → readByte t a = readByte s a

/-- Every task context keeps all but its energy count. -/
def KeepsTasks (s t : State) : Prop := ∀ j, taskOf t j = { taskOf s j with energy := (taskOf t j).energy }

/-- Every task context keeps all but its energy count and the old bytes that others still see of its column (R124, R141). -/
def KeepsContexts (s t : State) : Prop :=
  ∀ j, taskOf t j = { taskOf s j with
    energy := (taskOf t j).energy, hidden := (taskOf t j).hidden, veiled := (taskOf t j).veiled }

/-- A command without the bytes it keeps of its issuer's column (R117). -/
def Command.bare (c : Command) : Command := { c with kept := [] }

/-- The commands of an engine, those that wait and those that run, but for the bytes they keep. -/
def bareEngine (s : State) (key : Nat) : List Command × List Command :=
  let e := lookup Engine.initial s.dom.engines key
  (e.queue.map Command.bare, e.running.map Command.bare)

/-- Every engine has its commands as before, but for the bytes they keep (R117). -/
def KeepsEngines (s t : State) : Prop := ∀ key, bareEngine t key = bareEngine s key

/-- What a store leaves alone: task contexts, groups, barriers, sori, Croziers, engines, packets, launches. -/
def KeepsAllButMemory (s t : State) : Prop :=
  KeepsContexts s t ∧ KeepsEngines s t ∧ t.groups = s.groups ∧ t.dom.barriers = s.dom.barriers ∧ t.dom.sori = s.dom.sori
    ∧ t.dom.croziers = s.dom.croziers ∧ t.dom.packets = s.dom.packets ∧ t.dom.launches = s.dom.launches

/-- The change of the issuing core's task context, the cursor after it, and nothing else but energy: every register, flag,
mode, queue, accumulator and counter of every other core, all of memory, every barrier, sorus, engine and register of the
package is as before. -/
def OnTask (s t : State) (cur : Cursor) (f : Task → Task) : Prop :=
  t = { s with cores := t.cores, cur := cur } ∧
    ∀ j, coreOf t j = { coreOf s j with
      charged := (coreOf t j).charged,
      task := { (if j = s.cur.core then f (taskOf s j) else taskOf s j) with energy := (taskOf t j).energy } }

/-- An operation put one result in flight on the issuing core, and changed nothing else but energy: no register, predicate,
latch or flag changes until the result falls due (R31). -/
def Issued (s t : State) (p : Pending) : Prop :=
  OnTask s t { s.cur with sig := t.cur.sig } fun k => { k with pend := k.pend ++ [p], order := k.order + 1 }

/-- A result of the issuing core: its slot, its latency, its latch entry, what it writes, the flags it raises, whether it
holds poisoned data. -/
def resultOf (s : State) (slot lat : Nat) (latch : Option Latched) (ds : List Dest) (flags : Word) (bad : Bool) : Pending :=
  ⟨s.cur.cycle + lat, slot, (curTask s).order, latch, ds, flags, bad⟩

/-- A transfer was taken, and nothing else changed but energy (R182). -/
def Transferred (s t : State) (target : Word) : Prop := OnTask s t { s.cur with target := some target } id

/-- An operation of an instruction that issues completes: whenever its guard holds and its checks find nothing, it answers a
next state of which `after` holds. -/
def Completes (ex : Meaning) (s : State) (i : Instr) (after : State → Prop) : Prop :=
  issues i s = true → ∃ t, ex i s = .next t ∧ after t

end Sys2Proof.Machine
end

