-- ==== Sys2Proof/WellFormed.lean ====
section
/-! DEFINITION. Well-formed instructions: the relations between the fields of a constructor that its type does not
say, each from the rule that gives the form. Every well-formed instruction has words that decode to it; a term that breaks a
check has none. -/

namespace Sys2Proof

/-- The C slot takes scalar predicate guards only (R147). -/
def scalarGuard : Guard → Bool
  | .p _ => true
  | .t _ => false

/-- A target in an extension word is a multiple of 4 (R183). -/
def aligned (v : Word) : Bool := v.toNat % 4 == 0

/-- Two literals of one word are the same (R155). -/
def agreeS (x y : SSrc) : Bool :=
  match x.literal, y.literal with
  | some a, some b => a == b
  | _, _ => true

/-- Two literals of one word are the same (R155). -/
def agreeV (x y : VSrc) : Bool :=
  match x.literal, y.literal with
  | some a, some b => a == b
  | _, _ => true

/-- Neither source is a literal (R155). -/
def noLitS (x y : SSrc) : Bool := x.literal.isNone && y.literal.isNone

/-- A source register of the F and N slots lies in 0 to 15 (R149). -/
def low : SSrc → Bool
  | .reg r => r.val < 16
  | _ => true

/-- The fields of a tree that its shape leaves unused are zero (R187). -/
def treeOk (sh : Fin 8) (q1 q2 q3 : Fin 16) (t1 t2 t3 : BitVec 16) : Bool :=
  let uses := shapeUses sh
  (decide (2 ≤ uses.1) || q1 == 0) && (decide (3 ≤ uses.1) || q2 == 0) && (decide (4 ≤ uses.1) || q3 == 0)
    && (decide (2 ≤ uses.2) || t1 == 0) && (decide (3 ≤ uses.2) || t2 == 0) && (decide (4 ≤ uses.2) || t3 == 0)

/-- The format of the absent test has an absent code (R232). -/
def skipOk : Option MaskedStore → Bool
  | some ⟨_, _, _, some f⟩ => f.hasAbsent
  | _ => true

/-- A witness stands only beside sources that are not literals, and outside the pair (R274). -/
def witnessOk (k : Fin 8) (a b : VSrc) : Option (Fin 16) → Bool
  | none => true
  | some w => a.literal.isNone && b.literal.isNone && !(w.val / 2 == k.val)

/-- The well-formed instructions. -/
def Instr.wf : Instr → Bool
  | .jmp g _ => scalarGuard g
  | .jmpl g target => scalarGuard g && aligned target
  | .jr g _ => scalarGuard g
  | .call g _ => scalarGuard g
  | .calll g target => scalarGuard g && aligned target
  | .ret g => scalarGuard g
  | .mbr g shape _ q1 q2 q3 _ t1 t2 t3 => scalarGuard g && treeOk shape q1 q2 q3 t1 t2 t3
  | .loop g _ _ => scalarGuard g
  | .loopi g _ _ => scalarGuard g
  | .lexit g => scalarGuard g
  | .susp g _ _ => scalarGuard g
  | .suspTarget g target _ => scalarGuard g && aligned target
  | .endTask g => scalarGuard g
  | .spawn g _ _ => scalarGuard g
  | .spawnn g _ _ _ => scalarGuard g
  | .setfmt g _ => scalarGuard g
  | .setfmtValue g _ => scalarGuard g
  | .qwait g => scalarGuard g
  | .drain g => scalarGuard g
  | .trap g _ => scalarGuard g
  | .rft g _ => scalarGuard g
  | .csrr g _ csr => scalarGuard g && csrListed csr.toNat
  | .csrw g _ csr => scalarGuard g && csrListed csr.toNat
  | .csrwValue g csr _ => scalarGuard g && csrListed csr.toNat
  | .rgopen g _ => scalarGuard g
  | .rgclose g => scalarGuard g
  | .seal g => scalarGuard g
  | .irrev g _ => scalarGuard g
  | .irrevTarget g target => scalarGuard g && aligned target
  | .lshare g share => scalarGuard g && decide (share.toNat ≤ 64)
  | .brk g _ => scalarGuard g
  | .xmovC g _ fl d => scalarGuard g && fl.acceptsXmov d.val
  | .kli g _ _ => scalarGuard g
  | .kliLong g _ _ => scalarGuard g
  | .add _ _ _ x y => agreeS x y
  | .sub _ _ _ x y => agreeS x y
  | .and _ _ _ x y => agreeS x y
  | .or _ _ _ x y => agreeS x y
  | .xor _ _ _ x y => agreeS x y
  | .andn _ _ _ x y => agreeS x y
  | .sll _ _ _ x y => agreeS x y
  | .srl _ _ _ x y => agreeS x y
  | .sra _ _ _ x y => agreeS x y
  | .rol _ _ _ x y => agreeS x y
  | .min _ _ _ x y => agreeS x y
  | .max _ _ _ x y => agreeS x y
  | .minu _ _ _ x y => agreeS x y
  | .maxu _ _ _ x y => agreeS x y
  | .mul _ _ _ x y => agreeS x y
  | .mulh _ _ _ x y => agreeS x y
  | .mulhu _ _ _ x y => agreeS x y
  | .div _ _ _ x y => agreeS x y
  | .divu _ _ _ x y => agreeS x y
  | .rem _ _ _ x y => agreeS x y
  | .remu _ _ _ x y => agreeS x y
  | .li _ _ _ _ => true
  | .bfx _ _ _ x y => agreeS x y
  | .bfxu _ _ _ x y => agreeS x y
  | .bfi _ _ _ x y => agreeS x y
  | .clz _ _ _ _ => true
  | .ctz _ _ _ _ => true
  | .popc _ _ _ _ => true
  | .sel _ _ _ _ x y => agreeS x y
  | .cmp _ _ _ _ x y => agreeS x y
  | .lea _ _ _ x y _ => agreeS x y
  | .xmovAB _ _ fl d _ => fl.acceptsXmov d.val
  | .xmovpGet _ _ _ => true
  | .xmovpSet _ _ _ _ => true
  | .sxt _ _ _ _ _ => true
  | .zxt _ _ _ _ _ => true
  | .abs _ _ _ _ => true
  | .bswap _ _ _ _ => true
  | .brev _ _ _ _ => true
  | .cmpu _ _ _ _ x y => agreeS x y
  | .ldb _ fl d x y => fl.acceptsLoad d.val && agreeS x y
  | .ldbu _ fl d x y => fl.acceptsLoad d.val && agreeS x y
  | .ldh _ fl d x y => fl.acceptsLoad d.val && agreeS x y
  | .ldhu _ fl d x y => fl.acceptsLoad d.val && agreeS x y
  | .ldw _ fl d x y => fl.acceptsLoad d.val && agreeS x y
  | .ldd _ _ x y => agreeS x y
  | .stb _ fl d x y => fl.accepts d.val && agreeS x y
  | .sth _ fl d x y => fl.accepts d.val && agreeS x y
  | .stw _ fl d x y => fl.accepts d.val && agreeS x y
  | .std _ _ x y => agreeS x y
  | .vld _ _ _ x y ext => agreeS x y && (ext.isNone || noLitS x y)
  | .vst _ _ _ x y ext => agreeS x y && (ext.isNone || noLitS x y)
  | .vldth _ _ _ x y ext => agreeS x y && (ext.isNone || noLitS x y)
  | .rld _ fl d x y => fl.acceptsLoad d.val && agreeS x y
  | .rst _ fl d x y => fl.accepts d.val && agreeS x y
  | .rvld _ _ _ x y ext => agreeS x y && (ext.isNone || noLitS x y)
  | .rvst _ _ _ x y ext => agreeS x y && (ext.isNone || noLitS x y)
  | .qst _ _ x y => agreeS x y
  | .gld _ _ x y _ _ => noLitS x y
  | .gst _ _ x y _ _ => noLitS x y
  | .gatom _ _ x y aop w64 _ => noLitS x y && !(aop.val == 3 && w64)
  | .mli _ _ _ => true
  | .madd _ _ x y => agreeS x y
  | .xmovM _ fl d _ => fl.acceptsXmov d.val
  | .irst _ fl d x y _ => fl.accepts d.val && noLitS x y
  | .vstm _ _ _ x y ext => agreeS x y && (ext.isNone || noLitS x y) && skipOk ext
  | .pld _ _ x y => agreeS x y
  | .pst _ _ x y => agreeS x y
  | .vadd _ _ ef _ a b => ef.isElement && agreeV a b
  | .vsub _ _ ef _ a b => ef.isElement && agreeV a b
  | .vmul _ _ ef _ a b => ef.isElement && agreeV a b
  | .vfma _ _ ef _ a b => ef.isElement && agreeV a b
  | .vfms _ _ ef _ a b => ef.isElement && agreeV a b
  | .vfnma _ _ ef _ a b => ef.isElement && agreeV a b
  | .vmin _ _ ef _ a b => ef.isElement && agreeV a b
  | .vmax _ _ ef _ a b => ef.isElement && agreeV a b
  | .vabs _ _ ef _ _ => ef.hasAbsent
  | .vneg _ _ ef _ _ => ef.hasAbsent
  | .vdiv _ _ ef _ a b => ef.isElement && agreeV a b
  | .vrcp _ _ ef _ _ => ef.isFloat
  | .vsqrt _ _ ef _ _ => ef.isFloat
  | .vrsqrt _ _ _ _ => true
  | .vexp2 _ _ _ _ => true
  | .vlog2 _ _ _ _ => true
  | .vsin _ _ _ _ => true
  | .vcos _ _ _ _ => true
  | .vtanh _ _ _ _ => true
  | .vround _ _ ef _ _ => ef.isFloat
  | .vtrunc _ _ ef _ _ => ef.isFloat
  | .vcvt _ _ ef sf d _ h => ef.hasAbsent && sf.hasAbsent && ef != sf && convertOk ef sf d h.val
  | .vcmpeq _ _ ef k a b wit => ef.isCompare && agreeV a b && witnessOk k a b wit
  | .vcmpne _ _ ef k a b wit => ef.isCompare && agreeV a b && witnessOk k a b wit
  | .vcmplt _ _ ef k a b wit => ef.isCompare && agreeV a b && witnessOk k a b wit
  | .vcmple _ _ ef k a b wit => ef.isCompare && agreeV a b && witnessOk k a b wit
  | .vcmpgt _ _ ef k a b wit => ef.isCompare && agreeV a b && witnessOk k a b wit
  | .vcmpge _ _ ef k a b wit => ef.isCompare && agreeV a b && witnessOk k a b wit
  | .vsel _ _ _ _ a b => agreeV a b
  | .vmov _ _ _ _ => true
  | .vbcast _ _ _ _ _ => true
  | .vpbc _ _ k _ => decide (4 ≤ k.val)
  | .vperm _ _ _ a x => agreeV a x
  | .gxch _ _ _ a _ => a.literal.isNone
  | .vxld _ _ _ a x _ => a.literal.isNone && x.literal.isNone
  | .vsum _ _ ef _ _ => ef.isElement
  | .vsumc _ _ ef _ _ => ef.isSum
  | .vrmin _ _ ef _ _ => ef.isElement
  | .vrmax _ _ ef _ _ => ef.isElement
  | .vpack _ _ ef _ _ => ef.isBlock
  | .vunpk _ _ ef _ _ => ef.isBlock
  | .visab _ _ ef _ _ => ef.hasAbsent
  | .vmkab _ _ ef _ _ _ => ef.hasAbsent
  | .vand _ _ ef _ a b => ef.isRaw && agreeV a b
  | .vor _ _ ef _ a b => ef.isRaw && agreeV a b
  | .vxor _ _ ef _ a b => ef.isRaw && agreeV a b
  | .vshl _ _ ef _ a b => ef.isRaw && agreeV a b
  | .vshr _ _ ef _ a b => ef.isRaw && agreeV a b
  | .vsra _ _ ef _ a b => ef.isRaw && agreeV a b
  | .vpand _ _ _ _ _ => true
  | .vpor _ _ _ _ _ => true
  | .vpxor _ _ _ _ _ => true
  | .vpnot _ _ _ _ => true
  | .vlane _ _ _ => true
  | .vscl _ _ ef _ a b => ef.isFloat && agreeV a b
  | .vclamp _ _ ef _ a b => ef.isElement && agreeV a b
  | .vsgnj _ _ ef _ a b => ef.isFloat && agreeV a b
  | .vsigm _ _ _ _ => true
  | .vpcnt _ _ _ _ => true
  | .xmovV u lp fl d _ => File.acceptsFromVector u lp.val fl d.val
  | .mcall _ _ => true
  | .mload _ _ _ => true
  | .xli _ _ _ => true
  | .xlih _ _ _ => true
  | .xadd _ _ _ _ => true
  | .xins _ _ _ pos len1 => decide (pos.val + len1.val + 1 ≤ 64)
  | .xmovX _ _ fl d _ => fl.acceptsFromX d.val
  | .mqclr _ _ => true
  | .mcancel _ => true
  | .cpy _ _ x y _ _ _ => low x && low y && agreeS x y
  | .cpy2d _ _ x y _ _ _ => low x && low y && agreeS x y
  | .cpyt _ _ x y _ _ _ => low x && low y && agreeS x y
  | .cpyg _ _ x y _ _ _ => low x && low y && agreeS x y
  | .cpys _ _ x y _ _ _ => low x && low y && agreeS x y
  | .strm _ _ x y _ _ _ => low x && low y && agreeS x y
  | .strmx _ _ x y _ _ _ => low x && low y && agreeS x y
  | .cpyx _ _ x y _ _ _ => low x && low y && agreeS x y
  | .mcast _ _ x y _ _ _ => low x && low y && agreeS x y
  | .rot _ x y _ _ _ _ => low x && low y && noLitS x y
  | .binit _ x y _ => low x && low y && agreeS x y
  | .bidle _ x => low x
  | .barv _ x y => low x && low y && agreeS x y
  | .qpush _ x y _ => low x && low y && agreeS x y
  | .tsort _ _ x y _ _ _ => low x && low y && agreeS x y
  | .fli _ _ x => low x
  | .fadd _ _ x y => low x && low y && agreeS x y
  | .fsub _ _ x y => low x && low y && agreeS x y
  | .fsll _ _ x y => low x && low y && agreeS x y
  | .xmovF _ fl d x => fl.acceptsXmov d.val && low x
  | .cpstat _ _ x => low x
  | .cpfill _ _ x y _ _ _ => low x && low y && agreeS x y
  | .sqcfg _ _ x y _ _ _ => low x && low y && agreeS x y
  | .sqbind _ _ x y _ _ _ => low x && low y && agreeS x y
  | .sqstage _ _ x y _ _ _ => low x && low y && agreeS x y
  | .sqtake _ _ x y _ _ _ => low x && low y && agreeS x y
  | .sqjudge _ _ y _ _ _ => low y
  | .sqstat _ _ x y _ _ _ => low x && low y && agreeS x y
  | .bnet _ _ x y _ => low x && low y && agreeS x y
  | .bnld _ x y _ => low x && low y && agreeS x y
  | .nfill _ _ x _ => low x
  | .nli _ _ x => low x
  | .nadd _ _ x y => low x && low y && agreeS x y
  | .xmovN _ fl d x => fl.acceptsXmov d.val && low x
  | .idleBundle => true
  | .loopEndMark => true
  | .segmentMark => true
  | .queuePop mask => mask != 0
  | .mend => true
  | .mstep _ => true
  | .mclr => true
  | .mloop _ _ => true
  | .mloopZ _ _ _ => true
  | .mendl => true
  | .madv _ _ => true
  | .madvParam _ _ => true
  | .mshape => true
  | .mdrain _ _ => true
  | .mwaitb _ _ => true
  | .msig _ _ => true
  | .mset _ _ => true
  | .msetParam _ _ => true
  | .mmad _ _ _ => true
  | .mskz _ n => n != 0
  | .mjmp _ => true
  | .mnop => true
  | .mfence => true
  | .mcallAccept _ => true
  | .drainPush _ => true
  | .mloadInstall _ => true
  | .nopPacket _ => true
  | .launchPacket _ => true
  | .graphPacket _ => true
  | .sealPacket _ => true
  | .copyPacket _ => true
  | .signalPacket _ => true
  | .waitPacket _ => true
  | .fencePacket _ => true
  | .waitPoll _ => true
  | .packetAcceptance _ => true
  | .packetCompletion _ => true
  | .graphNodeDispatch _ _ => true
  | .qtailNotification _ _ => true
  | .queueEnable _ _ => true
  | .queueDisable _ _ => true
  | .handleEntryWrite _ _ _ _ => true
  | .tlbinvAll _ => true
  | .tlbinvProgram _ _ => true
  | .tlbinvPage _ _ _ => true
  | .tlbinvComplete _ => true
  | .attestationRequest => true
  | .attestationComplete => true
  | .debugUnlock => true
  | .debugStopRequest _ => true
  | .debugPreemptRequest _ => true
  | .debugResume _ => true
  | .dbgdataWrite _ _ => true
  | .replayGo _ => true
  | .traceEnable _ => true
  | .alarmClear _ => true
  | .lclkWrite _ _ => true
  | .clockRatioChange _ _ => true
  | .wdcfgWrite _ => true
  | .cstateWrite _ _ => true
  | .lossCounterClear _ _ _ => true
  | .registerWrite _ _ => true
  | .hostRead _ _ _ => true
  | .hostWrite _ _ _ _ => true
  | .coldBoot _ => true
  | .selfTest _ => true
  | .functionLevelReset => true
  | .resultDue _ => true
  | .remoteLoadDelivery _ => true
  | .bankArbitration _ _ _ => true
  | .lichenCycle _ _ => true
  | .rotDelivery _ => true
  | .messageArrival _ => true
  | .pageTableWalk _ _ _ => true
  | .globalAccessPerform _ => true
  | .engineCommandStart _ => true
  | .engineCommandCompletion _ _ => true
  | .segmentCopyLands _ _ => true
  | .sorusDispatch _ => true
  | .steal _ => true
  | .stealTake _ => true
  | .suspensionPointComplete _ => true
  | .trapVectoring _ => true
  | .taskLimitExpiry _ => true
  | .saveModeCutoff _ => true
  | .rollback => true
  | .sealPeriodExpiry => true
  | .sealRequestMessage _ => true
  | .quiesceWindowExpiry => true
  | .sealCheckpoint => true
  | .quiescedReport => true
  | .quiescedMessage _ => true
  | .cutMessage => true
  | .readyReport => true
  | .readyMessage _ => true
  | .commitMessage => true
  | .abortMessage => true
  | .sealTimeout => true
  | .settleWalkComplete _ => true
  | .egressGapExpiry => true
  | .scrubPass _ _ _ _ _ => true
  | .bankSubstitutionComplete _ _ _ _ => true
  | .quarantineTest _ _ => true
  | .ptmMeasurement _ _ => true
  | .thermalSample _ _ _ => true
  | .clockThrottle _ _ => true
  | .flitRetry _ => true
  | .linkDown _ => true
  | .peerUnreachable _ => true
  | .frameReceive _ _ => true
  | .glitchSensor => true
  | .allocationHandover _ _ => true
  | .peerAccessArrival _ _ => true

/-- The instruction is well formed. -/
abbrev WellFormed (i : Instr) : Prop := i.wf = true

end Sys2Proof
end

