-- ==== Sys2Proof/Certificates/Slice0/Obligations.lean ====
section
/-! DEFINITION. The statements: what the rules of the spec say an instruction or the machine does, as propositions over the
model. -/

namespace Sys2Proof.Machine

open Sys2Proof

/-- A result of a scalar unit put in flight: its latch entry and its register (R150, R164). -/
def GivesScalar (s : State) (i : Instr) (fl : File) (slot lat d : Nat) (v : Word) : Prop :=
  Completes exec s i fun t => Issued s t (resultOf s slot lat (some (.scalar fl v)) (regDest fl d v) 0 false)

/-- A result put in flight that enters no latch stack (R16). -/
def GivesOnly (s : State) (i : Instr) (slot lat : Nat) (ds : List Dest) : Prop :=
  Completes exec s i fun t => Issued s t (resultOf s slot lat none ds 0 false)

/-- An operation acts on the task of the issuing core and its cursor, and on nothing else but energy. -/
def ActsOn (s : State) (i : Instr) (cur : Cursor) (f : Task → Task) : Prop :=
  Completes exec s i fun t => OnTask s t cur f

/-- What the exit of a hardware loop leaves on the trace while type 5 is traced and the core's path has room (R192, R409, R413):
one record, one more for each four loss counters of which one rose since the last exit, and one before them when records were
lost; the counters are then the last reported. A record that stands alone names the bundle, the cycle, the core, the loop's
start, and no counter. -/
def LeavesSnapshot (s t : State) (key : Word) : Prop :=
  let c := coreOf s s.cur.core
  let rose := (List.range 96).filter fun n => (List.range 4).any fun i =>
    decide (lookup 0 c.lossSeen (4 * n + i) < lookup 0 c.loss (4 * n + i))
  let ring := bits s.pkg.trbase 5 47 * 32 + 32 * (s.pkg.trhead % 2 ^ bits s.pkg.trctl 32 5)
  t.pkg.trhead = s.pkg.trhead + (if c.traceDropped = 0 then 0 else 1) + 1 + rose.length
    ∧ (coreOf t s.cur.core).lossSeen = c.loss ∧ (coreOf t s.cur.core).loss = c.loss
    ∧ (Sound s → rose = [] → c.traceDropped = 0 → ring + 32 ≤ lpddrSize → readBytes t ring 32 = leBytes 32
        (deviceTime s + s.cur.pc.toNat * 2 ^ 64 + s.cur.cycle % 2 ^ 32 * 2 ^ 96 + s.cur.core * 2 ^ 128 + 5 * 2 ^ 144
          + c.traceSeq % 256 * 2 ^ 152 + key.toNat * 2 ^ 160))

/-- An operation acts on the task of the issuing core and its cursor, and on nothing else but energy and the signature of its
bundle (R385). -/
def ActsSigned (s : State) (i : Instr) (cur : Cursor) (f : Task → Task) : Prop :=
  Completes exec s i fun t => OnTask s t { cur with sig := t.cur.sig } f

/-- A record for which the core's path has no room is dropped and counted, and the loss counters stay as they are (R410). -/
def DropsRecord (s t : State) : Prop :=
  t.pkg = { s.pkg with trlost := min (s.pkg.trlost + 1) (2 ^ 64 - 1) } ∧ SameMemory s t
    ∧ (coreOf t s.cur.core).traceDropped = (coreOf s s.cur.core).traceDropped + 1
    ∧ (coreOf t s.cur.core).lossSeen = (coreOf s s.cur.core).lossSeen

/-- A loop is left: the issuing core's task changes, the exit goes on the trace, and nothing else changes but energy and the
signature of the bundle. -/
def LeavesLoop (s t : State) (cur : Cursor) (f : Task → Task) (key : Word) : Prop :=
  t.cur = { cur with sig := t.cur.sig } ∧ t.groups = s.groups ∧ t.dom = s.dom
    ∧ (∀ j, taskOf t j = { (if j = s.cur.core then f (taskOf s j) else taskOf s j) with energy := (taskOf t j).energy })
    ∧ (∀ a, OutsideRing s a → readByte t a = readByte s a)
    ∧ (traced s 5 = true → if Config.tracePathFull s.cur.core s.now = true then DropsRecord s t else LeavesSnapshot s t key)

/-- Every queue head an operation reads is popped by its bundle and holds an entry. -/
def HeadsReady (s : State) (i : Instr) : Prop :=
  ∀ q ∈ i.queueHeads, s.cur.pop.getLsbD q = true ∧ queueEmpty s q = false

/-- A cause taken at issue: the group is vectored, once the remote loads and the tiles that it has in flight have completed. Until
then it stands stopped for the cause (R351 steps 1 and 2). -/
def taken (s : State) (g : Group) (c : Cause) : State := if drainsStill s g then stopGroup s g c else vector s g c

/-- An operation of a task, issued by itself with a true guard, takes an exception: its group takes a cause with a detail that arose
on the issuing member, at the bundle's own address (R146, R349). -/
def TakesTrap (s : State) (i : Instr) (code detail : Nat) : Prop :=
  ∀ g : Group, s.cur.checked = false → s.cur.lichen = false → groupOf s s.cur.gid = some g → guarded s i = true →
    HeadsReady s i → exec i s = .next (taken s g ⟨code, detail, [g.rankOf s.cur.core], some s.cur.pc⟩)

/-- The near address of an M-slot access: x + y modulo 2^32 (R224). -/
def nearAddr (s : State) (x y : SSrc) : Nat := (srcVal s .m x + srcVal s .m y).toNat

/-- The issuing core is one of the package's 4 dies of 1,152 columns (R9, R10). -/
def RealCore (s : State) : Prop := s.cur.core < 8192 ∧ s.cur.core % 2048 < 1152

/-- A near access of `n` bytes lies in the near layer. -/
def InNear (s : State) (x y : SSrc) (n : Nat) : Prop := RealCore s ∧ nearAddr s x y + n ≤ 262144


/-- The undo log of every die has room for a number of entries, or nothing is logged (R373, R374). -/
def Roomy (s : State) (n : Nat) : Prop := logEnabled s = false ∨ ∀ d, logUsed s d + n ≤ logCapacity s

/-- A store of bytes to the own column: they are there afterwards, every other byte outside the trace ring reads as before, and
nothing but memory, its logs, what others still see of it, the seal machine and energy has changed. A log with no room for its
entries makes it an error that only a rollback answers (R373), and nothing is written (DEDUCED: log entry 59). Before is the state
in which the core's own remote stores to this column stand there, when the scope is above 0 (DESIGN CHOICE: log entry 7). -/
def StoresNear (s : State) (i : Instr) (ea : Nat) (bs : List Byte) : Prop :=
  let u := ownStands s
  Completes exec s i fun t =>
    (Roomy u 4 →
      (∀ j, j < bs.length → readByte t (nearPA s.cur.core ea + j) = bs.getD j 0)
        ∧ SameMemoryBut u t (nearPA s.cur.core ea) bs.length ∧ KeepsAllButMemory u t)
      ∧ (logFull u (writerOf s) (linesOf (nearPA s.cur.core ea) bs.length) = true →
          SameMemory u t ∧ t.agenda = .ev .rollback :: u.agenda ∧ KeepsAllButMemory u t)

/-- A remote access of the issuing core goes in flight, due 24 schedule cycles later, and nothing else changes but energy and the
signature. It asks the member's banks at once where it may start: no `drain` holds it, its context is a task's, and it is a load
or its core acts outside (R71, R85, R118, R124, R386). A load at a scope above 0 is an acquire, and no access is bound as it issues
(R122). -/
def GoesRemote (s : State) (i : Instr) (target : Nat) (rows : List Nat) (acts : Bool) (op : RemoteOp) : Prop :=
  let core := s.cur.core
  Completes exec s i fun t =>
    let order := (curTask s).order
    let late := fenced s core s.now
    let asks := !late && !s.cur.lichen && acts
    t = { s with
          cores := t.cores, cur := { s.cur with sig := t.cur.sig },
          bankReqs := if asks then
            s.bankReqs ++ rows.map fun a => ⟨target, 2, a / 8192 % 32, 7, 8192 * order + core, 0⟩ else s.bankReqs }
      ∧ ∀ j, coreOf t j = { coreOf s j with
          charged := (coreOf t j).charged,
          task := { (if j = core then { taskOf s j with
              remotes := (taskOf s j).remotes ++
                [⟨s.cur.cycle + 24, order, s.now, target, op, asks, op.isLoad && s.cur.scope != 0, none, false⟩],
              order := order + 1 } else taskOf s j) with energy := (taskOf t j).energy } }

/-- A vector result put in flight: every active lane as computed, the others as held; the lanes enter the unit's latch stack,
and the flags of the active lanes come with them (R16, R55, R150, R153, R268). -/
def GivesLanes (s : State) (u : UnitVW) (i : Instr) (lp : Fin 16) (lat : Nat) (d : VDst) (v : Nat → Word × Nat) : Prop :=
  let act := readVPred (curTask s) lp.val
  let held (k : Nat) : Word := match d with
    | .reg r => (readLanes (curTask s) u r.val).getD k 0
    | .latchOnly => BitVec.allOnes 32
  let l : Lanes := (List.range 128).map fun k => if act.getLsbD k then (v k).1 else held k
  let fl := joinFlags ((List.range 128).map fun k => if act.getLsbD k then (v k).2 else 0)
  Completes exec s i fun t => Issued s t (resultOf s (UnitVW.slot u) lat (some (.vector u l))
    (match d with
      | .reg r => [.lanes u r.val l act]
      | .latchOnly => []) (stickyFlags fl) false)

/-- Lane `k` of a vector source. -/
def laneVal (s : State) (u : UnitVW) (a : VSrc) (k : Nat) : Word := (srcLanes s u a).getD k 0

/-- A vector predicate pair put in flight with its complement (R15, R164). -/
def GivesPairMask (s : State) (u : UnitVW) (i : Instr) (lp : Fin 16) (k : Fin 8) (c : Nat → Bool) (more : List Dest)
    (flags : Nat) : Prop :=
  ∀ m : Mask, (∀ n < 128, m.getLsbD n = c n) →
    Completes exec s i fun t => Issued s t (resultOf s (UnitVW.slot u) 2 none
      (.vpair k.val (some m) (some (~~~m)) (readVPred (curTask s) lp.val) :: more) (stickyFlags flags) false)

/-- The exponent and the fraction bits of an IEEE format (R40). -/
def ieeeBits : Format → Nat × Nat
  | .fp32 => (8, 23)
  | .fp16 => (5, 10)
  | _ => (8, 7)

/-- The exponent field, the fraction field and the sign of an IEEE pattern (R40). -/
def expField (f : Format) (x : Nat) : Nat := x / 2 ^ (ieeeBits f).2 % 2 ^ (ieeeBits f).1
def fracField (f : Format) (x : Nat) : Nat := x % 2 ^ (ieeeBits f).2
def minusSign (f : Format) (x : Nat) : Bool := x / 2 ^ ((ieeeBits f).1 + (ieeeBits f).2) % 2 == 1

/-- A pattern with only its sign, the infinity of a sign, the absent code and the canonical NaN (R39, R40). -/
def zeroPattern (f : Format) (neg : Bool) : Nat := if neg then 2 ^ ((ieeeBits f).1 + (ieeeBits f).2) else 0
def infPattern (f : Format) (neg : Bool) : Nat := zeroPattern f neg + (2 ^ (ieeeBits f).1 - 1) * 2 ^ (ieeeBits f).2
def absentPattern (f : Format) : Nat := 2 ^ ((ieeeBits f).1 + (ieeeBits f).2 + 1) - 1
def canonicalNaN (f : Format) : Nat := infPattern f false + 2 ^ ((ieeeBits f).2 - 1)

/-- A pattern within its width that is finite, infinite, or a NaN: the absent code is no NaN (R39, R40, R43). -/
def IsFinite (f : Format) (x : Nat) : Prop := x ≤ absentPattern f ∧ expField f x ≠ 2 ^ (ieeeBits f).1 - 1
def IsInf (f : Format) (x : Nat) : Prop := x = infPattern f (minusSign f x)
def IsNaN (f : Format) (x : Nat) : Prop :=
  x < absentPattern f ∧ expField f x = 2 ^ (ieeeBits f).1 - 1 ∧ fracField f x ≠ 0

/-- A NaN quieted: its fraction's top bit set, and never the absent code (R43, R53). -/
def quieted (f : Format) (x : Nat) : Nat :=
  let q := if fracField f x < 2 ^ ((ieeeBits f).2 - 1) then x + 2 ^ ((ieeeBits f).2 - 1) else x
  if q = absentPattern f then canonicalNaN f else q

/-- The invalid flag where a NaN is signalling: its fraction's top bit is clear (R40, R53). -/
def invalidIf (f : Format) (x : Nat) : Nat := if fracField f x < 2 ^ ((ieeeBits f).2 - 1) then 16 else 0

/-- A pattern as an operation reads it: under FZ a subnormal is the zero of its sign (R52). -/
def asRead (f : Format) (fz : Bool) (x : Nat) : Nat := if fz = true ∧ expField f x = 0 then zeroPattern f (minusSign f x) else x

/-- The number a finite pattern stands for (R40). -/
def finiteValue (f : Format) (x : Nat) : ℚ :=
  let fb := (ieeeBits f).2
  let least : ℤ := 2 - 2 ^ ((ieeeBits f).1 - 1)
  (if minusSign f x then -1 else 1) *
    (if expField f x = 0 then (fracField f x : ℚ) * 2 ^ (least - fb)
     else (fracField f x + 2 ^ fb : ℚ) * 2 ^ ((expField f x : ℤ) - 1 + least - fb))

/-- The number an operation reads. -/
def valueRead (f : Format) (fz : Bool) (x : Nat) : ℚ := finiteValue f (asRead f fz x)

/-- An integer is a number rounded by a mode (R51). -/
def RoundsTo (mode : Rounding) (q : ℝ) (k : ℤ) : Prop :=
  match mode with
  | .rne => |q - k| ≤ 1 / 2 ∧ (|q - k| = 1 / 2 → k % 2 = 0)
  | .rtz => |(k : ℝ)| ≤ |q| ∧ |q| < |(k : ℝ)| + 1 ∧ 0 ≤ k * q
  | .rup => q ≤ k ∧ (k : ℝ) < q + 1
  | .rdn => (k : ℝ) ≤ q ∧ q < k + 1

/-- A pattern and its flags are what a nonzero exact result gives in an IEEE format (R51, R52): the result rounded to the
precision of its binade, but no finer than the least subnormal; beyond the largest finite magnitude an infinity or that magnitude
by the mode, with overflow and inexact; below the least normal magnitude underflow where it is inexact, and under FZ the zero of
its sign. The flags are inexact 1, underflow 2, overflow 4. -/
def DeliversRounded (f : Format) (env : Env) (r : ℝ) (out : Nat × Nat) : Prop :=
  let fb := (ieeeBits f).2
  let least : ℤ := 2 - 2 ^ ((ieeeBits f).1 - 1)
  let neg : Bool := decide (r < 0)
  ∀ E : ℤ, (2 : ℝ) ^ E ≤ |r| → |r| < (2 : ℝ) ^ (E + 1) →
    let u : ℝ := 2 ^ (max E least - fb)
    ∀ k : ℤ, RoundsTo env.mode (r / u) k →
      if 2 ^ ((2 : ℤ) ^ ((ieeeBits f).1 - 1)) ≤ |k * u| then
        out = ((match env.mode with
          | .rne => infPattern f neg
          | .rtz => infPattern f neg - 1
          | .rup => if neg then infPattern f neg - 1 else infPattern f neg
          | .rdn => if neg then infPattern f neg else infPattern f neg - 1), 5)
      else if env.fz = true ∧ |k * u| < 2 ^ least ∧ k ≠ 0 then out = (zeroPattern f neg, 3)
      else IsFinite f out.1 ∧ (finiteValue f out.1 : ℝ) = k * u ∧ minusSign f out.1 = neg
        ∧ out.2 = if k * u = r then 0 else if |k * u| < 2 ^ least then 3 else 1

/-- What a finite exact result of an IEEE operation gives: rounded where it is not zero, and else the zero of a sign. -/
def DeliversNumber (f : Format) (env : Env) (r : ℚ) (zeroNeg : Bool) (out : Nat × Nat) : Prop :=
  if r = 0 then out = (zeroPattern f zeroNeg, 0) else DeliversRounded f env r out

/-- The record of a barrier as stated, every other barrier as before, and every group and task context but energy. -/
def OneBarrier (s t : State) (cluster b : Nat) (x : Barrier) : Prop :=
  barrierOf t cluster b = x ∧ (∀ k, k ≠ barKey cluster b → lookup Barrier.initial t.dom.barriers k
      = lookup Barrier.initial s.dom.barriers k) ∧ KeepsTasks s t

/-- A barrier after `n` bytes arrive (R102, R103). -/
def afterArrival (x : Barrier) (n : Nat) : Barrier :=
  if x.fault then x
  else if x.init = false then
    (if x.arrived + n < 2 ^ 32 then { x with arrived := x.arrived + n } else { x with fault := true, fcause := 2 })
  else if x.expected < x.arrived + n then { x with fault := true, fcause := 2 }
  else if x.arrived + n = x.expected then { x with arrived := 0, gen := (x.gen + 1) % 256 }
  else { x with arrived := x.arrived + n }

/-- Bytes reached a barrier: at once, or noted for the end of the cycle under way (R102, R106). -/
def Arrived (s t : State) (c b n : Nat) : Prop :=
  if s.gather then t.arrivals = s.arrivals ++ [(barKey c b, n)] else barrierOf t c b = afterArrival (barrierOf s c b) n

/-- A barrier was marked faulted, a first cause staying: at once, or noted for the end of the cycle (R105, R106). -/
def Marked (s t : State) (c b cause : Nat) : Prop :=
  if s.gather then t.marks = s.marks ++ [(barKey c b, cause)]
  else barrierOf t c b = if (barrierOf s c b).fault then barrierOf s c b
    else { barrierOf s c b with fault := true, fcause := cause }

/-- Every core keeps all but its energy. -/
def KeepsCores (s t : State) : Prop :=
  ∀ j, coreOf t j = { coreOf s j with
    charged := (coreOf t j).charged, task := { taskOf s j with energy := (taskOf t j).energy } }

/-- The state an operation of the F slot leaves, but for the energy counts and the signature of its bundle. -/
def Same (s t : State) : State := { s with cores := t.cores, cur := { s.cur with sig := t.cur.sig } }

/-- The engine of a command, by its key: of each cluster its five copy engines by layer, its teller and its Crozier, of each die
its streaming engine; or the reason for which the command is refused at issue (R87, R245, R246). -/
def engineFor (s : State) (c : Command) : Except Nat Nat :=
  let d := s.cur.core / 2048
  let cluster := 24 * d + s.cur.core % 2048 / 48
  let word (i : Nat) : Nat := (c.block.getD i 0).toNat
  let entry (h : Nat) : Handle := lookup Handle.initial (s.dies.getD d Die.initial).handles h
  let dest := entry (word 0 / 2 ^ 16 % 4096)
  let used := if c.op = 0x16 then [dest] else [dest, entry (word 0 % 4096)]
  let base (h : Handle) : Nat := h.w0.toNat % 2 ^ 52
  let kind (h : Handle) : Nat := h.w0.toNat / 2 ^ 61 % 4
  let span := dest.w2.toNat % 2 ^ 24
  let o := word 3 + 2 ^ 32 * (word 4 % 512)
  let first := if dest.w1.toNat % 2 ^ 41 ≤ o then base dest
    else if kind dest = 1 then base dest + o / span * 2 ^ 24 + o % span else base dest + o
  if c.op = 0x06 ∨ c.op = 0x07 ∨ c.op = 0x08 then .ok (1024 + d)
  else if c.op = 0x09 then .ok (8 * cluster + 2)
  else if c.op = 0x0F then .ok (8 * cluster + 5)
  else if 0x18 ≤ c.op ∧ c.op ≤ 0x1D then .ok (8 * cluster + 6)
  else if used.any (fun h => !h.w0.getLsbD 63 || decide (2 ≤ kind h)) then .error 1
  else if used.any (fun h => h.w1.toNat / 2 ^ 48 != c.program) then .error 2
  else if used.any (fun h => base h / 2 ^ 48 != 1) then .ok (1024 + d)
  else .ok (8 * (24 * (first / 2 ^ 46 % 4) + first / 2 ^ 24 % 2 ^ 11 / 48) + first / 2 ^ 43 % 8)

/-- Where a copy reads and writes its element `k`, as offsets in its source and destination handles: by the words of its block,
and for a gather or a scatter by its list, in which an entry of ones moves nothing (R248, R249, R253). -/
def placesOf (c : Command) (k : Nat) : Option (Int × Int) :=
  let w (i : Nat) : Nat := (c.block.getD i 0).toNat
  let so : Int := w 1 + 2 ^ 32 * (w 2 % 512)
  let dO : Int := w 3 + 2 ^ 32 * (w 4 % 512)
  let ss : Int := (c.block.getD 7 0).toInt
  let ds : Int := (c.block.getD 8 0).toInt
  match c.op with
  | 0x02 =>
    let r := k / (w 6 / 4)
    let x := 4 * (k % (w 6 / 4))
    some (so + r * ss + x, dO + r * ds + x)
  | 0x03 =>
    let es := 2 ^ (w 9 % 4)
    some (so + (k / w 6 : Nat) * ss + (k % w 6 * es : Nat), dO + (k % w 6 : Nat) * ds + (k / w 6 * es : Nat))
  | 0x04 | 0x05 =>
    let row := k / (w 6 / 4)
    let x := 4 * (k % (w 6 / 4))
    let entry := (c.list.getD (row / w 12) 0xFFFFFFFF).toNat
    let far : Int := (entry % 2 ^ 16 * w 12 + row % w 12 : Nat)
    let col : Int := (entry / 2 ^ 16 * w 6 + x : Nat)
    if entry = 0xFFFFFFFF then none
    else if c.op = 4 then some (so + far * ss + col, dO + row * ds + x) else some (so + row * ss + x, dO + far * ds + col)
  | 0x09 =>
    let members := (List.range 48).filter fun m => if m < 32 then (w 12).testBit m else (w 13).testBit (m - 32)
    let m : Int := (members.getD (k / (w 5 / 4)) 0 : Nat)
    let h := c.handle (w 0 / 2 ^ 16 % 4096)
    let first : Int := (h.w0.toNat / 2 ^ 24 % 2 ^ 11 % 48 : Nat)
    let x := 4 * (k % (w 5 / 4))
    some (so + x, dO + (m - first) * (h.w2.toNat % 2 ^ 24 : Nat) + x)
  | _ => some (so + (4 * k : Nat), dO + (4 * k : Nat))

/-- The writes of a copy for its element `k`, as addresses and bytes of the memory that it reads: the bytes of the source or of the
pattern (R248); under SKIP each value of the scattered format that is not absent. -/
def writesFor (v : State) (c : Command) (k : Nat) : List (Nat × List Byte) :=
  match placesOf c k with
  | none => []
  | some (a, d) =>
    let w (i : Nat) : Nat := (c.block.getD i 0).toNat
    let source := c.handle (w 0 % 4096)
    let pa := (c.handle (w 0 / 2 ^ 16 % 4096)).pa d.toNat
    let byte (i : Nat) : Byte :=
      if c.op = 0x16 then BitVec.ofNat 8 (w 12 / 2 ^ (8 * i)) else readByte v (source.pa (a.toNat + i))
    match (if c.op = 5 ∧ (w 9).testBit 4 = true then Format.ofCode (w 9 / 2 ^ 12 % 16) else none) with
    | some f =>
      let es := f.width / 8
      let value (j : Nat) : List Byte := tabulate es fun i => byte (es * j + i)
      ((List.range (4 / es)).filter fun j => !isAbsent f (leNat (value j))).map fun j => (pa + j * es, value j)
    | none => [(pa, tabulate c.es byte)]

/-- The transposed element of an in-place transpose (R249). -/
def mirrored (c : Command) (k : Nat) : Nat :=
  let n := (c.block.getD 6 0).toNat
  k % n * n + k / n

/-- The bytes of some pieces, each with its address. -/
def writesOf (ps : List Piece) : List (Nat × Byte) :=
  ps.flatMap fun p => tabulate p.bytes.length fun i => (p.pa + i, p.bytes.getD i 0)

/-- Bytes laid through a handle from an offset. -/
def laid (h : Handle) (o : Nat) (bs : List Byte) : List (Nat × Byte) := tabulate bs.length fun i => (h.pa (o + i), bs.getD i 0)

/-- Words as bytes. -/
def wordsAsBytes (l : List Nat) : List Byte := l.flatMap (leBytes 4)

/-- No log of a die is within a number of entries of its mark, or nothing is logged: no engine waits for a seal (R373). -/
def Calm (s : State) (n : Nat) : Prop :=
  logEnabled s = false ∨ ∀ d, 64 * (logUsed s d + n) < max 1 (s.pkg.logcfg.toNat / 2 ^ 32 % 2 ^ 6) * logCapacity s

/-- A running command may move on: nothing holds it, no byte is hidden from it (R124), and its banks have been granted. -/
def MovesOn (s : State) (e : Nat) (c : Command) : Prop :=
  (engineOf s e).running.find? (fun d => d.id == c.id) = some c ∧ commandHolds s e c = false ∧ c.asked = true
    ∧ commandAsks s c.id = false ∧ hiddenFrom s c.reader = []

/-- One matrix unit changed as stated, and nothing else of the machine. -/
def OnUnit (s t : State) (core : Nat) (mx : Matrix) : Prop :=
  t = { s with cores := t.cores }
    ∧ ∀ j, coreOf t j = if j = core then { coreOf s core with mx := mx } else coreOf s j

/-- One matrix unit and the task context of its core changed as stated, and every core keeps the rest but energy. -/
def UnitAndTask (s t : State) (core : Nat) (mx : Matrix) (f : Task → Task) : Prop :=
  ∀ j, coreOf t j = { coreOf s j with
    charged := (coreOf t j).charged
    mx := if j = core then mx else (coreOf s j).mx
    task := { (if j = core then f (taskOf s j) else taskOf s j) with energy := (taskOf t j).energy }
    lichen := { (coreOf s j).lichen with energy := (coreOf t j).lichen.energy } }

/-- One matrix unit and the task context of its core changed as stated; nothing else but energy and the bundle's signature. -/
def OnUnitAndTask (s t : State) (core : Nat) (mx : Matrix) (f : Task → Task) : Prop :=
  t = Same s t ∧ UnitAndTask s t core mx f

/-- The bank requests without those of the matrix reads of a core (R306, R308). -/
def unread (s : State) (core : Nat) : List BankRequest :=
  s.bankReqs.filter fun r => !((r.cls == 1 || r.cls == 2) && r.owner == core)

/-- The unit after a micro-op of a routine: at the next micro-op in store order, or, of a routine that was cancelled while it read,
idle (R299, R304). -/
def afterMicro (mx : Matrix) (r : Routine) : Matrix :=
  { mx with routine := if r.cancelled then none else some { r with pc := r.pc + 1, asked := false } }

/-- The bank requests after a micro-op of a routine: those of a routine that ends are taken back. -/
def requestsAfter (s : State) (core : Nat) (r : Routine) : List BankRequest :=
  if r.cancelled then unread s core else s.bankReqs

/-- A routine fault: the routine has ended with its bank requests, and its group has the cause pending with the micro-op's
address (R312). -/
def RoutineFaults (s t : State) (core code : Nat) (r : Routine) : Prop :=
  t = { s with cores := t.cores, groups := t.groups, bankReqs := unread s core }
    ∧ (∀ j, coreOf t j = if j = core then { coreOf s core with mx := { (coreOf s core).mx with routine := none } }
        else coreOf s j)
    ∧ t.groups = match groupOn s core with
      | none => s.groups
      | some h => s.groups.map fun g => if g.gid = h.gid then
          { g with pending := g.pending ++ [⟨code, 0x8000 + r.pc % 2048, [g.rankOf core], none⟩] } else g

/-- No frond of any sorus waits. -/
def NobodyWaits (s : State) : Prop := ∀ e ∈ s.dom.sori, ∀ f ∈ e.2.fronds, f.st ≠ .waiting

/-- The journal mark of a packet after its status changes in the open interval (R334). -/
def markedAs (s : State) (seqs : List Nat) (ended : Bool) : List JournalMark :=
  s.journal.map fun m => if m.seq ∈ seqs then 
    { m with interval := s.pkg.intnum, touched := s.pkg.intnum, final := ended, rolled := false } else m

/-- A packet without a signal has ended with a detail: it and its launch slots are gone, its journal entry holds status 2, or 3
with the detail, and nothing else of the machine has changed (R325, R329, R334). -/
def PacketEnds (s t : State) (p : Packet) (detail : Nat) : Prop :=
  t.dom = { s.dom with packets := s.dom.packets.filter (fun x => x.seq != p.seq),
                       launches := s.dom.launches.filter (fun e => e.2.seq != p.seq) }
    ∧ t.journal = markedAs s [p.seq] true
    ∧ readByte t (journalPA s p.seq + 10) = (if detail = 0 then 2 else 3)
    ∧ readNat t (journalPA s p.seq + 48) 2 = detail
    ∧ (∀ a, Outside s (journalPA s p.seq) 64 a → readByte t a = readByte s a)
    ∧ t.cores = s.cores ∧ t.groups = s.groups ∧ t.pkg = s.pkg ∧ t.queues = s.queues ∧ t.seals = s.seals

/-- The packet is the next of its queue, of a type, journalled, and asks for no signal. -/
def Turn (s : State) (q type : Nat) (p : Packet) : Prop :=
  nextOfType s q type = some p ∧ (∃ m ∈ s.journal, m.seq = p.seq) ∧ (p.words.getD 0 0).testBit 9 = false

/-- What a node shows once its work has begun, by its type: a no-op has ended, a launch has its slot, a seal its interval. -/
def begun (s : State) (slot type : Nat) (n : Node) : Node :=
  match type with
  | 0 => { n with st := .completed, skipped := false, launch := none, reason := 0 }
  | 1 => { n with st := .dispatched, launch := some slot, reason := 0 }
  | 3 => { n with st := .dispatched, launch := none, reason := s.pkg.intnum }
  | _ => { n with st := .dispatched, launch := none, reason := 0 }

/-- The place of a destination is one its file has, and a vector result has its 128 lanes. -/
def wellSized (t : Task) (d : Dest) : Prop :=
  match d with
  | .lanes _ _ l _ => l.length = 128
  | .pair k _ _ => k < 8
  | .vpair k _ _ _ => 2 * k + 1 < t.vpreds.length
  | .vsingle r _ _ => r < t.vpreds.length
  | _ => True

/-- Two destinations of one result name different places: no register twice, and no predicate pair twice (R167, R286). -/
def Apart (d e : Dest) : Prop :=
  match d, e with
  | .pair k _ _, .pair j _ _ => k ≠ j
  | .vpair k _ _ _, .vsingle r _ _ => r / 2 ≠ k
  | .lanes _ _ _ _, .vsingle _ _ _ => True
  | _, _ => False

/-- A core after one destination is written while no other write of its cycle names it (R15, R31, R66, R153, R205, R206, R342,
R364). -/
def afterOne (c : Core) (d : Dest) : Core :=
  let t := c.task
  let on (t : Task) : Core := { c with task := t }
  let mix (act new old : Mask) : Mask := (act &&& new) ||| (~~~act &&& old)
  let half (r : Nat) (act : Mask) (v : Option Mask) (l : List Mask) : List Mask := match v with
    | some v => l.set r (mix act v (l.getD r 0))
    | none => l
  match d with
  | .word fl r v => on (writeReg t fl r v)
  | .wide r v => on { t with x := t.x.set r v }
  | .lanes .v r l _ => on { t with v := t.v.set r l }
  | .lanes .w r l _ => on { t with w := t.w.set r l }
  | .pair k lo hi => if k = 0 then c else on { t with preds :=
      (t.preds &&& ~~~((3 : BitVec 16) <<< (2 * k))) ||| (BitVec.ofNat 16 (lo.toNat + 2 * hi.toNat) <<< (2 * k)) }
  | .vpair k lo hi act =>
    if k = 0 then c else on { t with vpreds := half (2 * k + 1) act hi (half (2 * k) act lo t.vpreds) }
  | .vsingle r v act => if r < 2 then c else on { t with vpreds := half r act (some v) t.vpreds }
  | .fmt v => on { t with fmt := v &&& 0x3FFCFF00 }
  | .pattern i bs => on { t with patterns := t.patterns.set i bs }
  | .csr n v =>
    if n = 0x001 then on { t with status := v &&& 0x3DF }
    else if n = 0x008 then (if v.toNat % 8 ≤ 4 then on { t with depth := v.toNat % 8 } else c)
    else if 0x009 ≤ n ∧ n ≤ 0x00C then on { t with rgh := t.rgh.set (n - 0x009) (v &&& 0xFFFFFFFC) }
    else if n = 0x010 then on { t with cd := min 8 (v.toNat / 2 ^ 8 % 16), ld := min 4 (v.toNat % 8) }
    else if 0x011 ≤ n ∧ n ≤ 0x014 then on { t with loopA := t.loopA.set (n - 0x011) (v &&& 0xFFFFFFFC) }
    else if 0x015 ≤ n ∧ n ≤ 0x018 then on { t with loopB := t.loopB.set (n - 0x015) (v &&& 0xFFFFFFFC) }
    else if 0x019 ≤ n ∧ n ≤ 0x01C then on { t with loopC := t.loopC.set (n - 0x019) v }
    else if 0x020 ≤ n ∧ n ≤ 0x027 then on { t with link := t.link.set (n - 0x020) v }
    else if n = 0x030 then on { t with tvec := v &&& 0xFFFFFFFC }
    else if n = 0x031 then on { t with tcause := v &&& 0xBFFFFFFF }
    else if n = 0x032 then on { t with tpc := v &&& 0xFFFFFFFC }
    else if n = 0x033 then { c with lshare := min 64 (v.toNat % 128) }
    else if n = 0x034 then on { t with energy := (t.energy &&& 0xFFFFFFFF00000000) ||| v.setWidth 64 }
    else if n = 0x035 then on { t with
      energy := (t.energy &&& 0xFFFFFFFF) ||| (((v &&& 0x8000FFFF).setWidth 64 : Dword) <<< (32 : Nat)) }
    else if 0x040 ≤ n ∧ n ≤ 0x04F then { c with eweights := c.eweights.set (n - 0x040) v }
    else c

end Sys2Proof.Machine

open Sys2Proof Sys2Proof.Machine

/-- R218 and R164: the forms of latency 1 but the bit fields and counts, with their frame. -/
def Obligations.ScalarSumsAndLogicGiveTheTabledResult : Prop :=
  ∀ (u : UnitAB) (g : Guard) (d : Fin 32) (x y : SSrc) (s : State),
    let a := srcVal s (UnitAB.file u) x
    let b := srcVal s (UnitAB.file u) y
    let n := b.toNat % 32
    let gives (i : Instr) (v : Word) : Prop := GivesScalar s i (UnitAB.file u) (UnitAB.slot u) 1 d.val v
    gives (.add u g d x y) (a + b) ∧ gives (.sub u g d x y) (a - b)
      ∧ gives (.and u g d x y) (a &&& b) ∧ gives (.or u g d x y) (a ||| b)
      ∧ gives (.xor u g d x y) (a ^^^ b) ∧ gives (.andn u g d x y) (a &&& ~~~b)
      ∧ gives (.sll u g d x y) (a <<< n) ∧ gives (.srl u g d x y) (a >>> n)
      ∧ gives (.sra u g d x y) (a.sshiftRight n) ∧ gives (.rol u g d x y) (a.rotateLeft n)
      ∧ gives (.min u g d x y) (if a.slt b then a else b) ∧ gives (.max u g d x y) (if a.slt b then b else a)
      ∧ gives (.minu u g d x y) (if a.ult b then a else b) ∧ gives (.maxu u g d x y) (if a.ult b then b else a)
      ∧ gives (.li u g d x) a
      ∧ (∀ sh : Fin 16, gives (.lea u g d x y sh) (a + b <<< sh.val))
      ∧ (∀ k : Fin 16, gives (.sel u g d k x y) (if readPred (curTask s) k.val then a else b))
      ∧ (∀ w : Fin 16, gives (.sxt u g d x w) ((a.setWidth (w.val + 1)).signExtend 32))
      ∧ (∀ w : Fin 16, gives (.zxt u g d x w) ((a.setWidth (w.val + 1)).setWidth 32))
      ∧ gives (.abs u g d x) (if a.slt 0 then -a else a)

/-- R219 whole, with the products of R218 and the latencies of R164. -/
def Obligations.ProductsAndQuotientsGiveTheTabledResult : Prop :=
  ∀ (u : UnitAB) (g : Guard) (d : Fin 32) (x y : SSrc) (s : State),
    let a := srcVal s (UnitAB.file u) x
    let b := srcVal s (UnitAB.file u) y
    let gives (i : Instr) (lat : Nat) (v : Word) : Prop := GivesScalar s i (UnitAB.file u) (UnitAB.slot u) lat d.val v
    gives (.mul u g d x y) 3 (a * b)
      ∧ gives (.mulh u g d x y) 3 ((a.signExtend 64 * b.signExtend 64).extractLsb' 32 32)
      ∧ gives (.mulhu u g d x y) 3 ((a.setWidth 64 * b.setWidth 64).extractLsb' 32 32)
      ∧ gives (.div u g d x y) 12 (if b = 0 then BitVec.allOnes 32 else a.sdiv b)
      ∧ gives (.rem u g d x y) 12 (if b = 0 then a else a.srem b)
      ∧ gives (.divu u g d x y) 12 (if b = 0 then BitVec.allOnes 32 else a / b)
      ∧ gives (.remu u g d x y) 12 (if b = 0 then a else a % b)

/-- R220 whole, and the counts and reversals of R218. -/
def Obligations.BitFieldsAndCountsGiveTheTabledResult : Prop :=
  ∀ (u : UnitAB) (g : Guard) (d : Fin 32) (x y : SSrc) (s : State),
    let a := srcVal s (UnitAB.file u) x
    let b := srcVal s (UnitAB.file u) y
    let pos := b.toNat % 32
    let len := b.toNat / 32 % 32 + 1
    let old := readReg (curTask s) (UnitAB.file u) d.val
    let mask := (BitVec.allOnes 32 >>> (32 - len)) <<< pos
    let gives (i : Instr) (v : Word) : Prop := GivesScalar s i (UnitAB.file u) (UnitAB.slot u) 1 d.val v
    gives (.bfxu u g d x y) (((a >>> pos).setWidth len).setWidth 32)
      ∧ gives (.bfx u g d x y) (((a >>> pos).setWidth len).signExtend 32)
      ∧ gives (.bfi u g d x y) ((old &&& ~~~mask) ||| (a <<< pos &&& mask))
      ∧ gives (.clz u g d x) a.clz ∧ gives (.ctz u g d x) a.ctz ∧ gives (.popc u g d x) a.cpop
      ∧ gives (.bswap u g d x)
          (a.extractLsb' 0 8 ++ a.extractLsb' 8 8 ++ a.extractLsb' 16 8 ++ a.extractLsb' 24 8)
      ∧ gives (.brev u g d x) a.reverse

/-- R221 whole, and R223. -/
def Obligations.ComparesWriteAPredicateAndItsComplement : Prop :=
  ∀ (u : UnitAB) (g : Guard) (k : Fin 8) (c : Cond) (d : Fin 32) (x y : SSrc) (s : State),
    let a := srcVal s (UnitAB.file u) x
    let b := srcVal s (UnitAB.file u) y
    let signed := match c with
      | .eq => a == b | .ne => a != b | .lt => a.slt b | .le => a.sle b | .gt => b.slt a | .ge => b.sle a
    let unsigned := match c with
      | .eq => a == b | .ne => a != b | .lt => a.ult b | .le => a.ule b | .gt => b.ult a | .ge => b.ule a
    let mask := (List.range 16).foldr (fun i m => (readPred (curTask s) i).toNat + 2 * m) 0
    let pair (i : Instr) (v : Bool) : Prop := GivesOnly s i (UnitAB.slot u) 2 [.pair k.val v (!v)]
    pair (.cmp u g k c x y) signed ∧ pair (.cmpu u g k c x y) unsigned
      ∧ pair (.xmovpSet u g k x) (a.getLsbD 0)
      ∧ GivesOnly s (.xmovpGet u g d) (UnitAB.slot u) 2 (regDest (UnitAB.file u) d.val (BitVec.ofNat 32 mask))

/-- R214 whole; R165, R215, R222, R229, R243, R287 and R295. -/
def Obligations.RegisterFormsOfTheOtherSlotsGiveTheirResult : Prop :=
  ∀ (g : Guard) (kd d : Fin 16) (md : Fin 32) (xd xs : Fin 8) (x y : SSrc) (imm : BitVec 17) (value : Word) (s : State),
    let t := curTask s
    let src (fl : File) (z : SSrc) : Word := srcVal s fl z
    let old := t.x.getD xd.val 0
    let from' := t.x.getD xs.val 0
    let scalar (i : Instr) (fl : File) (slot lat r : Nat) (v : Word) : Prop := GivesScalar s i fl slot lat r v
    let wide (i : Instr) (v : Dword) : Prop := GivesOnly s i 6 1 [.wide xd.val v]
    GivesOnly s (.kli g kd imm) 0 1 [.word .c kd.val (imm.signExtend 32)]
      ∧ GivesOnly s (.kliLong g kd value) 0 1 [.word .c kd.val value]
      ∧ scalar (.mli g md y) .m 3 1 md.val (src .m y)
      ∧ scalar (.madd g md x y) .m 3 1 md.val (src .m x + src .m y)
      ∧ scalar (.fli g d x) .f 7 1 d.val (src .f x)
      ∧ scalar (.fadd g d x y) .f 7 1 d.val (src .f x + src .f y)
      ∧ scalar (.fsub g d x y) .f 7 1 d.val (src .f x - src .f y)
      ∧ scalar (.fsll g d x y) .f 7 1 d.val (src .f x <<< ((src .f y).toNat % 32))
      ∧ scalar (.cpstat g d x) .f 7 2 d.val
          (let e := t.slots.getD ((src .f x).toNat % 16) (0, 0); if (src .f x).getLsbD 4 then e.2 else e.1)
      ∧ scalar (.nli g d x) .n 8 1 d.val (src .n x)
      ∧ scalar (.nadd g d x y) .n 8 1 d.val (src .n x + src .n y)
      ∧ scalar (.nfill g d x 0) .n 8 1 d.val (if (src .n x).getLsbD 0 then BitVec.allOnes 32 else 0)
      ∧ scalar (.nfill g d x 1) .n 8 1 d.val
          (let b := (src .n x).extractLsb' 0 8; b ++ b ++ b ++ b)
      ∧ scalar (.nfill g d x 2) .n 8 1 d.val (let h := (src .n x).extractLsb' 0 16; h ++ h)
      ∧ (∀ v : BitVec 16, wide (.xli g xd (.imm v)) (v.setWidth 64)
          ∧ wide (.xlih g xd (.imm v)) (v.setWidth 32 ++ old.extractLsb' 0 32))
      ∧ wide (.xli g xd (.ext value)) (value.setWidth 64)
      ∧ wide (.xlih g xd (.ext value)) (value ++ old.extractLsb' 0 32)
      ∧ (∀ v : BitVec 15, wide (.xadd g xd xs (.imm v)) (from' + v.signExtend 64))
      ∧ wide (.xadd g xd xs (.ext value)) (from' + value.signExtend 64)
      ∧ (∀ pos len1 : Fin 64, pos.val + len1.val < 64 →
          let mask := (BitVec.allOnes 64 >>> (63 - len1.val)) <<< pos.val
          wide (.xins g xd xs pos len1) ((old &&& ~~~mask) ||| (from' <<< pos.val &&& mask)))
      ∧ GivesOnly s (.xmovX g xs .x md false) 6 2 [.wide md.val from']
      ∧ (∀ (fl : File) (hi : Bool), fl ≠ .v → fl ≠ .w → (fl = .x → hi = true) →
          GivesOnly s (.xmovX g xs fl md hi) 6 2
            (regDest fl md.val (if hi then from'.extractLsb' 32 32 else from'.extractLsb' 0 32)))
      ∧ (∀ (u : UnitAB) (fl : File),
          let copies (i : Instr) (slot : Nat) (v : Word) : Prop :=
            GivesOnly s i slot (if fl = .v ∨ fl = .w then 3 else 2) (regDest fl md.val v)
          copies (.xmovAB u g fl md x) (UnitAB.slot u) (src (UnitAB.file u) x) ∧ copies (.xmovC g d fl md) 0 (kVal s d)
            ∧ copies (.xmovM g fl md x) 3 (src .m x) ∧ copies (.xmovF g fl md x) 7 (src .f x)
            ∧ copies (.xmovN g fl md x) 8 (src .n x))

/-- R66, R198, R204 to R206, R213; R387 for the trailing core. -/
def Obligations.ControlRegisterFormsReadAtIssueAndWriteLater : Prop :=
  ∀ (g : Guard) (k : Fin 16) (n : BitVec 12) (value : Word) (share : BitVec 7) (s : State),
    let writes (i : Instr) (v : Word) : Prop :=
      GivesOnly s i 0 (if n = 0 then 4 else 1) [if n = 0 then .fmt v else .csr n.toNat v]
    let e := (taskOf s (identity s)).energy
    let captured (t : Task) : Task :=
      if n = 0x005 then { t with timeCapture := some (BitVec.ofNat 32 (deviceTime s / 2 ^ 32)) }
      else if n = 0x034 then { t with energyCapture := some (e.extractLsb' 32 32) } else t
    writes (.csrw g k n) (kVal s k) ∧ writes (.csrwValue g n value) value
      ∧ GivesOnly s (.setfmt g k) 0 4 [.fmt (kVal s k)] ∧ GivesOnly s (.setfmtValue g value) 0 4 [.fmt value]
      ∧ GivesOnly s (.lshare g share) 0 1 [.csr 0x033 (share.setWidth 32)]
      ∧ (let shared : Prop := n.toNat ∈ [0x005, 0x006, 0x007, 0x034, 0x035]
         let reads (v : Word) : Prop := Completes exec s (.csrr g k n) fun t =>
           OnTask s t { s.cur with sig := t.cur.sig } (fun q =>
             { captured q with pend := q.pend ++ [resultOf s 0 2 none [.word .c k.val v] 0 false],
                               order := q.order + 1 })
             ∧ ⟨66, n.toNat, v.toNat⟩ ∈ t.cur.sig
         (¬ shared → reads (csrRead s n.toNat))
           ∧ (curGroup s = none → reads (csrRead s n.toNat))
           ∧ ∀ gr : Group, curGroup s = some gr →
               (s.cur.core ∉ gr.trailing → reads (csrRead s n.toNat))
                 ∧ (s.cur.core ∈ gr.trailing → shared →
                     let item := (gr.signatures.getD (gr.rankOf s.cur.core) []).find? fun i =>
                       i.what == 66 && i.addr == n.toNat
                     (∀ i, item = some i → reads (BitVec.ofNat 32 i.data))
                       ∧ (item = none → reads (csrRead s n.toNat))))

/-- R13 and R15: the register files and their hard-wired members; the registers of R206 as csrr reads them. -/
def Obligations.HardWiredAndControlRegistersReadAsStated : Prop :=
  ∀ (t : Task) (s : State) (fl fl' : File) (r r' : Nat) (v : Word),
    ((fl = .a ∨ fl = .b ∨ fl = .m → readReg t fl 0 = 0 ∧ writeReg t fl 0 v = t)
      ∧ readPred t 0 = true ∧ readPred t 1 = false ∧ readVPred t 0 = BitVec.allOnes 128 ∧ readVPred t 1 = 0
      ∧ writeVPred t 0 0 = t ∧ writeVPred t 1 0 = t
      ∧ ((fl, r) ≠ (fl', r') → readReg (writeReg t fl r v) fl' r' = readReg t fl' r')
      ∧ (r ≠ 0 → r < t.a.length → readReg (writeReg t .a r v) .a r = v)
      ∧ (r ≠ 0 → r < t.b.length → readReg (writeReg t .b r v) .b r = v)
      ∧ (r ≠ 0 → r < t.m.length → readReg (writeReg t .m r v) .m r = v)
      ∧ (r < t.k.length → readReg (writeReg t .c r v) .c r = v)
      ∧ (r < t.f.length → readReg (writeReg t .f r v) .f r = v)
      ∧ (r < t.n.length → readReg (writeReg t .n r v) .n r = v)) ∧
    let t := curTask s
    csrRead s 0x000 = t.fmt ∧ csrRead s 0x003 = t.group ∧ csrRead s 0x004 = t.stage
      ∧ csrRead s 0x030 = t.tvec ∧ csrRead s 0x031 = t.tcause ∧ csrRead s 0x032 = t.tpc
      ∧ (let id := identity s
         id % 2048 < 1152 → id < 8192 →
          (csrRead s 0x002).extractLsb' 24 5 = BitVec.ofNat 5 (id % 2048 / 48)
            ∧ (csrRead s 0x002).extractLsb' 18 6 = BitVec.ofNat 6 (id % 2048 % 48)
            ∧ (csrRead s 0x002).extractLsb' 11 2 = BitVec.ofNat 2 (id / 2048)
            ∧ (csrRead s 0x002).extractLsb' 0 11 = BitVec.ofNat 11 (id % 2048))
      ∧ csrRead s 0x005 = BitVec.ofNat 32 (deviceTime s)
      ∧ (t.status < 0x4000 → csrRead s 0x001 = t.status
          ||| (if privileged s then 0x4000 else 0) ||| (if inSaveMode s && !s.cur.lichen then 0x8000 else 0))
      ∧ csrRead s 0x008 = BitVec.ofNat 32 t.depth
      ∧ csrRead s 0x010 = BitVec.ofNat 32 (t.cd * 256 + t.ld)
      ∧ (∀ i < 8, csrRead s (0x020 + i) = t.link.getD i 0)
      ∧ (∀ i < 4, csrRead s (0x011 + i) = t.loopA.getD i 0 ∧ csrRead s (0x015 + i) = t.loopB.getD i 0
          ∧ csrRead s (0x019 + i) = t.loopC.getD i 0 ∧ csrRead s (0x009 + i) = t.rgh.getD i 0)
      ∧ csrRead s 0x033 = BitVec.ofNat 32 (coreOf s s.cur.core).lshare
      ∧ (∀ i < 16, csrRead s (0x040 + i) = (coreOf s s.cur.core).eweights.getD i 0)
      ∧ (csrRead s 0x007).getLsbD 31 = s.pkg.sealing ∧ (csrRead s 0x007).getLsbD 30 = false
      ∧ ((csrRead s 0x007).extractLsb' 28 2).toNat = s.pkg.intnum % 3 + 1
      ∧ ((csrRead s 0x007).extractLsb' 0 28).toNat = s.pkg.intnum % 2 ^ 28

/-- R185 whole; the effects of R186 and R187; R385 for the signature. -/
def Obligations.TransfersSelectTheNextBundle : Prop :=
  ∀ (g : Guard) (disp : BitVec 21) (target : Word) (k : Fin 16) (shape : Fin 8) (q0 q1 q2 q3 : Fin 16)
      (t0 t1 t2 t3 : BitVec 16) (s : State),
    let t := curTask s
    let far := s.cur.pc + (disp.signExtend 32) * 4
    let goTo (w : Word) : Cursor := { s.cur with target := some w }
    let pushed (q : Task) : Task := { q with link := q.link.set t.cd s.cur.seq, cd := t.cd + 1 }
    let p (q : Fin 16) : Bool := readPred t q.val
    let path := treePath shape.val (p q0) (p q1) (p q2) (p q3)
    let leaf := match path with
      | 0 => some t0 | 1 => some t1 | 2 => some t2 | 3 => some t3 | _ => none
    ActsOn s (.jmp g disp) (goTo far) id ∧ ActsOn s (.jmpl g target) (goTo target) id
      ∧ ActsOn s (.jr g k) (goTo (kVal s k)) id
      ∧ ActsSigned s (.call g disp) (goTo far) pushed ∧ ActsSigned s (.calll g target) (goTo target) pushed
      ∧ ActsSigned s (.ret g) (goTo (t.link.getD (t.cd - 1) 0)) (fun q => { q with cd := t.cd - 1 })
      ∧ ActsOn s (.mbr g shape q0 q1 q2 q3 t0 t1 t2 t3)
          (match leaf with
            | some d => { s.cur with path := path, target := some (s.cur.pc + (d.signExtend 32) * 4) }
            | none => { s.cur with path := path }) id

/-- R188 to R192, R385, R409, R410, R413. -/
def Obligations.HardwareLoopsPushCountAndLeave : Prop :=
  ∀ (g : Guard) (k : Fin 16) (exit : BitVec 17) (count : Word) (s : State),
    let t := curTask s
    let out := s.cur.pc + (exit.signExtend 32) * 4
    let begins (i : Instr) (n : Word) : Prop :=
      (n = 0 → ActsSigned s i { s.cur with target := some out } id)
        ∧ (n ≠ 0 → s.cur.marked = false → ActsSigned s i s.cur fun q => { q with
            loopA := q.loopA.set t.ld (s.cur.seq &&& 0xFFFFFFFC), loopB := q.loopB.set t.ld (out &&& 0xFFFFFFFC),
            loopC := q.loopC.set t.ld n, ld := t.ld + 1 })
        ∧ (n ≠ 0 → s.cur.marked = true →
            ActsSigned s i { s.cur with post := s.cur.post ++ [.pushLoop s.cur.seq out n] } id)
    let top := t.ld - 1
    begins (.loop g k exit) (kVal s k) ∧ begins (.loopi g exit count) count
      ∧ (traced s 5 = false → ActsSigned s (.lexit g) { s.cur with target := some (t.loopB.getD top 0) }
          fun q => { q with ld := top })
      ∧ Completes exec s (.lexit g) (fun r => LeavesLoop s r { s.cur with target := some (t.loopB.getD top 0) }
          (fun q => { q with ld := top }) (t.loopA.getD top 0))
      ∧ (s.cur.target.isSome = true → exec .loopEndMark s = .next s)
      ∧ (s.cur.target = none → t.ld = 0 → exec .loopEndMark s = .next (stopAtIssue s (Stop.illegal 0)))
      ∧ (s.cur.target = none → t.ld ≠ 0 → 1 < (t.loopC.getD top 0).toNat →
          ∃ r, exec .loopEndMark s = .next r ∧ OnTask s r { s.cur with target := some (t.loopA.getD top 0), sig := r.cur.sig }
            fun q => { q with loopC := q.loopC.set top (t.loopC.getD top 0 - 1) })
      ∧ (s.cur.target = none → t.ld ≠ 0 → (t.loopC.getD top 0).toNat ≤ 1 → traced s 5 = false →
          ∃ r, exec .loopEndMark s = .next r ∧ OnTask s r { s.cur with sig := r.cur.sig }
            fun q => { q with loopC := q.loopC.set top 0, ld := top })
      ∧ (s.cur.target = none → t.ld ≠ 0 → (t.loopC.getD top 0).toNat ≤ 1 →
          ∃ r, exec .loopEndMark s = .next r ∧ LeavesLoop s r s.cur
            (fun q => { q with loopC := q.loopC.set top 0, ld := top }) (t.loopA.getD top 0))

/-- R28, R193, R194, R212. -/
def Obligations.SuspensionsWaitForTheirPoint : Prop :=
  ∀ (gd : Guard) (k : Fin 16) (w : Option (Fin 4)) (target : Word) (s : State) (g : Group),
    groupOf s s.cur.gid = some g →
    let waits := match w with
      | none => [0, 0, 0, 0]
      | some w => (List.range 4).map fun j => readReg (curTask s) .c (4 * w.val + j)
    let rank0 := g.members.headD 0 = s.cur.core
    let asks (i : Instr) (p : Suspension) (more : State → Prop) : Prop := Completes exec s i fun t =>
      groupOf t s.cur.gid = some (if rank0 then { g with susp := some p } else g) ∧ KeepsTasks s t ∧ more t
    let quiet (t : State) : Prop := SameMemory s t ∧ t.dom = s.dom ∧ t.pkg = s.pkg
    asks (.susp gd k w) ⟨.susp, kVal s k, waits⟩ quiet ∧ asks (.suspTarget gd target w) ⟨.susp, target, waits⟩ quiet
      ∧ asks (.endTask gd) ⟨.endTask, 0, [0, 0, 0, 0]⟩ quiet
      ∧ asks (.irrev gd k) ⟨.irrev s.pkg.intnum, kVal s k, [0, 0, 0, 0]⟩ (fun _ => True)
      ∧ asks (.irrevTarget gd target) ⟨.irrev s.pkg.intnum, target, [0, 0, 0, 0]⟩ (fun _ => True)

/-- R127, R196, R197, R386. The rule names a failed translation and a nonzero word 12: that a record which cannot be
written sets STATUS.SF too is the model's choice (DEDUCED, log entry 17). -/
def Obligations.SpawnClaimsAndOffersRecords : Prop :=
  ∀ (gd : Guard) (p c n : Fin 16) (s : State) (g : Group), groupOf s s.cur.gid = some g →
    let into := spawnTarget s.cur.core (kVal s c)
    let one (r : State) (ptr : Word) : State :=
      let fails := (insiders r s.cur.core).foldl
        (fun q id => modTask q id fun t => { t with status := t.status ||| 0x80 }) r
      match recordOf r (clusterOf s.cur.core) g.program ptr.toNat with
      | none => fails
      | some words =>
        if words.getD 12 0 ≠ 0 then fails
        else match claimRecord r (clusterOf s.cur.core) g.program ptr.toNat (BitVec.ofNat 32 g.frond) g.launch with
          | none => fails
          | some r => offerFrond (raiseLaunch r g.launch) into ptr.toNat g.program (privileged s) g.launch
              (match frondOf r g with
                | some f => f.p31
                | none => false)
    let many (k : Nat) : State :=
      (List.range k).foldl (fun r j => one r (kVal s p + BitVec.ofNat 32 j)) (charge s 1 1)
    let offer (k : Nat) : Offer :=
      ⟨s.cur.core, s.cur.gid, s.now, s.cur.scope, into, privileged s, kVal s p, k⟩
    let waits (k : Nat) (t : State) : Prop :=
      t = { s with cores := t.cores, offers := s.offers ++ [offer k] } ∧ KeepsTasks s t
    let count := min (kVal s n).toNat 256
    (s.cur.external = true → (∀ o ∈ s.offers, o.core ≠ s.cur.core) →
      (Offer.ready s (offer 1) = true → Completes exec s (.spawn gd p c) fun t => t = many 1)
        ∧ (Offer.ready s (offer count) = true → Completes exec s (.spawnn gd p c n) fun t => t = many count))
      ∧ (s.cur.external = true → (Offer.ready s (offer 1) = false ∨ ∃ o ∈ s.offers, o.core = s.cur.core) →
          Completes exec s (.spawn gd p c) (waits 1) ∧ Completes exec s (.spawnn gd p c n) (waits count))
      ∧ (s.cur.scope = 0 → ∀ k, Offer.ready s (offer k) = true)
      ∧ (s.cur.external = false →
          ActsOn s (.spawn gd p c) s.cur id ∧ ActsOn s (.spawnn gd p c n) s.cur id)

/-- R351 steps 2 to 7, R352, R354 and, for a used stretch, R355. What becomes of a call that its unit has not accepted
is the model's choice (DESIGN CHOICE, log entry 38). -/
def Obligations.TakingAnExceptionSavesAndEntersTheHandler : Prop :=
  ∀ (s : State) (g : Group) (c : Cause), groupOf s g.gid = some g →
    let d := drainGroup s g
    let t := vector s g c
    (g.saveMode = false → g.all.Nodup →
      (∃ h, groupOf d g.gid = some h ∧ groupOf t g.gid = some { h with
          saveMode := true, trailingSave := false, saveCount := if 2048 ≤ h.saveCount then h.saveCount else 0,
          counter := 0, lastCause := c.code, stopping := none, pauseCode := 0,
          lichenHold := false, lichenCores := [], signatures := [], loads := [], tiles := [],
          pending := h.pending.filter fun p => !(c.tpc == none && p.code == c.code) })
        ∧ (∀ id, taskOf t id =
            if id ∈ g.all then
              { taskOf d id with
                latches := Latches.zero, patterns := List.replicate 8 (List.replicate 32 0),
                tcause := causeWord c (g.rankOf id), tpc := causePC s g c,
                k := ((taskOf d id).k.set 14 (BitVec.ofNat 32 g.frond)).set 15 g.spill, pc := (taskOf d id).tvec }
            else taskOf d id)
        ∧ (∀ id ∈ g.all, (coreOf t id).mx = { (coreOf d id).mx with
            waiting := (coreOf d id).mx.waiting.map fun x => { x with pauses := false } })
        ∧ t.dom = { d.dom with sori := t.dom.sori }
        ∧ ∀ a, OutsideRing d a → readByte t a = readByte d a)
      ∧ (g.saveMode = true →
        groupOf t g.gid = none ∧ ∀ f ∈ (sorusOf t g.cluster).fronds, ¬(f.ptr = g.frond ∧ f.space = g.space))

/-- R201 whole. -/
def Obligations.TrapTakesTheSoftwareTrap : Prop :=
  ∀ (gd : Guard) (code : BitVec 16) (s : State),
    TakesTrap s (.trap gd code) 15 code.toNat
      ∧ (s.cur.lichen = false → guardHolds s gd = false → exec (.trap gd code) s = .next s)

/-- R202; of a twin pair R384, of the count of save-mode bundles R355. That the trap is taken whatever the guard reads
is the model's choice (DEDUCED, log entry 15): R202 does not speak of the guard. -/
def Obligations.ReturnFromExceptionLeavesSaveMode : Prop :=
  ∀ (gd : Guard) (k : Fin 16) (s : State) (g : Group), groupOf s s.cur.gid = some g →
    let trails := s.cur.core ∈ g.trailing
    let left (h : Group) : Group :=
      if trails then { h with trailingSave := false } else { h with saveMode := false, trailingSave := g.twin }
    (g.saves s.cur.core = true → g.lastCause ≠ 12 → Completes exec s (.rft gd k) fun t =>
        t.cur = { s.cur with target := some (kVal s k) } ∧ KeepsTasks s t ∧ SameMemory s t ∧ t.dom = s.dom
          ∧ groupOf t s.cur.gid = some (if trails then left g
              else { left g with limitTicks := 0, lastCause := 0 }))
      ∧ (g.saves s.cur.core = true → g.lastCause = 12 → Completes exec s (.rft gd k) fun t =>
          KeepsTasks s t ∧ SameMemory s t ∧ t.dom = s.dom
            ∧ groupOf t s.cur.gid = some { left g with
                susp := if g.members.headD 0 = s.cur.core then some ⟨.susp, kVal s k, [0, 0, 0, 0]⟩ else g.susp })
      ∧ (g.saves s.cur.core = false → s.cur.checked = false → s.cur.lichen = false →
          exec (.rft gd k) s = .next (taken s g ⟨2, 0, [g.rankOf s.cur.core], some s.cur.pc⟩))

/-- R181 for the forms of a task, and the privileged registers of R206. -/
def Obligations.PrivilegedFormsTrapOutsidePrivilegedMode : Prop :=
  ∀ (gd : Guard) (share : BitVec 7) (a b : Fin 8) (k : Fin 16) (n : BitVec 12) (v : Word) (s : State),
    (s.cur.lichen = true → privileged s = true)
      ∧ (∀ g, s.cur.lichen = false → groupOf s s.cur.gid = some g → privileged s =
          (g.saveMode || (g.trailingSave && g.trailing.contains s.cur.core) || g.privProgram))
      ∧ (privileged s = false →
          TakesTrap s (.lshare gd share) 2 0 ∧ TakesTrap s (.mload gd a b) 2 0 ∧ TakesTrap s (.mcancel gd) 2 0
            ∧ (8 ≤ n.toNat ∧ n.toNat ≤ 0x00C ∨ 0x030 ≤ n.toNat ∧ n.toNat ≤ 0x035 ∨ 0x040 ≤ n.toNat ∧ n.toNat ≤ 0x04F →
                TakesTrap s (.csrw gd k n) 2 0 ∧ TakesTrap s (.csrwValue gd n v) 2 0))

/-- R224, R225 and R77. R350 fixes no order among them within one operation: that alignment goes before the place is
the model's choice (DEDUCED, log entry 13). -/
def Obligations.NearAccessesTrapOnBadAddresses : Prop :=
  ∀ (gd : Guard) (fl : File) (d : Fin 32) (xd : Fin 8) (x y : SSrc) (s : State),
    let ea := (srcVal s .m x + srcVal s .m y).toNat
    let beyond (n : Nat) (i : Instr) : Prop :=
      (262144 < ea + n ∨ mapped s (nearPA s.cur.core ea) = false) → TakesTrap s i 7 0
    let bad (n : Nat) (i : Instr) : Prop := (ea % n ≠ 0 → TakesTrap s i 1 0) ∧ (ea % n = 0 → beyond n i)
    beyond 1 (.ldb gd fl d x y) ∧ beyond 1 (.ldbu gd fl d x y) ∧ beyond 1 (.stb gd fl d x y)
      ∧ bad 2 (.ldh gd fl d x y) ∧ bad 2 (.ldhu gd fl d x y) ∧ bad 2 (.sth gd fl d x y)
      ∧ bad 4 (.ldw gd fl d x y) ∧ bad 4 (.stw gd fl d x y)
      ∧ bad 8 (.ldd gd xd x y) ∧ bad 8 (.std gd xd x y)

/-- R186 whole; the limits of R189, R191, R193, R194, R208, R209, R212. -/
def Obligations.StacksTrapAtTheirLimits : Prop :=
  ∀ (gd : Guard) (disp : BitVec 21) (d17 : BitVec 17) (target count : Word) (k : Fin 16) (w : Option (Fin 4)) (s : State),
    let t := curTask s
    let illegal (i : Instr) : Prop := TakesTrap s i 1 0
    let pushed (q : Task) : Task := { q with link := q.link.set t.cd s.cur.seq, cd := t.cd + 1 }
    let plain : Prop := s.cur.checked = false ∧ s.cur.lichen = false ∧ guardHolds s gd = true
    (t.cd = 8 → illegal (.call gd disp) ∧ illegal (.calll gd target))
      ∧ (t.cd < 8 → plain →
          (∃ r, exec (.call gd disp) s = .next r
              ∧ OnTask s r { s.cur with target := some (s.cur.pc + (disp.signExtend 32) * 4), sig := r.cur.sig } pushed)
            ∧ ∃ r, exec (.calll gd target) s = .next r
              ∧ OnTask s r { s.cur with target := some target, sig := r.cur.sig } pushed)
      ∧ (t.cd = 0 → illegal (.ret gd))
      ∧ (0 < t.cd → plain →
          ∃ r, exec (.ret gd) s = .next r
            ∧ OnTask s r { s.cur with target := some (t.link.getD (t.cd - 1) 0), sig := r.cur.sig }
                fun q => { q with cd := t.cd - 1 })
      ∧ (t.ld = 4 → (kVal s k ≠ 0 → illegal (.loop gd k d17)) ∧ (count ≠ 0 → illegal (.loopi gd d17 count)))
      ∧ (t.ld = 0 → illegal (.lexit gd))
      ∧ (t.depth = 4 → illegal (.rgopen gd d17)) ∧ (t.depth = 0 → illegal (.rgclose gd))
      ∧ (t.depth ≠ 0 → illegal (.susp gd k w) ∧ illegal (.suspTarget gd target w) ∧ illegal (.endTask gd)
          ∧ illegal (.irrev gd k) ∧ illegal (.irrevTarget gd target))

/-- R152: when the guard is false, the operation performs nothing. -/
def Obligations.AFalseGuardPerformsNothing : Prop :=
  ∀ (i : Instr) (s : State), guarded s i = false → (s.cur.checked = true ∨ stopOf i s = none) → exec i s = .next s

/-- R203 whole; R123, R124, R199, R200, R208, R209, R211. That entries of depth 2 to 4 pass to the enclosing region is
R209 with R381. -/
def Obligations.RegionsSealsAndDebugStopsTakeTheirPlace : Prop :=
  ∀ (gd : Guard) (code : BitVec 16) (disp : BitVec 17) (s : State) (g : Group), groupOf s s.cur.gid = some g →
    let core := s.cur.core
    let depth := (curTask s).depth
    let mine (e : RegionUndo) : Bool := e.frond == g.frond && e.level == depth && e.core == core
    let plain (h : Group) : Group := { h with tiles := [] }
    ((coreOf s core).dbg.en = true → Completes exec s (.brk gd code) fun t =>
        KeepsTasks s t ∧ SameMemory s t ∧ t.dom = s.dom
          ∧ groupOf t s.cur.gid = some { g with
              pending := g.pending ++ [⟨14, code.toNat, [g.rankOf core], none⟩] })
      ∧ ((coreOf s core).dbg.en = false → ActsOn s (.brk gd code) s.cur id)
      ∧ ActsSigned s (.rgopen gd disp) s.cur (fun q => { q with
          rgh := q.rgh.set q.depth (s.cur.pc + (disp.signExtend 32) * 4), depth := q.depth + 1 })
      ∧ (1 ≤ depth → depth ≤ 4 → Completes exec s (.rgclose gd) fun t =>
          (∀ j, taskOf t j = { (if j = core then { taskOf s j with depth := depth - 1 } else taskOf s j) with
              energy := (taskOf t j).energy, remotes := (taskOf t j).remotes })
            ∧ SameMemory s t ∧ t.groups.map plain = s.groups.map plain
            ∧ (depth = 1 → t.dom.regionLog = s.dom.regionLog.filter fun e => !mine e)
            ∧ (depth ≠ 1 → t.dom.regionLog = s.dom.regionLog.map fun e =>
                if mine e then { e with level := depth - 1 } else e)
            ∧ (depth ≠ 1 → (g.frond, depth) ∈ s.dom.entangled → (g.frond, depth - 1) ∈ t.dom.entangled)
            ∧ (∀ x ∈ t.globals, x.writer ≠ .region g.frond depth core)
            ∧ ∀ e ∈ t.dies.flatMap Die.egress, e.issuer = core → e.region ≠ some (g.frond, depth))
      ∧ Completes exec s (.seal gd) (fun t =>
          KeepsTasks s t ∧ t.groups = s.groups ∧ t.dom = s.dom ∧ (∀ a, OutsideRing s a → readByte t a = readByte s a)
            ∧ (s.cur.external = true → s.pkg.firstEnable = true →
                (s.seals.phase = .none → t.seals.phase = .quiesce ∧ t.seals.interval = s.pkg.intnum)
                  ∧ (s.seals.phase = .agreement → t.seals = { s.seals with wanted := true }))
            ∧ (s.cur.external = false ∨ s.pkg.firstEnable = false ∨ s.seals.phase = .quiesce ∨ s.seals.phase = .checkpoint →
                t.seals = s.seals))
      ∧ ActsOn s (.qwait gd) s.cur id ∧ (s.cur.scope = 0 → ActsOn s (.drain gd) s.cur id)
      ∧ (s.cur.scope ≠ 0 → ActsOn s (.drain gd) s.cur fun q => { q with
          fences := q.fences.filter (fun f => !accessesDone s core f) ++ [s.now],
          hidden := q.hidden.filter (Veil.holds s core) })

/-- R227, R236, with the byte order of R2. -/
def Obligations.NearLoadsGiveTheirBytes : Prop :=
  ∀ (gd : Guard) (fl : File) (d : Fin 32) (xd : Fin 8) (x y : SSrc) (s : State),
    let pa := nearPA s.cur.core (nearAddr s x y)
    let b (j : Nat) : Byte := readByte s (pa + j)
    let half := b 1 ++ b 0
    let word := b 3 ++ b 2 ++ b 1 ++ b 0
    let loads (i : Instr) (n : Nat) (latch : Option Latched) (ds : List Dest) : Prop :=
      Completes exec s i fun t => Issued s t (resultOf s 3 3 latch ds 0 (poisonedAt s pa n))
    let scalar (i : Instr) (n : Nat) (v : Word) : Prop :=
      loads i n (if fl = .m then some (.scalar .m v) else none) (regDest fl d.val v)
    scalar (.ldb gd fl d x y) 1 ((b 0).signExtend 32) ∧ scalar (.ldbu gd fl d x y) 1 ((b 0).setWidth 32)
      ∧ scalar (.ldh gd fl d x y) 2 (half.signExtend 32) ∧ scalar (.ldhu gd fl d x y) 2 (half.setWidth 32)
      ∧ scalar (.ldw gd fl d x y) 4 word
      ∧ loads (.ldd gd xd x y) 8 none [.wide xd.val (b 7 ++ b 6 ++ b 5 ++ b 4 ++ word)]
      ∧ loads (.pld gd none x y) 2 none
          ((List.range 7).map fun k => .pair (k + 1) (half.getLsbD (2 * k + 2)) (half.getLsbD (2 * k + 3)))
      ∧ (∀ r : Fin 16, r.val < 2 → loads (.pld gd (some r) x y) 16 none [])
      ∧ (∀ (r : Fin 16) (v : Mask), 2 ≤ r.val → (∀ j < 16, v.extractLsb' (8 * j) 8 = b j) →
          loads (.pld gd (some r) x y) 16 none
            [.vpair (r.val / 2) (if r.val % 2 = 0 then some v else none) (if r.val % 2 = 0 then none else some v)
              (BitVec.allOnes 128)])

/-- R227, R228, R236, R373: the stores and their frame. R373 makes a write for which the log has no room an error that
a rollback answers; that nothing of it is written is the model's choice (DEDUCED, log entry 59), and so is that the
own remote stores before a store at a scope above 0 stand in the column first (DESIGN CHOICE, log entry 7). -/
def Obligations.NearStoresWriteTheirBytesAlone : Prop :=
  ∀ (gd : Guard) (fl : File) (d : Fin 32) (xd : Fin 8) (x y : SSrc) (s : State),
    let ea := nearAddr s x y
    let t := curTask s
    let v := readReg t fl d.val
    let byte (j : Nat) : Byte := v.extractLsb' (8 * j) 8
    let xv := t.x.getD xd.val 0
    let p (j : Nat) : Bool := readPred t j
    ((s.cur.scope = 0 ∨ ∀ r ∈ t.remotes, r.target ≠ s.cur.core) → SameMemory s (ownStands s) ∧ KeepsAllButMemory s (ownStands s))
      ∧ (InNear s x y 1 → StoresNear s (.stb gd fl d x y) ea [byte 0])
      ∧ (InNear s x y 2 → StoresNear s (.sth gd fl d x y) ea [byte 0, byte 1])
      ∧ (InNear s x y 4 → StoresNear s (.stw gd fl d x y) ea [byte 0, byte 1, byte 2, byte 3])
      ∧ (InNear s x y 8 →
          StoresNear s (.std gd xd x y) ea ((List.range 8).map fun j => xv.extractLsb' (8 * j) 8))
      ∧ (InNear s x y 2 → ∀ m : BitVec 16, (∀ j < 16, m.getLsbD j = p j) →
          StoresNear s (.pst gd none x y) ea [m.extractLsb' 0 8, m.extractLsb' 8 8])
      ∧ (InNear s x y 16 → ∀ r : Fin 16,
          StoresNear s (.pst gd (some r) x y) ea
            ((List.range 16).map fun j => (readVPred t r.val).extractLsb' (8 * j) 8))

/-- R71, R80, R81, R85, R118, R122, R124, R230, R232 to R234. -/
def Obligations.VectorLoadsReadOneRowOfEveryBank : Prop :=
  ∀ (gd : Guard) (u : UnitVW) (d : Fin 28) (fl : File) (r : Fin 32) (x y : SSrc) (e : Option Swizzle)
      (h : Option (Fin 7 × Fin 16)) (s : State),
    let core := s.cur.core
    let a := nearAddr s x y
    let word (pa : Nat) : Word := readByte s (pa + 3) ++ readByte s (pa + 2) ++ readByte s (pa + 1) ++ readByte s pa
    let half (pa : Nat) : BitVec 16 := readByte s (pa + 1) ++ readByte s pa
    let sw := e.getD ⟨0, false⟩
    let q := h.getD (0, 0)
    let at' (i c : Nat) : Nat := nearPA core (transposeAddr a q.1.val q.2.val i c)
    let lane (L : Nat) : Word :=
      word (nearPA core (L / 4 * 8192 + vectorRow a sw.mode.val sw.pair (L / 4) * 16 + 4 * (L % 4)))
    let turned (L : Nat) : Word := half (at' ((2 * L + 1) % 16) ((2 * L + 1) / 16)) ++ half (at' (2 * L % 16) (2 * L / 16))
    let gives (i : Instr) (lat : Nat) (v : Nat → Word) : Prop := Completes exec s i fun t => ∃ bad,
      Issued s t (resultOf s 3 lat none [.lanes u d.val ((List.range 128).map v) (BitVec.allOnes 128)] 0 bad)
    let remote (i : Instr) (m addr : Nat) (rows : List Nat) (sw : Option Swizzle) (fl : File) (d : Nat) : Prop :=
      let target := memberCore (clusterOf core) m
      GoesRemote s i target rows true (.load addr sw fl d)
    let banks (base : Nat) : List Nat := (List.range 32).map fun b => b * 8192 + vectorRow base sw.mode.val sw.pair b * 16
    gives (.vld gd u d x y e) 3 lane ∧ gives (.vldth gd u d x y h) 4 turned
      ∧ remote (.rld gd fl r x y) (a / 2 ^ 18 % 64) (a % 2 ^ 18) [a % 2 ^ 18] none fl r.val
      ∧ remote (.rvld gd u d x y e) (a / 512 % 64) (a % 512) (banks (a % 512)) (some sw) (UnitVW.file u) d.val

/-- R118, R230, R232, R234, R386: the vector stores, the remote stores as they issue, and their frame. That the own
remote stores before a vector store at a scope above 0 stand in the column first is the model's choice (DESIGN CHOICE,
log entry 7). -/
def Obligations.VectorStoresWriteOneRowOfEveryBank : Prop :=
  ∀ (gd : Guard) (u : UnitVW) (d : Fin 28) (fl : File) (r : Fin 32) (x y : SSrc) (e : Option Swizzle)
      (m : Option MaskedStore) (s : State),
    let was := ownStands s
    let a := nearAddr s x y
    let sw := e.getD ⟨0, false⟩
    let ms := m.getD ⟨0, false, 0, none⟩
    let lane (L : Nat) : Word := (readLanes (curTask s) u d.val).getD L 0
    let row (base mode : Nat) (pair : Bool) (L : Nat) : Nat :=
      nearPA s.cur.core (L / 4 * 8192 + vectorRow base mode pair (L / 4) * 16 + 4 * (L % 4))
    let kept (L j : Nat) : Bool := (readVPred (curTask s) ms.vp.val).getLsbD L && match ms.skip with
      | none => true
      | some f => !isAbsent f (((lane L).toNat / 2 ^ (f.width * (8 * j / f.width))) % 2 ^ f.width)
    let frame (t : State) (at' : Nat → Nat) : Prop :=
      (∀ c, (∀ L < 128, Outside was (at' L) 4 c) → OutsideRing was c → readByte t c = readByte was c) ∧ KeepsAllButMemory was t
    let clear (at' : Nat → Nat) : Prop := ∀ L < 128, ∀ j < 4, OutsideRing was (at' L + j)
    let target (n : Nat) : Nat := memberCore (clusterOf s.cur.core) n
    let rowAt (c : Nat) : Nat := c * 8192 + vectorRow (a % 512) sw.mode.val sw.pair c * 16
    (RealCore s → a < 512 → Roomy was 1024 →
        (clear (row a sw.mode.val sw.pair) → Completes exec s (.vst gd u d x y e) fun t =>
            (∀ L < 128, ∀ j < 4, readByte t (row a sw.mode.val sw.pair L + j) = (lane L).extractLsb' (8 * j) 8)
              ∧ frame t (row a sw.mode.val sw.pair))
          ∧ (clear (row a ms.mode.val ms.pair) → Completes exec s (.vstm gd u d x y m) fun t =>
            (∀ L < 128, ∀ j < 4, readByte t (row a ms.mode.val ms.pair L + j) =
                if kept L j then (lane L).extractLsb' (8 * j) 8 else readByte was (row a ms.mode.val ms.pair L + j))
              ∧ frame t (row a ms.mode.val ms.pair)))
      ∧ GoesRemote s (.rst gd fl r x y) (target (a / 2 ^ 18 % 64)) [a % 2 ^ 18 / 16 * 16] s.cur.external
          (.store [(a % 2 ^ 18, (List.range 4).map fun j =>
            (readReg (curTask s) fl r.val).extractLsb' (8 * j) 8)] (writerOf s))
      ∧ GoesRemote s (.rvst gd u d x y e) (target (a / 512 % 64)) ((List.range 32).map rowAt) s.cur.external
          (.store ((List.range 32).map fun c => (rowAt c, (List.range 16).map fun j =>
            (lane (4 * c + j / 4)).extractLsb' (8 * (j % 4)) 8)) (writerOf s))

/-- R267, R268, R270 to R273 with R150, R153 and R164. -/
def Obligations.VectorElementFormsActOnEveryActiveLane : Prop :=
  ∀ (u : UnitVW) (lp : Fin 16) (ef sf : Format) (d : VDst) (r : Fin 28) (a b : VSrc) (h : Fin 4) (s : State),
    let env := Env.ofFmt (curTask s).fmt
    let va (k : Nat) : Word := laneVal s u a k
    let vb (k : Nat) : Word := laneVal s u b k
    let vd (k : Nat) : Word := (readLanes (curTask s) u r.val).getD k 0
    let held (k : Nat) : Word := match d with
      | .reg q => (readLanes (curTask s) u q.val).getD k 0
      | .latchOnly => BitVec.allOnes 32
    let gives (i : Instr) (lat : Nat) (v : Nat → Word × Nat) : Prop := GivesLanes s u i lp lat d v
    let two (i : Instr) (lat : Nat) (op : Nat → Nat → Nat × Nat) : Prop :=
      gives i lat fun k => zipElems ef op (va k) (vb k)
    let one (i : Instr) (lat : Nat) (op : Nat → Nat × Nat) : Prop := gives i lat fun k => mapElems ef op (va k)
    let raw (i : Instr) (op : Nat → Nat → Nat) : Prop := two i 2 fun x y => (op x y, 0)
    let three (i : Instr) (lat : Nat) (op : Nat → Nat → Nat → Nat × Nat) : Prop :=
      GivesLanes s u i lp lat (.reg r) fun k => zipElems3 ef op (va k) (vb k) (vd k)
    let special (i : Instr) (lat : Nat) (op : Env → Nat → Nat × Nat) : Prop :=
      gives i lat fun k => mapElems .fp32 (op env) (va k)
    two (.vadd u lp ef d a b) 2 (elemBin .add ef env) ∧ two (.vsub u lp ef d a b) 2 (elemBin .sub ef env)
      ∧ two (.vmul u lp ef d a b) 2 (elemBin .mul ef env) ∧ two (.vmin u lp ef d a b) 2 (elemBin .min ef env)
      ∧ two (.vmax u lp ef d a b) 2 (elemBin .max ef env) ∧ two (.vdiv u lp ef d a b) 8 (elemBin .div ef env)
      ∧ two (.vscl u lp ef d a b) 2 (floatScale ef env) ∧ two (.vsgnj u lp ef d a b) 2 (elemSgnj ef)
      ∧ raw (.vand u lp ef d a b) Nat.land ∧ raw (.vor u lp ef d a b) Nat.lor ∧ raw (.vxor u lp ef d a b) Nat.xor
      ∧ raw (.vshl u lp ef d a b) (fun x y => x * 2 ^ (y % ef.width) % 2 ^ ef.width)
      ∧ raw (.vshr u lp ef d a b) (fun x y => x / 2 ^ (y % ef.width))
      ∧ raw (.vsra u lp ef d a b) (fun x y => (sextNat x ef.width / 2 ^ (y % ef.width) % 2 ^ ef.width).toNat)
      ∧ three (.vfma u lp ef r a b) 4 (elemFma false false ef env) ∧ three (.vfms u lp ef r a b) 4 (elemFma false true ef env)
      ∧ three (.vfnma u lp ef r a b) 4 (elemFma true false ef env) ∧ three (.vclamp u lp ef r a b) 2 (elemClamp ef env)
      ∧ one (.vabs u lp ef d a) 2 (elemAbs ef) ∧ one (.vneg u lp ef d a) 2 (elemNeg ef)
      ∧ one (.vrcp u lp ef d a) 8 (floatRcp ef env) ∧ one (.vsqrt u lp ef d a) 8 (floatSqrt ef env)
      ∧ one (.vround u lp ef d a) 3 (floatIntegral ef env env.mode)
      ∧ one (.vtrunc u lp ef d a) 3 (floatIntegral ef env .rtz)
      ∧ special (.vrsqrt u lp d a) 8 floatRsqrt ∧ special (.vexp2 u lp d a) 6 floatExp2
      ∧ special (.vlog2 u lp d a) 6 floatLog2 ∧ special (.vsin u lp d a) 10 floatSin ∧ special (.vcos u lp d a) 10 floatCos
      ∧ special (.vtanh u lp d a) 10 floatTanh ∧ special (.vsigm u lp d a) 10 floatSigm
      ∧ gives (.vcvt u lp ef sf d a h) 3 fun k => convertLane ef sf env h.val (held k) (va k)

/-- R41, R44, R46, R266, R267, R269, R270: the integer and raw classes. -/
def Obligations.ElementArithmeticFollowsItsClass : Prop :=
  ∀ (f : Format) (env : Env) (a b : Nat), a < 2 ^ f.width → b < 2 ^ f.width →
    let w := f.width
    let top : Int := 2 ^ (w - 1) - 1
    let clip (x : Int) : Nat := ((if top < x then top else if x < -top then -top else x) % 2 ^ w).toNat
    let x := sextNat a w
    let y := sextNat b w
    let none' := Format.absentCode f
    let binary (op : BinOp) (exact : Int) : Prop :=
      elemBin op f env a b = (if a = none' then b else if b = none' then a else clip exact, 0)
    (f.isFloat = false → f.isInt = false →
        elemBin .add f env a b = ((a + b) % 2 ^ w, 0)
          ∧ elemBin .sub f env a b = (((a : Int) - b) % 2 ^ w |>.toNat, 0)
          ∧ elemBin .mul f env a b = (a * b % 2 ^ w, 0)
          ∧ elemBin .min f env a b = (if a ≤ b then a else b, 0)
          ∧ elemBin .max f env a b = (if a ≤ b then b else a, 0)
          ∧ elemBin .div f env a b = (if b = 0 then 2 ^ w - 1 else a / b, 0))
      ∧ (f.isInt = true →
        binary .add (x + y) ∧ binary .mul (x * y) ∧ binary .min (if x ≤ y then x else y)
          ∧ binary .max (if x ≤ y then y else x)
          ∧ elemBin .sub f env a b
              = (if b = none' then a else if a = none' then clip (-y) else clip (x - y), 0)
          ∧ elemBin .div f env a b
              = (if a = none' ∨ b = none' then (none', 0)
                 else if y = 0 then (clip (if x = 0 then 0 else if 0 < x then top else -top), flagDZ)
                 else (clip (x.tdiv y), 0))
          ∧ elemAbs f a = (if a = none' then a else clip x.natAbs, 0)
          ∧ elemNeg f a = (if a = none' then a else clip (-x), 0))

/-- R275, R277 to R281, R285, with the latencies of R164 and R165. That xmov from V or W into file X has latency 4, as
the table of R165 gives the vector side, is the model's choice (DEDUCED, log entry 32). -/
def Obligations.VectorMovementCopiesPatterns : Prop :=
  ∀ (u : UnitVW) (lp : Fin 16) (ef : Format) (n i j : Fin 16) (d : VDst) (a b : VSrc) (map : BitVec 24) (fl : File)
      (q : Fin 32) (s : State),
    let act := readVPred (curTask s) lp.val
    let m := readVPred (curTask s) n.val
    let va (k : Nat) : Word := laneVal s u a k
    let vb (k : Nat) : Word := laneVal s u b k
    let gives (i : Instr) (lat : Nat) (v : Nat → Word) : Prop := GivesLanes s u i lp lat d fun k => (v k, 0)
    let base (k : Nat) : Nat := k / 16 * 16
    let ones : Nat := ((List.range 128).filter fun k => m.getLsbD k).length
    let good (k : Nat) : Bool := decide ((vb k).toNat < 16) && act.getLsbD (base k + (vb k).toNat)
    let held (k : Nat) : Word := match d with
      | .reg r => (readLanes (curTask s) u r.val).getD k 0
      | .latchOnly => BitVec.allOnes 32
    let read : Lanes := (List.range 128).map fun k =>
      if act.getLsbD k then (if good k then va (base k + (vb k).toNat) else va k) else held k
    let moved (z : UnitVW) : Prop := GivesOnly s (.xmovV u lp (UnitVW.file z) q a) (UnitVW.slot u) 2
      (if q.val < 28 then [.lanes z q.val ((List.range 128).map fun k =>
        if act.getLsbD k then va k else (readLanes (curTask s) z q.val).getD k 0) act] else [])
    gives (.vsel u lp n d a b) 2 (fun k => if m.getLsbD k then va k else vb k) ∧ gives (.vmov u lp d a) 2 va
      ∧ gives (.vbcast u lp i d a) 2 (fun k => va (base k + i.val))
      ∧ gives (.vlane u lp d) 2 (fun k => BitVec.ofNat 32 k)
      ∧ gives (.vperm u lp d a b) 2 (fun k => va (base k + (vb k).toNat % 16))
      ∧ gives (.gxch u lp d a map) 4 (fun k => va (16 * (map.toNat / 2 ^ (3 * (k / 16)) % 8) + k % 16))
      ∧ gives (.vpcnt u lp d n) 6 (fun _ => BitVec.ofNat 32 ones)
      ∧ gives (.vmkab u lp ef d a n) 2 (fun k =>
          if m.getLsbD k then ofElems ef (List.replicate ef.perLane (Format.absentCode ef)) else va k)
      ∧ (∀ v : Mask, (∀ k < 128, v.getLsbD k = good k) →
          Completes exec s (.vxld u lp d a b j) fun t => Issued s t (resultOf s (UnitVW.slot u) 4 (some (.vector u read))
            ((match d with
              | .reg r => [.lanes u r.val read act]
              | .latchOnly => []) ++ (if j.val < 2 then [] else [.vsingle j.val v act])) 0 false))
      ∧ moved .v ∧ moved .w
      ∧ (fl ≠ .v → fl ≠ .w → GivesOnly s (.xmovV u lp fl q a) (UnitVW.slot u) 4 (regDest fl q.val (va 0)))

/-- R274 to R277 with R15. -/
def Obligations.VectorComparesAndPredicatesWritePairs : Prop :=
  ∀ (u : UnitVW) (lp : Fin 16) (ef : Format) (k : Fin 8) (a b : VSrc) (w : Option (Fin 16)) (m n : Fin 16) (s : State),
    let act := readVPred (curTask s) lp.val
    let env := Env.ofFmt (curTask s).fmt
    let va (j : Nat) : Word := laneVal s u a j
    let vb (j : Nat) : Word := laneVal s u b j
    let gone (j : Nat) : Bool := isAbsent ef (va j).toNat || isAbsent ef (vb j).toNat
    let fa (j : Nat) : Val := decodeFloat ef env.fz (va j).toNat
    let fb (j : Nat) : Val := decodeFloat ef env.fz (vb j).toNat
    let nan (j : Nat) : Bool := ef.isFloat && (firstNaN [fa j, fb j]).isSome
    let less (j : Nat) : Bool :=
      if ef.isFloat then ltVal (fa j) (fb j) else if ef.isInt then (va j).slt (vb j) else (va j).ult (vb j)
    let same (j : Nat) : Bool := if ef.isFloat then eqVal (fa j) (fb j) else va j == vb j
    let raised (ordering : Bool) (j : Nat) : Nat :=
      if act.getLsbD j && !gone j && nan j then (if ordering then flagNV else signalling [fa j, fb j]) else 0
    let compares (i : Instr) (ordering : Bool) (rel : Bool → Bool → Bool) (onNaN : Bool) : Prop :=
      ∀ wit : Mask, (∀ j < 128, wit.getLsbD j = gone j) →
        GivesPairMask s u i lp k (fun j => !gone j && (if nan j then onNaN else rel (less j) (same j)))
          (match w with
            | some r => if r.val < 2 then [] else [.vsingle r.val wit act]
            | none => []) (joinFlags ((List.range 128).map (raised ordering)))
    let pa (j : Nat) : Bool := (readVPred (curTask s) m.val).getLsbD j
    let pb (j : Nat) : Bool := (readVPred (curTask s) n.val).getLsbD j
    let pair (i : Instr) (c : Nat → Bool) : Prop := GivesPairMask s u i lp k c [] 0
    compares (.vcmpeq u lp ef k a b w) false (fun _ e => e) false
      ∧ compares (.vcmpne u lp ef k a b w) false (fun _ e => !e) true
      ∧ compares (.vcmplt u lp ef k a b w) true (fun l _ => l) false
      ∧ compares (.vcmple u lp ef k a b w) true (fun l e => l || e) false
      ∧ compares (.vcmpgt u lp ef k a b w) true (fun l e => !(l || e)) false
      ∧ compares (.vcmpge u lp ef k a b w) true (fun l _ => !l) false
      ∧ pair (.visab u lp ef k a) (fun j => (elemsOf ef (va j)).any (isAbsent ef))
      ∧ pair (.vpand u lp k m n) (fun j => pa j && pb j) ∧ pair (.vpor u lp k m n) (fun j => pa j || pb j)
      ∧ pair (.vpxor u lp k m n) (fun j => pa j != pb j) ∧ pair (.vpnot u lp k m) (fun j => !pa j)
      ∧ pair (.vpbc u lp k m) (fun _ => readPred (curTask s) m.val)

/-- R282 to R284. -/
def Obligations.ReductionsAndBlockFormsActOnLaneGroups : Prop :=
  ∀ (u : UnitVW) (lp : Fin 16) (ef : Format) (d : VDst) (a : VSrc) (s : State),
    let act := readVPred (curTask s) lp.val
    let env := Env.ofFmt (curTask s).fmt
    let va (k : Nat) : Word := laneVal s u a k
    let present (g : Nat) : List Nat :=
      ((List.range 16).flatMap fun i => if act.getLsbD (16 * g + i) then elemsOf ef (va (16 * g + i)) else []).filter
        fun e => !isAbsent ef e
    let blank : Nat × Nat := (if ef.hasAbsent then Format.absentCode ef else 0, 0)
    let every (p : Nat × Nat) : Word × Nat := (ofElems ef (List.replicate ef.perLane p.1), p.2)
    let reduced (op : List Nat → Nat × Nat) (k : Nat) : Nat × Nat :=
      if present (k / 16) = [] then blank else op (present (k / 16))
    let string (g : Nat) : Nat × Nat := encodeBlock ef env.mode ((List.range 16).map fun i =>
      if act.getLsbD (16 * g + i) then decodeFloat .fp32 env.fz (va (16 * g + i)).toNat else .absent)
    let text (g : Nat) : Nat := ((List.range 16).foldr (fun i n => (va (16 * g + i)).toNat + 2 ^ 32 * n) 0)
      % 256 ^ Format.groupSize ef
    let gives (i : Instr) (lat : Nat) (v : Nat → Word × Nat) : Prop := GivesLanes s u i lp lat d v
    gives (.vsum u lp ef d a) 6 (fun k => every (reduced (elemSum ef env) k))
      ∧ gives (.vrmin u lp ef d a) 6 (fun k => every (reduced (elemExtreme .min ef env) k))
      ∧ gives (.vrmax u lp ef d a) 6 (fun k => every (reduced (elemExtreme .max ef env) k))
      ∧ gives (.vsumc u lp ef d a) 6 (fun k =>
          let r := reduced (elemSum ef env) k
          (BitVec.ofNat 32 (if k % 2 = 0 then r.1 else (present (k / 16)).length), r.2))
      ∧ gives (.vpack u lp ef d a) 4 (fun k =>
          (BitVec.ofNat 32 ((string (k / 16)).1 / 2 ^ (32 * (k % 16)) % 2 ^ 32), (string (k / 16)).2))
      ∧ gives (.vunpk u lp ef d a) 4 (fun k =>
          (BitVec.ofNat 32 (encodeFloat .fp32 Env.plain 24 (blockElem ef (text (k / 16)) (k % 16))).1, 0))
      ∧ (∀ es : List Nat, ef.isFloat = false → ef.isInt = true →
          elemSum ef env es = (patternOf ef.width (saturate ef.width ((es.map (sextNat · ef.width)).sum)), 0))
      ∧ (∀ es : List Nat, ef.isFloat = false → ef.isInt = false → elemSum ef env es = (es.sum % 2 ^ ef.width, 0))

/-- R266 and R267 for class I with R51, R52, R54, R56, R269 and R272: the arithmetic itself, over the reals. That an
overflowed or flushed sum takes the sign of the exact result is R51 and R52. That a conversion to an integer format
that rounds beyond its range raises invalid without inexact is the model's choice (DEDUCED, log entry 84): the table
of R56 lists both. -/
def Obligations.FiniteArithmeticRoundsTheExactResultOnce : Prop :=
  ∀ (f g : Format) (env : Env) (a b c : Nat), f.isFloat = true → IsFinite f a → IsFinite f b → IsFinite f c →
    let x := valueRead f env.fz a
    let y := valueRead f env.fz b
    let z := valueRead f env.fz c
    let sa := minusSign f a
    let sb := minusSign f b
    let sc := minusSign f c
    let gives (r : ℚ) (zeroNeg : Bool) (out : Nat × Nat) : Prop := DeliversNumber f env r zeroNeg out
    let summed (m n : Bool) : Bool := if m = n then m else env.mode == .rdn
    let below : Bool :=
      decide (finiteValue f (asRead f env.fz a) < finiteValue f (asRead f env.fz b)
        ∨ finiteValue f (asRead f env.fz a) = finiteValue f (asRead f env.fz b) ∧ sa = true ∧ sb = false)
    let integral (mode : Rounding) : Prop := ∀ k : ℤ, RoundsTo mode x k →
      let out := floatIntegral f env mode a
      IsFinite f out.1 ∧ finiteValue f out.1 = k ∧ minusSign f out.1 = sa ∧ out.2 = 0
    let whole (k : ℤ) : ℤ := max (-(2 ^ (g.width - 1) - 1)) (min (2 ^ (g.width - 1) - 1) k)
    gives (x + y) (summed sa sb) (elemBin .add f env a b) ∧ gives (x - y) (summed sa !sb) (elemBin .sub f env a b)
      ∧ gives (x * y) (sa != sb) (elemBin .mul f env a b)
      ∧ (y ≠ 0 → gives (x / y) (sa != sb) (elemBin .div f env a b)) ∧ (x ≠ 0 → gives (1 / x) sa (floatRcp f env a))
      ∧ (∀ na nc : Bool, gives ((if na then -1 else 1) * (x * y) + (if nc then -1 else 1) * z)
          (summed ((sa != na) != sb) (sc != nc)) (elemFma na nc f env a b c))
      ∧ (0 < x → DeliversRounded f env (Real.sqrt (x : ℝ)) (floatSqrt f env a))
      ∧ (x = 0 → floatSqrt f env a = (zeroPattern f sa, 0))
      ∧ (∀ m : Nat, m < 2 ^ f.width → m ≠ 2 ^ (f.width - 1) → gives (x * 2 ^ sextNat m f.width) sa (floatScale f env a m))
      ∧ elemBin .min f env a b = (asRead f env.fz (if below then a else b), 0)
      ∧ elemBin .max f env a b = (asRead f env.fz (if below then b else a), 0)
      ∧ integral env.mode ∧ integral .rtz
      ∧ (g.isFloat = true → DeliversNumber g env x sa (convertElem g f env a))
      ∧ (g.isInt = true → g.isFloat = false → ∀ k : ℤ, RoundsTo env.mode x k →
          convertElem g f env a = ((whole k % 2 ^ g.width).toNat,
            if whole k ≠ k then 16 else if (k : ℚ) = x then 0 else 1))
      ∧ (∀ i : Format, i.isInt = true → i.isFloat = false → ∀ n : Nat, n < 2 ^ i.width → n ≠ 2 ^ (i.width - 1) →
          DeliversNumber f env (sextNat n i.width) false (convertElem f i env n)
            ∧ (g.isInt = true → g.isFloat = false →
                convertElem g i env n = ((whole (sextNat n i.width) % 2 ^ g.width).toNat, 0)))

/-- R43, R44, R53, R54, R56, R267, R269 to R272, case by case. That an infinity converted to an integer raises invalid
without inexact is the model's choice (DEDUCED, log entry 84), and so is the zero that a subnormal survivor of a sign
flip is read as under FZ (DESIGN CHOICE, log entry 74). The accuracy of R271 elsewhere is the bound of log entry 9. -/
def Obligations.AbsentNaNAndInfiniteOperandsFollowTheirTables : Prop :=
  ∀ (f g : Format) (env : Env) (a b c : Nat), f.isFloat = true → a ≤ absentPattern f → b ≤ absentPattern f →
    c ≤ absentPattern f →
    let gone := absentPattern f
    let sa := minusSign f a
    let sb := minusSign f b
    let bad : Nat × Nat := (canonicalNaN f, 16)
    let either (op : BinOp) (r : Nat × Nat) : Prop := elemBin op f env a b = r
    let arith (r : Nat × Nat) : Prop := either .add r ∧ either .sub r ∧ either .mul r ∧ either .div r
    let present := a ≠ gone ∧ b ≠ gone
    let number (x : Nat) : Prop := IsFinite f x ∧ valueRead f env.fz x ≠ 0
    let zero (x : Nat) : Prop := IsFinite f x ∧ valueRead f env.fz x = 0
    let signed (x : Nat) (neg : Bool) : Nat :=
      let p := (if neg then 2 ^ (f.width - 1) else 0) + x % 2 ^ (f.width - 1)
      if p = gone then canonicalNaN f else p
    let sp (fn : Env → Nat → Nat × Nat) (x : Nat) (r : Nat × Nat) : Prop := fn env x = r
    let functions := [floatExp2, floatLog2, floatRsqrt, floatSin, floatCos, floatTanh, floatSigm]
    (a = gone → either .add (b, 0) ∧ either .mul (b, 0) ∧ either .min (b, 0) ∧ either .max (b, 0) ∧ either .div (gone, 0)
        ∧ floatSqrt f env a = (gone, 0) ∧ floatRcp f env a = (gone, 0)
        ∧ floatIntegral f env env.mode a = (gone, 0) ∧ elemAbs f a = (gone, 0) ∧ elemNeg f a = (gone, 0)
        ∧ floatScale f env a b = (gone, 0) ∧ elemSgnj f a b = (gone, 0)
        ∧ (b = gone → either .sub (gone, 0)) ∧ (b ≠ gone → either .sub (signed (asRead f env.fz b) !sb, 0)))
      ∧ (a = gone ∨ b = gone → ∀ na : Bool, elemFma na false f env a b c = (c, 0)
          ∧ (c = gone → elemFma na true f env a b c = (gone, 0))
          ∧ (c ≠ gone → elemFma na true f env a b c = (signed (asRead f env.fz c) !(minusSign f c), 0)))
      ∧ (b = gone → either .add (a, 0) ∧ either .sub (a, 0) ∧ either .mul (a, 0) ∧ either .min (a, 0) ∧ either .max (a, 0)
        ∧ either .div (gone, 0) ∧ elemSgnj f a b = (a, 0))
      ∧ (present → c = gone → elemFma false false f env a b c = elemBin .mul f env a b)
      ∧ (present → IsNaN f a → ¬IsNaN f b → arith (quieted f a, invalidIf f a)
          ∧ either .min (asRead f env.fz b, invalidIf f a) ∧ either .max (asRead f env.fz b, invalidIf f a))
      ∧ (present → ¬IsNaN f a → IsNaN f b → arith (quieted f b, invalidIf f b)
          ∧ either .min (asRead f env.fz a, invalidIf f b) ∧ either .max (asRead f env.fz a, invalidIf f b))
      ∧ (IsNaN f a → IsNaN f b → arith (quieted f a, max (invalidIf f a) (invalidIf f b))
          ∧ either .min (quieted f a, max (invalidIf f a) (invalidIf f b))
          ∧ either .max (quieted f a, max (invalidIf f a) (invalidIf f b)))
      ∧ (IsInf f a → IsFinite f b → either .add (a, 0) ∧ either .sub (a, 0) ∧ either .div (infPattern f (sa != sb), 0))
      ∧ (IsFinite f a → IsInf f b → either .add (b, 0) ∧ either .sub (infPattern f !sb, 0)
          ∧ either .div (zeroPattern f (sa != sb), 0))
      ∧ (IsInf f a → IsInf f b → either .div bad ∧ either .mul (infPattern f (sa != sb), 0)
          ∧ (sa = sb → either .add (a, 0) ∧ either .sub bad) ∧ (sa ≠ sb → either .add bad ∧ either .sub (a, 0)))
      ∧ (IsInf f a → number b → either .mul (infPattern f (sa != sb), 0))
      ∧ (number a → IsInf f b → either .mul (infPattern f (sa != sb), 0))
      ∧ (IsInf f a ∧ zero b ∨ zero a ∧ IsInf f b → either .mul bad
          ∧ (IsNaN f c → elemFma false false f env a b c = (quieted f c, 16))
          ∧ (IsFinite f c ∨ IsInf f c → elemFma false false f env a b c = bad))
      ∧ (number a → zero b → either .div (infPattern f (sa != sb), 8)) ∧ (zero a → zero b → either .div bad)
      ∧ (zero a → floatRcp f env a = (infPattern f sa, 8)) ∧ (IsInf f a → floatRcp f env a = (zeroPattern f sa, 0))
      ∧ (number a → sa = true → floatSqrt f env a = bad)
      ∧ (IsInf f a → floatSqrt f env a = if sa then bad else (a, 0))
      ∧ (IsNaN f a → floatSqrt f env a = (quieted f a, invalidIf f a) ∧ floatRcp f env a = (quieted f a, invalidIf f a)
          ∧ floatIntegral f env env.mode a = (quieted f a, invalidIf f a))
      ∧ (a ≠ gone → elemAbs f a = (signed a false, 0) ∧ elemNeg f a = (signed a !sa, 0)
          ∧ (b ≠ gone → elemSgnj f a b = (signed a sb, 0)))
      ∧ (g.isFloat = true → a = gone → convertElem g f env a = (absentPattern g, 0))
      ∧ (g.isFloat = true → IsInf f a → convertElem g f env a = (infPattern g sa, 0))
      ∧ (g.isFloat = true → IsNaN f a →
          let kept := fracField f a * 2 ^ (ieeeBits g).2 / 2 ^ (ieeeBits f).2
          convertElem g f env a = (quieted g (infPattern g sa + kept), invalidIf f a))
      ∧ (g.isInt = true → g.isFloat = false →
          (a = gone → convertElem g f env a = (2 ^ (g.width - 1), 0))
            ∧ (IsNaN f a → convertElem g f env a = (2 ^ (g.width - 1), 16))
            ∧ (IsInf f a → convertElem g f env a = (if sa then 2 ^ (g.width - 1) + 1 else 2 ^ (g.width - 1) - 1, 16)))
      ∧ (f = .fp32 → (∀ fn ∈ functions, (a = gone → sp fn a (gone, 0))
            ∧ (IsNaN f a → sp fn a (quieted f a, invalidIf f a)) ∧ (fn env a).2 % 2 = 0)
          ∧ sp floatExp2 0xFF800000 (0, 0) ∧ sp floatExp2 0x7F800000 (0x7F800000, 0)
          ∧ (IsFinite f a → 128 ≤ valueRead f env.fz a → sp floatExp2 a (0x7F800000, 4))
          ∧ (IsFinite f a → valueRead f env.fz a < -150 → sp floatExp2 a (0, 2))
          ∧ (∀ k : ℤ, -126 ≤ k → k < 128 → IsFinite f a → valueRead f env.fz a = k →
              sp floatExp2 a (((k + 127) * 2 ^ 23).toNat, 0))
          ∧ (zero a → sp floatLog2 a (0xFF800000, 8) ∧ sp floatRsqrt a (if sa then 0xFF800000 else 0x7F800000, 8)
              ∧ sp floatSin a (zeroPattern f sa, 0) ∧ sp floatCos a (0x3F800000, 0) ∧ sp floatTanh a (zeroPattern f sa, 0))
          ∧ (number a → sa = true → sp floatLog2 a bad ∧ sp floatRsqrt a bad)
          ∧ sp floatLog2 0xFF800000 bad ∧ sp floatLog2 0x7F800000 (0x7F800000, 0) ∧ sp floatLog2 0x3F800000 (0, 0)
          ∧ sp floatRsqrt 0xFF800000 bad ∧ sp floatRsqrt 0x7F800000 (0, 0)
          ∧ (IsInf f a → sp floatSin a bad ∧ sp floatCos a bad ∧ sp floatTanh a (if sa then 0xBF800000 else 0x3F800000, 0)
              ∧ sp floatSigm a (if sa then 0 else 0x3F800000, 0)))

/-- R47 to R49. That an infinity, which its scale divides, raises no inexact is log entry 74. -/
def Obligations.BlockGroupsEncodeAndDecodeTheirValues : Prop :=
  ∀ (f : Format) (mode : Rounding) (fz : Bool) (xs : List Nat), f.isBlock = true → xs.length = 16 →
    (∀ x ∈ xs, x ≤ absentPattern .fp32) →
    let m : Nat := match f with
      | .bx4 => 2 | .bx6 => 4 | _ => 7
    let present (x : Nat) : Prop := IsFinite .fp32 x ∨ IsInf .fp32 x
    let value (x : Nat) : ℚ :=
      if x = 0x7F800000 then 2 ^ 128 else if x = 0xFF800000 then -2 ^ 128 else valueRead .fp32 fz x
    let r := encodeBlock f mode (xs.map (decodeFloat .fp32 fz))
    let scale : ℕ := r.1 % 256
    let shift (u : Nat) : Nat := r.1 / 2 ^ (8 + 2 * u) % 4
    let fieldOf (i : Nat) : Nat := r.1 / 2 ^ (16 + (m + 1) * i) % 2 ^ (m + 1)
    let unit (i : Nat) : ℚ := 2 ^ ((scale : ℤ) - 127 - shift (i / 4) - m + 1)
    let at' (i : Nat) : Nat := xs.getD i 0
    (r.1 < 256 ^ (2 * (m + 1) + 2))
      ∧ (r.2.testBit 4 = true ↔ ∃ x ∈ xs, IsNaN .fp32 x) ∧ r.2.testBit 3 = false ∧ r.2 < 32
      ∧ ((∀ x ∈ xs, ¬present x) → r.1 = 255 ∧ r.2 % 16 = 0)
      ∧ ((∃ x ∈ xs, present x) →
        (∀ e : ℤ, (∀ x ∈ xs, present x → |value x| < 2 ^ (e + 1)) → (∃ x ∈ xs, present x ∧ (2 : ℚ) ^ e ≤ |value x|) →
            (scale : ℤ) = max 0 (min 254 (e + 127)))
          ∧ ((∀ x ∈ xs, present x → value x = 0) → scale = 0)
          ∧ (∀ u < 4, ∀ k : Nat, k ≤ 3 →
              (k ≤ shift u ↔ k = 0 ∨ ∀ i < 4, present (at' (4 * u + i)) →
                |value (at' (4 * u + i))| < 2 ^ ((scale : ℤ) - 127 - k + 1)))
          ∧ (∀ i < 16, ¬present (at' i) → fieldOf i = 2 ^ m)
          ∧ (∀ i < 16, present (at' i) → ∀ k : ℤ, RoundsTo mode (value (at' i) / unit i : ℚ) k →
              fieldOf i = (max (-(2 ^ m - 1)) (min (2 ^ m - 1) k) % 2 ^ (m + 1)).toNat)
          ∧ (r.2.testBit 2 = true ↔ ∃ x ∈ xs, IsInf .fp32 x)
          ∧ (r.2.testBit 0 = true ↔ ∃ i < 16, present (at' i) ∧ ∀ k : ℤ, (k : ℚ) ≠ value (at' i) / unit i)
          ∧ (r.2.testBit 1 = true ↔ ∃ i < 16, present (at' i) ∧ value (at' i) ≠ 0
              ∧ RoundsTo mode (value (at' i) / unit i : ℚ) 0))
      ∧ ∀ (n i : Nat), i < 16 →
          let fl := n / 2 ^ (16 + (m + 1) * i) % 2 ^ (m + 1)
          let e : ℤ := (n % 256 : ℕ) - 127 - (n / 2 ^ (8 + 2 * (i / 4)) % 4 : ℕ) - m + 1
          (n % 256 = 255 ∨ fl = 2 ^ m → blockElem f n i = .absent)
            ∧ (n % 256 ≠ 255 → fl ≠ 2 ^ m → ∃ (neg : Bool) (num den : Nat) (exp : ℤ),
                blockElem f n i = .real neg num den exp ∧ den ≠ 0
                  ∧ (if neg then -1 else 1) * ((num : ℚ) / den) * 2 ^ exp = sextNat fl (m + 1) * (2 : ℚ) ^ e)

/-- R102 to R106, R255, R256, R362. -/
def Obligations.BarriersArriveStartAndIdle : Prop :=
  ∀ (gd : Guard) (x y : SSrc) (scope : Fin 7) (s : State),
    let core := s.cur.core
    let w := srcVal s .f x
    let own := clusterOf core
    let c := if w.getLsbD 31 = true ∧ w.toNat / 2 ^ 24 % 32 < 24 then 24 * (w.toNat / 2 ^ 29 % 4) + w.toNat / 2 ^ 24 % 32
      else own
    let b := w.toNat / 2 ^ 8 % 1024
    let z := barrierOf s c b
    let n := (srcVal s .f y).toNat
    let clear := if z.fault then { z with fault := false, fcause := 0, arrived := 0 } else z
    let started : Barrier := { clear with expected := n, scope := scope.val, init := true, owner := some s.cur.gid }
    let spilt : Barrier := { started with fault := true, fcause := 2 }
    let done := accessesDone s core s.now
    let quiet (i : Instr) : Prop := Completes exec s i fun t => t = Same s t ∧ KeepsCores s t
    let notes (i : Instr) (st : Option (Nat × Nat)) : Prop := Completes exec s i fun t =>
      t = { Same s t with starts := s.starts ++ [⟨core, s.cur.gid, s.cur.lichen, 1024 * c + b, st⟩] } ∧ KeepsCores s t
    (s.cur.external = true →
      (done = true → s.gather = false → Completes exec s (.barv gd x y) fun t =>
          OneBarrier s t c b (afterArrival z n) ∧ t.groups = s.groups)
        ∧ (done = true → s.gather = true → Completes exec s (.barv gd x y) fun t =>
            t = { Same s t with arrivals := s.arrivals ++ [(1024 * c + b, n)] } ∧ KeepsCores s t)
        ∧ (done = false → Completes exec s (.barv gd x y) fun t =>
            t = { Same s t with lateArrivals := s.lateArrivals ++ [⟨core, s.now, 1024 * c + b, n⟩] } ∧ KeepsCores s t)
        ∧ (s.gather = false → clear.arrived < n → Completes exec s (.binit gd x y scope) fun t =>
            OneBarrier s t c b started ∧ t.groups = s.groups ∧ SameMemory s t)
        ∧ (s.gather = false → clear.arrived = n → Completes exec s (.binit gd x y scope) fun t =>
            OneBarrier s t c b { started with arrived := 0, gen := (z.gen + 1) % 256 } ∧ t.groups = s.groups)
        ∧ (s.gather = false → n < clear.arrived → s.cur.lichen = false → Completes exec s (.binit gd x y scope) fun t =>
            OneBarrier s t c b spilt ∧ t.groups = s.groups.map fun g => if g.gid = s.cur.gid then
                { g with pending := g.pending ++ [⟨6, b, [g.rankOf core], none⟩] } else g)
        ∧ (s.gather = false → n < clear.arrived → s.cur.lichen = true → Completes exec s (.binit gd x y scope) fun t =>
            OneBarrier s t c b spilt ∧ t.groups = s.groups ∧ (coreOf t core).lichen.inFault = true)
        ∧ (s.gather = false → Completes exec s (.bidle gd x) fun t =>
            OneBarrier s t c b { z with init := false, arrived := 0, expected := 0, fault := false, fcause := 0 }
              ∧ t.groups = s.groups ∧ SameMemory s t)
        ∧ (s.gather = true → notes (.binit gd x y scope) (some (n, scope.val)) ∧ notes (.bidle gd x) none))
      ∧ (s.cur.external = false → quiet (.barv gd x y) ∧ quiet (.binit gd x y scope) ∧ quiet (.bidle gd x))

/-- R254, R257, R386, R391. -/
def Obligations.RotationsAndMessagesGoInFlight : Prop :=
  ∀ (gd : Guard) (x y : SSrc) (cnt dir : Bool) (len bar : Fin 1024) (q : Fin 4) (s : State),
    let core := s.cur.core
    let from' := (srcVal s .f x).toNat
    let dst := (srcVal s .f y).toNat
    let n := 16 * (len.val + 1)
    let bytes := readBytes s (nearPA core from') n
    let bad := (List.range n).map fun j => poisonedAt s (nearPA core (from' + j)) 1
    let late := 8 + (n + 255) / 256
    let asked (target j : Nat) : BankRequest := ⟨target, 2, (dst + 16 * j) / 8192 % 32, 5, s.nextId, 0⟩
    let asks (target : Nat) : List BankRequest := s.bankReqs ++ (List.range (len.val + 1)).map (asked target)
    (∀ g, curGroup s = some g →
        let ring := if g.trailing.contains core then g.trailing else g.members
        let r := g.rankOf core
        let w := ring.length
        let target := ring.getD (if dir then (r + w - 1) % w else (r + 1) % w) core
        let tile : Tile := ⟨s.nextId, s.cur.cycle + late, target, dst, bytes,
          if s.cur.external && cnt then some bar.val else none, bad, writerOf s⟩
        Completes exec s (.rot gd x y cnt dir len bar) fun t =>
          t = { Same s t with
              groups := s.groups.map fun h => if h.gid = g.gid then { h with tiles := h.tiles ++ [tile] } else h,
              nextId := s.nextId + 1, bankReqs := asks target }
            ∧ KeepsCores s t)
      ∧ (curGroup s = none → Completes exec s (.rot gd x y cnt dir len bar) fun t =>
          t = { Same s t with nextId := s.nextId + 1, bankReqs := asks core }
            ∧ (coreOf t core).lichen.tiles = (coreOf s core).lichen.tiles
              ++ [⟨s.nextId, s.now + late, core, dst, bytes, if cnt then some bar.val else none, bad, .other⟩]
            ∧ ∀ j, coreOf t j = { coreOf s j with
                charged := (coreOf t j).charged, task := { taskOf s j with energy := (taskOf t j).energy },
                lichen := { (coreOf s j).lichen with tiles := (coreOf t j).lichen.tiles } }
              ∧ (j ≠ core → (coreOf t j).lichen = (coreOf s j).lichen))
      ∧ (s.cur.external = true → Completes exec s (.qpush gd x y q) fun t =>
          t = { Same s t with inFlight := s.inFlight ++
            [⟨memberCore (clusterOf core) (dst % 64), q.val, readBytes s (nearPA core from') 16, s.now, core,
              poisonedAt s (nearPA core from') 16⟩] } ∧ KeepsCores s t)
      ∧ (s.cur.external = false → Completes exec s (.qpush gd x y q) fun t => t = Same s t ∧ KeepsCores s t)

/-- R87, R244 to R246, R386, R387. The choice of the engine where the rules leave it open is the model's (DEDUCED and
DESIGN CHOICE, log entry 28), and so is the order of the reasons for which a command is refused at issue (DESIGN
CHOICE, log entry 31). -/
def Obligations.EngineCommandsEnterTheirEngine : Prop :=
  ∀ (gd : Guard) (sl : Fin 16) (x y : SSrc) (nb rel acq : Bool) (s : State),
    let core := s.cur.core
    sl.val < (taskOf s core).slots.length → sl.val < (taskOf s core).slotCmds.length →
    let word (state reason op : Nat) : Word × Word := (BitVec.ofNat 32 (state * 2 ^ 28 + reason * 2 ^ 16 + op), 0)
    let shows (t : State) (state reason op : Nat) : Prop :=
      (s.cur.lichen = false → (taskOf t core).slots.getD sl.val (0, 0) = word state reason op)
        ∧ (s.cur.lichen = true → ∀ j, (taskOf t j).slots = (taskOf s j).slots)
    let issuesAs (i : Instr) (op : Nat) (x : Option SSrc) : Prop :=
      let c := { captureCommand s op sl x y nb rel acq with id := (leadingId s sl.val).getD s.nextId }
      Completes exec s i fun t =>
        (s.cur.external = true → match engineFor s c with
          | .ok e => (engineOf t e).queue = (engineOf s e).queue ++ [c] ∧ (engineOf t e).running = (engineOf s e).running
              ∧ (∀ f, f ≠ e → engineOf t f = engineOf s f) ∧ shows t 1 0 op ∧ SameMemory s t ∧ t.groups = s.groups
          | .error reason => (∀ f, engineOf t f = engineOf s f) ∧ shows t 4 reason op ∧ t.groups = s.groups
              ∧ (s.cur.lichen = false → ∀ j ∈ insiders s core, j ≠ core → (taskOf t j).slots =
                  if (taskOf s j).slotCmds.getD sl.val 0 = c.id then (taskOf s j).slots.set sl.val (word 4 reason op)
                  else (taskOf s j).slots)
              ∧ (nb = false → Marked s t c.barCluster c.bar 3))
        ∧ (s.cur.external = false → t.dom = s.dom ∧ shows t 1 0 op ∧ SameMemory s t ∧ t.groups = s.groups)
    issuesAs (.cpy gd sl x y nb rel acq) 0x01 (some x) ∧ issuesAs (.cpy2d gd sl x y nb rel acq) 0x02 (some x)
      ∧ issuesAs (.cpyt gd sl x y nb rel acq) 0x03 (some x) ∧ issuesAs (.cpyg gd sl x y nb rel acq) 0x04 (some x)
      ∧ issuesAs (.cpys gd sl x y nb rel acq) 0x05 (some x) ∧ issuesAs (.strm gd sl x y nb rel acq) 0x06 (some x)
      ∧ issuesAs (.strmx gd sl x y nb rel acq) 0x07 (some x) ∧ issuesAs (.cpyx gd sl x y nb rel acq) 0x08 (some x)
      ∧ issuesAs (.mcast gd sl x y nb rel acq) 0x09 (some x) ∧ issuesAs (.tsort gd sl x y nb rel acq) 0x0F (some x)
      ∧ issuesAs (.cpfill gd sl x y nb rel acq) 0x16 (some x) ∧ issuesAs (.sqcfg gd sl x y nb rel acq) 0x18 (some x)
      ∧ issuesAs (.sqbind gd sl x y nb rel acq) 0x19 (some x) ∧ issuesAs (.sqstage gd sl x y nb rel acq) 0x1A (some x)
      ∧ issuesAs (.sqtake gd sl x y nb rel acq) 0x1B (some x) ∧ issuesAs (.sqjudge gd sl y nb rel acq) 0x1C none
      ∧ issuesAs (.sqstat gd sl x y nb rel acq) 0x1D (some x)

/-- R239 to R242, R380; program 0 for the lichen context is the model's choice: log entry 20. -/
def Obligations.GlobalAccessesGoInFlight : Prop :=
  ∀ (gd : Guard) (d : Fin 32) (fl : File) (x y : SSrc) (len bar : Fin 1024) (aop : Fin 11) (w64 : Bool) (ref : Word)
      (s : State),
    let core := s.cur.core
    let near := (readReg (curTask s) .m d.val).toNat
    let va := (srcVal s .m y).toNat % 2 ^ 16 * 2 ^ 32 + (srcVal s .m x).toNat
    let n := 4 * (len.val + 1)
    let a := if w64 then 8 else 4
    let program := match curGroup s with
      | some g => g.program
      | none => 0
    let own := clusterOf core
    let bytes := readBytes s (nearPA core near) n
    let operand := leNat (readBytes s (nearPA core near) a)
    let second := if aop.val = 1 then leNat (readBytes s (nearPA core (near + a)) a) else 0
    let flight (op : GlobalOp) (rc : Nat × Nat) (bad : List Bool) (entered : Bool) : Global :=
      ⟨s.nextId, s.now, core, s.cur.gid, program, va, op, rc.1, rc.2, writerOf s, bad, s.cur.scope, false, entered⟩
    let flies (i : Instr) (op : GlobalOp) (rc : Nat × Nat) (bad : List Bool) : Prop := Completes exec s i fun t =>
      t = { Same s t with globals := s.globals ++ [flight op rc bad false], nextId := s.nextId + 1 } ∧ KeepsCores s t
    let quiet (i : Instr) : Prop := Completes exec s i fun t => t = Same s t ∧ KeepsCores s t
    let held (i : Instr) (rc : Nat × Nat) (ws : List HeldWrite) (more : State → Prop) : Prop := Completes exec s i fun t =>
      (die t (dieOf core)).egress
          = (die s (dieOf core)).egress ++ ws.map (fun w => ⟨core, s.pkg.intnum, regionOf (writerOf s), some rc, w⟩)
        ∧ KeepsTasks s t ∧ t.groups = s.groups ∧ more t
    let bytesOf (w : HeldWrite) : List (Nat × Byte × Bool) := match w with
      | .bytes pa bs bad => (bs.zip bad).zipIdx.map fun (b, j) => (pa + j, b)
      | _ => []
    let room : Prop := (die s (dieOf core)).egress.length + n ≤ 8192
    let home := translate s own program va ⟨false, false, true⟩
    let where' := translateHeld s own program va
    let pages := translateAll s own program va n ⟨false, true, false⟩
    let rc := barRef own ref
    let word := readReg (curTask s) fl d.val
    let four := (List.range 4).map fun j => word.extractLsb' (8 * j) 8
    let poisons := (List.range n).map fun j => poisonedAt s (nearPA core (near + j)) 1
    let poison := List.replicate a (poisonedAt s (nearPA core near) (if aop.val = 1 then 2 * a else a))
    let waits := entryWaits s
    let marks (cause : Nat) : Prop := Completes exec s (.irst gd fl d x y ref) fun t =>
      Marked s t rc.1 rc.2 cause ∧ t.groups = s.groups ∧ KeepsTasks s t ∧ t.dies.map Die.egress = s.dies.map Die.egress
    (s.cur.external = true → dieOf core < s.dies.length →
      flies (.gld gd d x y len bar) (.load near n) (own, bar.val) []
        ∧ (waits = true ∨ (∀ pas, pages = .ok pas → ∀ pa ∈ pas, irrevocable s pa = false) →
            flies (.gst gd d x y len bar) (.store bytes) (own, bar.val) poisons)
        ∧ (waits = false → ∀ pas, pages = .ok pas → (∃ pa ∈ pas, irrevocable s pa = true) → room →
            ∃ ws, ws.flatMap bytesOf = (pas.zip (bytes.zip poisons)).filter (fun z => irrevocable s z.1)
              ∧ held (.gst gd d x y len bar) (own, bar.val) ws fun t =>
                if ∀ pa ∈ pas, irrevocable s pa = true then t.globals = s.globals ∧ Arrived s t own bar.val n
                else t.globals = s.globals ++ [flight (.store bytes) (own, bar.val) poisons true] ∧ t.dom = s.dom)
        ∧ (waits = true ∨ (∀ pa, home = .ok pa → irrevocable s pa = false) →
            flies (.gatom gd d x y aop w64 bar) (.atomic near aop.val w64 operand second) (own, bar.val) poison)
        ∧ (waits = false → ∀ pa, home = .ok pa → irrevocable s pa = true →
            held (.gatom gd d x y aop w64 bar) (own, bar.val)
              [.atomic pa aop.val w64 operand second core near own bar.val s.cur.gid] fun t => t.globals = s.globals ∧ t.dom = s.dom)
        ∧ (waits = true → flies (.irst gd fl d x y ref) (.held four) rc [])
        ∧ (waits = false →
            (∀ pa, where' = .ok pa →
              held (.irst gd fl d x y ref) rc [.bytes pa four (four.map fun _ => false)] fun t =>
                t.globals = s.globals ∧ Arrived s t rc.1 rc.2 4)
              ∧ (∀ e pa, pageOf s own program va = some (e, pa) → 1 ≤ pa / 2 ^ 48 → pa / 2 ^ 48 ≤ 3 → marks 6)
              ∧ (∀ c, where' = .error c → marks c)))
      ∧ (s.cur.external = false → quiet (.gld gd d x y len bar) ∧ quiet (.gst gd d x y len bar)
          ∧ quiet (.gatom gd d x y aop w64 bar) ∧ quiet (.irst gd fl d x y ref))

/-- R237, R238, R317. That the own remote stores before a qst at a scope above 0 stand in the column first is the
model's choice (DESIGN CHOICE, log entry 7). -/
def Obligations.QueueStoresWriteTheirEntry : Prop :=
  ∀ (gd : Guard) (q : Fin 4) (x y : SSrc) (s : State) (e : QEntry),
    (((curTask s).queues.getD q.val []).filter fun z => decide (z.since ≤ s.now)).head? = some e → RealCore s → nearAddr s x y < 2 ^ 18 →
    (e.layout = 3 → nearAddr s x y / 16 % 512 + e.rb < 512) →
    let was := ownStands s
    let ea := nearAddr s x y
    let bank := ea / 8192
    let row := ea / 16 % 512
    let es := e.fmt.width / 8
    let place (p : Nat) : Nat := match e.layout with
      | 1 => (bank + p / es) % 32 * 8192 + row * 16 + ea % 16 + p % es
      | 2 => Nat.xor ((bank + p / 16) % 32) (row % 32) * 8192 + row * 16 + p % 16
      | 3 => (bank + e.chunks * e.cb + p / 16) % 32 * 8192 + (row + e.rb) * 16 + p % 16
      | _ => (bank + p / 16) % 32 * 8192 + row * 16 + p % 16
    let value (j : Nat) : List Byte := (e.bytes.drop (j * es)).take es
    let pieces : List (Nat × List Byte) :=
      if e.fmt.isBlock then (List.range (2 * Format.groupSize e.fmt)).map fun p => (place p, [e.bytes.getD p 0])
      else ((List.range 32).filter fun j => !(e.skip && isAbsent e.fmt (leNat (value j)))).map fun j =>
        (place (j * es), value j)
    let clear (c : Nat × List Byte) : Prop := ∀ j < c.2.length, OutsideRing was (nearPA s.cur.core c.1 + j)
    Roomy was 1024 → Completes exec s (.qst gd q x y) fun t =>
      (∀ c ∈ pieces, clear c → (∀ c' ∈ pieces, c' = c ∨ c'.1 + c'.2.length ≤ c.1 ∨ c.1 + c.2.length ≤ c'.1) →
          pieces.count c ≤ 1 → ∀ j < c.2.length, readByte t (nearPA s.cur.core c.1 + j) = c.2.getD j 0)
        ∧ (∀ a, (∀ c ∈ pieces, Outside was (nearPA s.cur.core c.1) c.2.length a) → OutsideRing was a →
            readByte t a = readByte was a)
        ∧ KeepsAllButMemory was t

/-- R87 to R89, R92, R102, R247 to R253, R258, R396, R400 to R402, R405, R437. Values are converted as the statements
on conversions say; a log near its mark makes an engine wait (R373). The model's choices among what the rules allow:
when bytes are counted (DEDUCED, log entry 39), where a chunk stream ends (DEDUCED, log entry 41), the units moved and
that a list is read at the start (DESIGN CHOICE, log entry 42), and what a strm between equal formats does (DESIGN
CHOICE, log entry 74). -/
def Obligations.RunningCommandsWriteTheBytesTheirBlocksName : Prop :=
  ∀ (e : Nat) (c : Command) (rest : List Act) (s : State),
    let w (i : Nat) : Nat := (c.block.getD i 0).toNat
    let lo (i : Nat) : Handle := c.handle (w i % 4096)
    let hi (i : Nat) : Handle := c.handle (w i / 2 ^ 16 % 4096)
    let so := w 1 + 2 ^ 32 * (w 2 % 512)
    let dO := w 3 + 2 ^ 32 * (w 4 % 512)
    let v := viewOf { s with agenda := rest } c
    let get (h : Handle) (o n : Nat) : List Byte := tabulate n fun i => readByte v (h.pa (o + i))
    let bad (h : Handle) (o n : Nat) : Bool := (List.range n).any fun i => poisonedAt v (h.pa (o + i)) 1
    let num (h : Handle) (o n : Nat) : Nat := leNat (get h o n)
    let goes (after : State → Prop) : Prop := ∃ t, step s = .next t ∧ after t
    let runs (t : State) (f : List (Nat × Byte × Bool) → Command) : Prop :=
      ∃ kept, (engineOf t e).running.find? (fun d => d.id == c.id) = some (f kept)
    let quiet := s.gather = true ∨ NobodyWaits s
    let square := c.op = 3 ∧ w 0 % 4096 = w 0 / 2 ^ 16 % 4096 ∧ so = dO ∧ w 7 = w 8 ∧ w 5 = w 6
    let open' (pa n : Nat) : Prop := extentMapped s pa n = true ∧ pa / 2 ^ 48 < 2 ∧ twinAlso s pa = none
    let reachable (k : Nat) : Prop := ∀ a d, placesOf c k = some (a, d) →
      open' ((hi 0).pa d.toNat) c.es ∧ (c.op ≠ 0x16 → extentMapped s ((lo 0).pa a.toNat) c.es = true
        ∧ (lo 0).pa a.toNat / 2 ^ 48 < 3)
    let moves (k : Nat) : List (Nat × List Byte) :=
      if square then (if k % w 6 < k / w 6 then [] else if k % w 6 = k / w 6 then writesFor v c k
        else writesFor v c k ++ writesFor v c (mirrored c k)) else writesFor v c k
    s.pkg.held = false → s.agenda = .advance e c.id 1 :: rest → MovesOn { s with agenda := rest } e c →
    (c.copies = true → c.judged = true → c.done < c.count → (∀ k < c.count, reachable k) → Calm s 16 → quiet →
        goes fun t => ∃ n, 1 ≤ n ∧ n ≤ 16 ∧ c.done + n ≤ c.count ∧ (square → n = 1)
          ∧ (let ms := (List.range n).flatMap fun i => moves (c.done + i)
             (ms.Pairwise (fun x y => x.1 + x.2.length ≤ y.1 ∨ y.1 + y.2.length ≤ x.1) →
                ∀ m ∈ ms, ∀ j < m.2.length, OutsideRing s (m.1 + j) → readByte t (m.1 + j) = m.2.getD j 0)
              ∧ (∀ a, (∀ m ∈ ms, Outside s m.1 m.2.length a) → OutsideRing s a → readByte t a = readByte s a)
              ∧ runs t (fun kept => { c with
                  done := c.done + n, written := c.written + (ms.map fun m => m.2.length).sum, asked := false, kept := kept })
              ∧ (c.nb = true ∨ c.rel = true → t.dom.barriers = s.dom.barriers ∧ t.arrivals = s.arrivals)
              ∧ (c.nb = false → c.rel = false → Arrived s t c.barCluster c.bar (n * c.es))))
      ∧ (∀ j p ps, c.copies = false → c.judged = true → c.job = some j → j.pieces = p :: ps →
          let next := c.written + p.bytes.length
          (∀ x ∈ j.reads, x.first < next → x.mapped s = true) →
          open' p.pa p.bytes.length → p.pa / 64 = (p.pa + p.bytes.length - 1) / 64 → Calm s 16 → quiet → goes fun t =>
            (∀ i < p.bytes.length, OutsideRing s (p.pa + i) → readByte t (p.pa + i) = p.bytes.getD i 0)
              ∧ SameMemoryBut s t p.pa p.bytes.length
              ∧ runs t (fun kept => { c with
                  job := some { j with pieces := ps, reads := j.reads.dropWhile fun x => decide (x.last ≤ next) },
                  written := next, asked := false, kept := kept })
              ∧ (c.streams = true → c.nb = false → c.rel = false → Arrived s t c.barCluster c.bar p.bytes.length))
      ∧ (∀ c', c.judged = false → commandBegins v e c = .ok () → judgeCommand v e c = .ok c' →
          ((judgeSpans v e c).all (spanAnswers s) = true → goes fun t => t = { s with
              agenda := rest, dom := { s.dom with engines := t.dom.engines } } ∧ runs t fun _ => c')
            ∧ (c.op = 4 ∨ c.op = 5 → c'.list = tabulate (w 5) fun i => BitVec.ofNat 32 (num (lo 10) (w 11 + 4 * i) 4))
            ∧ (c.copies = false → ∃ j, c'.job = some j ∧
              (let out := writesOf j.pieces
               let z := crozierOf s (e / 8)
               let z' := j.croz.getD z
               let live := (List.range z.ns).filter z.active
               let place (i o : Nat) (bs : List Byte) : List (Nat × Byte) :=
                 laid (c.handle (z'.binding i).1) ((z'.binding i).2 + o) bs
               let row (i o r : Nat) : List Byte := get (c.handle (z.binding i).1) ((z.binding i).2 + o + 4 * (r * z.n)) (4 * z.n)
               let slot (j : Nat) : Nat := 4 * ((j - 1) * z.ns * z.n)
               (c.op = 8 → (bad (lo 0) so (w 5) = false → out = laid (hi 0) dO (get (lo 0) so (w 5)))
                   ∧ ∀ p < w 5, bad (lo 0) so p = false → bad (lo 0) (so + p) 1 = true →
                       out = laid (hi 0) dO (get (lo 0) so (p / 4 * 4)) ∧ j.state = 5 ∧ j.reason = 16)
                 ∧ (c.op = 6 → ∀ sf df, Format.ofCode (w 9 % 16) = some sf → Format.ofCode (w 9 / 16 % 16) = some df →
                     let n := w 5
                     let mode := Rounding.ofCode (w 9 / 256 % 4)
                     let group (i : Nat) : Nat := num (lo 0) (so + Format.groupSize sf * i) (Format.groupSize sf)
                     let elem (i : Nat) : Nat := num (lo 0) (so + sf.width / 8 * i) (sf.width / 8)
                     let val (i : Nat) : Val := if sf.isBlock then blockElem sf (group (i / 16)) (i % 16)
                       else decodeVal sf false (elem i)
                     let plain := (w 9).testBit 10 = false
                     let raw := sf = df ∧ (sf.isFloat || sf.isInt || sf.isBlock) = false
                     (plain → raw → out = laid (hi 0) dO (get (lo 0) so (n * (sf.width / 8))))
                       ∧ (plain → ¬raw → df.isBlock = false → sf.isBlock = false → out = laid (hi 0) dO
                           ((List.range n).flatMap fun i => leBytes (df.width / 8) (convertElem df sf ⟨mode, false⟩ (elem i)).1))
                       ∧ (plain → ¬raw → df.isBlock = false → sf.isBlock = true → out = laid (hi 0) dO
                           ((List.range n).flatMap fun i => leBytes (df.width / 8) (convertVal df sf mode (val i)).1))
                       ∧ (plain → df.isBlock = true → out = laid (hi 0) dO ((List.range ((n + 15) / 16)).flatMap fun g =>
                           leBytes (Format.groupSize df) (encodeBlock df mode (tabulate 16 fun k =>
                             if 16 * g + k < n then val (16 * g + k) else .absent)).1))
                       ∧ (¬plain → out = laid (hi 0) dO
                           ((expandedOut sf df mode (expandChunks v (lo 0) sf n (n + 1) so []).1).1.map Prod.fst)))
                 ∧ (c.op = 7 → let b := mxWidth (w 9 % 16)
                     out = laid (hi 0) dO ((List.range (w 5)).flatMap fun k =>
                       (mxBlock (w 9 % 16) (tabulate 32 fun i => num (lo 0) (so + 4 * b * k) (4 * b) / 2 ^ (b * i) % 2 ^ b)
                         (num (lo 10) (w 11 + k) 1)).1.flatMap (leBytes (Format.groupSize (if w 9 % 16 = 0 then .bx6 else .bx9)))))
                 ∧ (c.op = 0xF → let es := c.keyFormat.width / 8
                     bad (lo 0) (w 1) (w 6 * es) = false →
                     let key (i : Nat) : Int := signedOf (8 * es) (num (lo 0) (w 1 + es * i) es)
                     let absent (i : Nat) : Bool := num (lo 0) (w 1 + es * i) es == Format.absentCode c.keyFormat
                     let tile := w 7 / 2 ^ 20 % 2 ^ 8 + 1
                     let all := List.range (w 7 % 2 ^ 10 + 1)
                     let rows (b : Nat) : List Nat := (List.range (w 6)).filter fun i => !absent i && key i == (b : Int)
                     let pad (b : Nat) : Nat := tile * (((rows b).length + tile - 1) / tile)
                     let first (b : Nat) : Nat := ((List.range b).map pad).sum
                     let size := w 11
                     let rf := c.rowFormat
                     let blank : List Byte := (List.replicate (size / (rf.width / 8)) ()).flatMap fun _ =>
                       leBytes (rf.width / 8) (Format.absentCode rf)
                     out = laid (hi 0) (w 2) (wordsAsBytes (all.flatMap rows))
                       ++ laid (lo 3) (w 4) (wordsAsBytes (all.map fun b => (rows b).length))
                       ++ laid (hi 3) (w 5) (wordsAsBytes (all.map fun b => ((List.range b).map fun i => (rows i).length).sum))
                       ++ (if (w 7).testBit 14 then all.flatMap fun b => (List.range (pad b)).flatMap fun j =>
                            laid (hi 8) (w 10 + size * (first b + j)) (match (rows b)[j]? with
                              | some r => get (lo 8) (w 9 + size * r) size
                              | none => blank) else [])
                       ++ (if (w 7).testBit 15 then laid (lo 13) (w 14) (wordsAsBytes (all.flatMap fun b => [pad b, first b, b, 0]))
                          else []))
                 ∧ (c.op = 0x18 → out = [])
                 ∧ (c.op = 0x19 → j.state = 2 → out = place 5 0 (z'.maskBytes.map Prod.fst))
                 ∧ (c.op = 0x1A → ∀ i, c.stageIdx = i →
                     let word (r x : Nat) : Nat := if z.active r then (stageElem z i (z.sample r).h.toNat
                         (leNat (((row 0 0 r).drop (4 * x)).take 4))
                         ((List.range (i - 1)).map fun j => leNat (((row 1 (slot (j + 1)) r).drop (4 * x)).take 4)) 0).1
                       else Format.absentCode .fp32
                     let time (r : Nat) : Nat := if z.active r then
                         (fmaF (z.cc i) (z.sample r).h.toNat (z.sample r).t.toNat 0).1 else Format.absentCode .fp32
                     out = (List.range z.ns).flatMap fun r =>
                       place 4 (4 * r) (wordsAsBytes [time r])
                         ++ place 2 (4 * z.n * r) (wordsAsBytes ((List.range z.n).map (word r))))
                 ∧ (c.op = 0x1B → out = live.flatMap fun r => place 1 (slot c.stageIdx + 4 * (r * z.n)) (row 3 0 r))
                 ∧ (c.op = 0x1C → j.state = 2 → ∃ before, out = before ++ place 5 0 (z'.maskBytes.map Prod.fst)
                     ∧ ∀ x ∈ before, ∃ r ∈ live, ∃ o < 4 * z.n, x.1 = (c.handle (z.binding 0).1).pa
                         ((z.binding 0).2 + 4 * (r * z.n) + o) ∨ x.1 = (c.handle (z.binding 1).1).pa
                         ((z.binding 1).2 + 4 * (r * z.n) + o))
                 ∧ (c.op = 0x1D → out = laid (lo 0) (w 1) ((List.range z.ns).flatMap fun r =>
                     leBytes 16 (Sample.record (z.sample r)))))))

/-- R299, R302 to R305, R312. -/
def Obligations.MicroOpsMoveAlongTheirRoutine : Prop :=
  ∀ (d z : Fin 8) (pw sh : Fin 16) (imm : BitVec 24) (n : BitVec 8) (target endAddr : Fin 2048) (count : Fin 512)
      (s : State) (r : Routine),
    (coreOf s s.cur.core).mx.routine = some r →
    let mx := (coreOf s s.cur.core).mx
    let goes (i : Instr) (r' : Routine) : Prop :=
      ∃ t, exec i s = .next t ∧ OnUnit s t s.cur.core { mx with routine := some r' }
    let next (i : Instr) (z : List Word) : Prop := ∃ t, exec i s = .next t
      ∧ t = { s with cores := t.cores, bankReqs := requestsAfter s s.cur.core r }
      ∧ ∀ j, coreOf t j = if j = s.cur.core then { coreOf s j with mx := afterMicro mx { r with z := z } } else coreOf s j
    let faults (i : Instr) : Prop := ∃ t, exec i s = .next t ∧ RoutineFaults s t s.cur.core 1 r
    let reg (i : Nat) : Word := r.z.getD i 0
    let par (i : Nat) : Word := r.params.getD i 0
    let sets (i : Instr) (v : Word) : Prop := next i (r.z.set d.val v)
    let loops (i : Instr) (c : Nat) : Prop :=
      let isEnd := (r.prog.getD endAddr.val 0).toNat / 2 ^ 28 = 4
      (¬isEnd ∨ endAddr.val ≤ r.pc → faults i)
        ∧ (isEnd → r.pc < endAddr.val → c = 0 → goes i { r with pc := endAddr.val + 1 })
        ∧ (isEnd → r.pc < endAddr.val → c ≠ 0 → r.loops.length < 4 →
            goes i { r with loops := (r.pc + 1, c) :: r.loops, pc := r.pc + 1 })
        ∧ (isEnd → r.pc < endAddr.val → c ≠ 0 → 4 ≤ r.loops.length → faults i)
    sets (.madv d imm) (reg d.val + imm.signExtend 32) ∧ sets (.madvParam d pw) (reg d.val + par pw.val)
      ∧ sets (.mset d imm) (imm.setWidth 32) ∧ sets (.msetParam d pw) (par pw.val)
      ∧ sets (.mmad d z pw) (reg d.val + reg z.val * par pw.val)
      ∧ next .mnop r.z ∧ goes (.mjmp target) { r with pc := target.val }
      ∧ (n ≠ 0 → goes (.mskz z n) { r with pc := if reg z.val = 0 then r.pc + 1 + n.toNat else r.pc + 1 })
      ∧ (n = 0 → faults (.mskz z n))
      ∧ (mx.drain = [] → next .mfence r.z) ∧ (mx.drain ≠ [] → exec .mfence s = .next s)
      ∧ (∃ t, exec .mend s = .next t ∧ t = { s with cores := t.cores, bankReqs := unread s s.cur.core }
          ∧ ∀ j, coreOf t j = if j = s.cur.core then { coreOf s j with mx := { mx with routine := none } } else coreOf s j)
      ∧ loops (.mloop endAddr count) count.val ∧ loops (.mloopZ z sh endAddr) ((reg z.val).toNat / 2 ^ sh.val)
      ∧ (r.loops = [] → faults .mendl)
      ∧ (∀ (a c : Nat) (rest : List (Nat × Nat)), r.loops = (a, c) :: rest →
          goes .mendl (if 1 < c then { r with loops := (a, c - 1) :: rest, pc := a }
            else { r with loops := rest, pc := r.pc + 1 }))

/-- R62, R299, R306, R312, R314. A and B are read by the element functions of the model. The A addresses are sums
modulo 2^32, and those sums are judged (DEDUCED, log entry 33); which cause is taken where several apply is the
model's choice (DESIGN CHOICE, log entry 88). -/
def Obligations.MstepAddsItsProductsToEveryCell : Prop :=
  ∀ (sw : Fin 16) (s : State) (r : Routine), (coreOf s s.cur.core).mx.routine = some r →
    let core := s.cur.core
    let mx := (coreOf s core).mx
    let stride := (r.params.getD sw.val 0).toNat
    let z1 := (r.z.getD 1 0).toNat
    let n := recordBytes r
    let spans := aSpans r stride
    let even := (r.z.getD 0 0).toNat % 2 = 0 ∧ stride % 2 = 0 ∧ z1 % 2 = 0
    let aligned := (fmtA r.fmt).isBlock = true ∨ even
    let inRange := (∀ p ∈ spans, p.1 + p.2 ≤ 2 ^ 18) ∧ z1 + n ≤ 16384
    let places := spans.map (fun p => (nearPA core p.1, p.2))
      ++ (List.range 32).map fun j => (towerAddr core 1 (16384 * j + z1), n)
    let there := ∀ p ∈ places, extentMapped s p.1 p.2 = true
    let sound := ∀ p ∈ places, poisonedAt s p.1 p.2 = false
    let bytesA := spans.map fun p => readBytes s (nearPA core p.1) p.2
    let a (i k : Nat) : Val := aElem r bytesA i k
    let b (k j : Nat) : Val := bElem r (readBytes s (towerAddr core 1 (16384 * j + z1)) n) k j
    let pairs (i j : Nat) : List (Val × Val) := (List.range 16).map fun k => (a i k, b k j)
    let sum (i j : Nat) : Triple := (pairs i j).foldl (fun c p => if p.1.present = true ∧ p.2.present = true then
        (addProduct c (product32 (fmtA r.fmt) (fmtB r.fmt) p.1 p.2).1).1 else c)
      (lookup Triple.absent (taskOf s core).cells (32 * i + j))
    let faults (code : Nat) : Prop := ∃ t, exec (.mstep sw) s = .next t ∧ RoutineFaults s t core code r
    (aligned → inRange → there → sound → ∃ t, exec (.mstep sw) s = .next t
        ∧ t = { Same s t with bankReqs := requestsAfter s core r }
        ∧ UnitAndTask s t core (afterMicro mx r) (fun q => { q with
              cells := (taskOf t core).cells
              rows := (taskOf t core).rows
              cols := (taskOf t core).cols
              status := (taskOf t core).status })
        ∧ (∃ f : Word, f &&& 0xFFFFFFE1 = 0 ∧ (taskOf t core).status = (taskOf s core).status ||| f)
        ∧ ∀ i < 32, (∀ j < 32, lookup Triple.absent (taskOf t core).cells (32 * i + j) = sum i j)
          ∧ lookup Check.zero (taskOf t core).rows i = addCheck (lookup Check.zero (taskOf s core).rows i)
              ((List.range 32).flatMap fun j => pairs i j)
          ∧ lookup Check.zero (taskOf t core).cols i = addCheck (lookup Check.zero (taskOf s core).cols i)
              ((List.range 32).flatMap fun j => pairs j i))
      ∧ (¬aligned → faults 1) ∧ (aligned → ¬inRange → faults 7)
      ∧ (aligned → inRange → ∀ before p rest, places = before ++ p :: rest →
          (∀ q ∈ before, extentMapped s q.1 q.2 = true ∧ poisonedAt s q.1 q.2 = false) →
          (extentMapped s p.1 p.2 = false → faults 7)
            ∧ (extentMapped s p.1 p.2 = true → poisonedAt s p.1 p.2 = true → faults 9))

/-- R299, R307 to R312, R315, R316. That mwaitb with bit 31 clear passes without applying INC is the model's choice
(DEDUCED, log entry 33): R310 says only that it passes at once. -/
def Obligations.MicroOpsClearDrainShapeWaitAndSignal : Prop :=
  ∀ (z : Fin 8) (pw : Fin 16) (clr inc : Bool) (bytes : BitVec 12) (s : State) (r : Routine),
    (coreOf s s.cur.core).mx.routine = some r →
    let core := s.cur.core
    let mx := (coreOf s core).mx
    let on (r' : Routine) : Matrix := afterMicro mx r'
    let does (i : Instr) (m : Matrix) (f : Task → Task) : Prop := ∃ t, exec i s = .next t
      ∧ t = { Same s t with bankReqs := requestsAfter s core r } ∧ UnitAndTask s t core m f
    let faults (i : Instr) (code : Nat) : Prop := ∃ t, exec i s = .next t ∧ RoutineFaults s t core code r
    let desc := r.params.getD pw.val 0
    let drained (k : Task) : List (Nat × QEntry) × Nat := captureDrain k r desc
    let emptied (q : Task) : Task := if clr then { q with cells := [], rows := [], cols := [] } else q
    let after (k : Task) (more : Word) (_ : Task) : Task :=
      emptied { k with status := k.status ||| more ||| stickyFlags (drained k).2 }
    let q := taskOf s core
    let z4 := (r.z.getD 4 0).toNat
    let shape := readBytes s (nearPA core z4) 16
    let word (i : Nat) : Word := leWord ((shape.drop (4 * i)).take 4)
    let shaped : Routine :=
      { r with z := (((r.z.set 5 (word 0)).set 6 (word 1)).set 7 (word 2)).set 4 (BitVec.ofNat 32 (z4 + 16)) }
    let w := r.z.getD z.val 0
    let counted : Routine :=
      if inc then { r with z := r.z.set z.val ((w &&& 0xFFFFFF00) ||| ((w + 1) &&& 0xFF)) } else r
    let bad := 24 ≤ w.toNat / 2 ^ 24 % 32 ∨ w.toNat / 2 ^ 18 % 64 ≠ 0
    let bar := barrierOf s (24 * (w.toNat / 2 ^ 29 % 4) + w.toNat / 2 ^ 24 % 32) (w.toNat / 2 ^ 8 % 1024)
    let passed := 1 ≤ (bar.gen + 256 - w.toNat % 256) % 256 ∧ (bar.gen + 256 - w.toNat % 256) % 256 ≤ 128
    let ref := barRef (clusterOf core) w
    does .mclr (on r) (fun k => { k with cells := [], rows := [], cols := [] })
      ∧ (descOk desc = false → faults (.mdrain pw clr) 1)
      ∧ (descOk desc = true → mx.drain ≠ [] → exec (.mdrain pw clr) s = .next s)
      ∧ (descOk desc = true → mx.drain = [] →
          (checkTile q (r.fmt.toNat / 2 ^ 28 % 4) = .released →
              does (.mdrain pw clr) { on r with drain := (drained q).1 } (after q 0))
            ∧ (∀ k v, checkTile q (r.fmt.toNat / 2 ^ 28 % 4) = .corrected k v →
                let fixed := { q with cells := update Triple.absent q.cells k v }
                does (.mdrain pw clr) { on r with drain := (drained fixed).1 } (after fixed 0x100))
            ∧ (checkTile q (r.fmt.toNat / 2 ^ 28 % 4) = .uncorrectable → faults (.mdrain pw clr) 11))
      ∧ (z4 % 16 ≠ 0 → faults .mshape 1) ∧ (z4 % 16 = 0 → 2 ^ 18 ≤ z4 → faults .mshape 7)
      ∧ (z4 % 16 = 0 → z4 < 2 ^ 18 → extentMapped s (nearPA core z4) 16 = false → faults .mshape 7)
      ∧ (z4 % 16 = 0 → z4 < 2 ^ 18 → extentMapped s (nearPA core z4) 16 = true →
          (poisonedAt s (nearPA core z4) 16 = true → faults .mshape 9)
            ∧ (poisonedAt s (nearPA core z4) 16 = false → does .mshape (on shaped) id))
      ∧ (w.getLsbD 31 = false → does (.mwaitb z inc) (on r) id)
      ∧ (w.getLsbD 31 = true → bad → faults (.mwaitb z inc) 1)
      ∧ (w.getLsbD 31 = true → ¬bad →
          (bar.fault = true → does (.mwaitb z inc) (on counted) fun k => { k with status := k.status ||| 0x200 })
            ∧ (bar.fault = false → passed → does (.mwaitb z inc) (on counted) id)
            ∧ (bar.fault = false → ¬passed → exec (.mwaitb z inc) s = .next s))
      ∧ (actsOutside s core = true → ∃ t, exec (.msig z bytes) s = .next t
          ∧ Arrived s t ref.1 ref.2 bytes.toNat ∧ KeepsTasks s t
          ∧ (∀ k, k ≠ barKey ref.1 ref.2 → lookup Barrier.initial t.dom.barriers k = lookup Barrier.initial s.dom.barriers k)
          ∧ (coreOf t core).mx = on r ∧ t.groups = s.groups)
      ∧ (actsOutside s core = false → does (.msig z bytes) (on r) id)

/-- R77, R83, R296 to R299, R309, R317, R318. The model's choices: an mload with nonzero upper bits is refused
(DEDUCED, log entry 36), one call waits beside a busy unit (DEDUCED, log entry 38), an image with poisoned bytes is
refused (DESIGN CHOICE, log entry 88), and an image asks the banks as class 4 (DESIGN CHOICE, log entry 64). The
clauses on images assume that no frond waits, whose records a firing barrier would write. -/
def Obligations.CallsImagesAndQueueEntriesReachTheUnit : Prop :=
  ∀ (gd : Guard) (idx : Fin 64) (x b : Fin 8) (mask : BitVec 4) (core : Nat) (s : State),
    let me := s.cur.core
    let mx := (coreOf s me).mx
    let q := curTask s
    let half (i : Nat) : Word := (q.x.getD (i / 2) 0).extractLsb' (32 * (i % 2)) 32
    let params := (List.range 16).map half
    let routineOf (cid : Nat) (c : Call) : Routine := ⟨c.params, c.fmt,
      (List.range 2048).map fun i => leWord (readBytes s (microPA cid i) 4),
      (List.range 8).map fun i => c.params.getD (2 * i) 0, c.start, [], c.issued, false, false⟩
    let calls (start : Nat) : Matrix := match mx.routine with
      | none => { mx with waiting := none, routine := some (routineOf me ⟨start, params, q.fmt, s.now, true⟩) }
      | some _ => { mx with waiting := some ⟨start, params, q.fmt, s.now, true⟩ }
    let xs := q.x.getD x.val 0
    let ref := barRef (clusterOf me) ((q.x.getD b.val 0).setWidth 32)
    let program := match curGroup s with
      | some g => g.program
      | none => 0
    let asked : LoadReq := ⟨me, insiders s me, program, handleOf s (dieOf me) (xs.toNat % 2 ^ 12), xs.toNat / 2 ^ 12 % 2 ^ 41,
      ref.1, ref.2, writerOf s, s.cur.gid, none, none⟩
    let u := (coreOf s core).mx
    let idle (id : Nat) : Prop := (coreOf s id).mx.routine = none ∧ (coreOf s id).mx.waiting = none
    (∀ start, mx.entries.getD idx.val none = some start →
        Completes exec s (.mcall gd idx) fun t => OnUnitAndTask s t me (calls start) id)
      ∧ (s.cur.external = true → xs.toNat / 2 ^ 53 = 0 → Completes exec s (.mload gd x b) fun t =>
          t = { Same s t with dom := { s.dom with loads := s.dom.loads ++ [asked] } } ∧ KeepsCores s t)
      ∧ (s.cur.external = true → xs.toNat / 2 ^ 53 ≠ 0 → Completes exec s (.mload gd x b) fun t =>
          Marked s t ref.1 ref.2 3 ∧ t.dom.loads = s.dom.loads ∧ KeepsTasks s t ∧ t.groups = s.groups)
      ∧ (s.cur.external = false → Completes exec s (.mload gd x b) fun t => t = Same s t ∧ KeepsCores s t)
      ∧ (q.queues.length = 4 → Completes exec s (.mqclr gd mask) fun t =>
          OnTask s t { s.cur with sig := t.cur.sig } fun k => { k with
            queues := (List.range 4).map fun i => if mask.getLsbD i then [] else k.queues.getD i [] })
      ∧ (∀ r, mx.routine = some r → Completes exec s (.mcancel gd) fun t => OnUnitAndTask s t me
          { mx with routine := if r.asked then some { r with cancelled := true } else none, drain := [] } id)
      ∧ (mx.routine = none → Completes exec s (.mcancel gd) fun t => OnUnitAndTask s t me mx id)
      ∧ (∀ c, u.waiting = some c → u.routine = none → ∃ t, exec (.mcallAccept core) s = .next t
          ∧ OnUnit s t core { u with waiting := none, routine := some (routineOf core c) })
      ∧ (u.waiting = none ∨ u.routine ≠ none → exec (.mcallAccept core) s = .next s)
      ∧ (∀ n e rest, u.drain = (n, e) :: rest →
          let l := (taskOf s core).queues.getD n []
          (l.length < 64 → n < (taskOf s core).queues.length → ∃ t, exec (.drainPush core) s = .next t
              ∧ t = { s with cores := t.cores } ∧ ∀ j, coreOf t j = if j = core then { coreOf s core with
                  mx := { u with drain := rest }
                  task := { taskOf s core with
                    queues := (taskOf s core).queues.set n (l ++ [{ e with since := s.now + 1 }]) } } else coreOf s j)
            ∧ (64 ≤ l.length → u.discard = true → ∃ t, exec (.drainPush core) s = .next t
                ∧ OnUnit s t core { u with drain := rest })
            ∧ (64 ≤ l.length → u.discard = false → exec (.drainPush core) s = .next s))
      ∧ (u.drain = [] → exec (.drainPush core) s = .next s)
      ∧ ((∀ l ∈ s.dom.loads, l.core ≠ core) → exec (.mloadInstall core) s = .next s)
      ∧ (∀ l, s.dom.loads.find? (fun l => l.core == core) = some l →
          let does (after : State → Prop) : Prop := ∃ t, exec (.mloadInstall core) s = .next t ∧ after t
          let held := s.seals.phase = .checkpoint ∨ crossingShut s l.entry.base = true
          let gone (t : State) : Prop := t.dom.loads = s.dom.loads.erase l ∧ t.groups = s.groups ∧ KeepsTasks s t
          let view := outside s noCore
          let place (i : Nat) : Nat := l.entry.pa (l.offset + i)
          let asking : Prop := ∃ id, l.asked = some id ∧ commandAsks s id = true
          (held → exec (.mloadInstall core) s = .next s)
            ∧ (¬held → l.image = none → asking → exec (.mloadInstall core) s = .next s)
            ∧ (¬held → NobodyWaits s → l.image = none → ¬asking →
              (∀ c, imageOf view l = .error c → (c = 3 ∨ c = 5 ∧ ∃ i < 8392,
                    mapped view (place i) = false ∨ peerAnswers view (place i) = false)
                  ∧ does fun t => gone t ∧ Marked s t l.barCluster l.bar c ∧ SameMemory s t)
                ∧ (∀ bs, imageOf view l = .ok bs →
                  let rows := towerRequests s 4 s.nextId ((List.range bs.length).map place)
                  let good := Config.sm2Verifies 0 (sm3 (bs.take (bs.length - 64))) (bs.drop (bs.length - 64)) = true
                  (l.asked = none → rows ≠ [] → does fun t => t = { s with
                      nextId := s.nextId + 1, bankReqs := s.bankReqs ++ rows,
                      dom := { s.dom with loads := s.dom.loads.replace l { l with asked := some s.nextId } } })
                    ∧ (l.asked ≠ none ∨ rows = [] →
                      (¬good → does fun t => gone t ∧ Marked s t l.barCluster l.bar 3 ∧ SameMemory s t
                        ∧ t.pkg.alarm.getLsbD 2 = true)
                        ∧ (good → does fun t => SameMemory s t ∧ KeepsTasks s t ∧ t.groups = s.groups
                          ∧ t.dom = { s.dom with loads := s.dom.loads.replace l { l with image := some bs } }))))
            ∧ (∀ bs, ¬held → l.image = some bs → (¬∀ id ∈ l.cores, idle id) → exec (.mloadInstall core) s = .next s)
            ∧ (∀ bs, ¬held → NobodyWaits s → l.image = some bs → (∀ id ∈ l.cores, idle id ∧ id < 8192) →
              let w1 := leNat ((bs.drop 4).take 4)
              let first (id : Nat) : Nat := microPA id (w1 / 2 ^ 16 % 2048)
              let n := 4 * (w1 % 2 ^ 12)
              does fun t => gone t ∧ Arrived s t l.barCluster l.bar 4
                ∧ t.pkg.imageChain = Config.chainDigest s.pkg.imageChain bs
                ∧ (∀ id ∈ l.cores, ∀ j < n, 136 + j < bs.length → readByte t (first id + j) = bs.getD (136 + j) 0)
                ∧ (∀ a, (∀ id ∈ l.cores, Outside s (first id) n a) → readByte t a = readByte s a)
                ∧ ∀ id ∈ l.cores, ∀ i < (coreOf s id).mx.entries.length, (coreOf t id).mx.entries.getD i none
                    = (let e := leNat ((bs.drop (8 + 2 * i)).take 2)
                      if e.testBit 15 then some (e % 2048) else (coreOf s id).mx.entries.getD i none)))

/-- R83, R111, R143, R144, R151, R171, R172, R288 to R291. R171 speaks of one copy that waits: that a later one
replaces it is the model's choice (DESIGN CHOICE, log entry 71), and that a copy asks the banks as class 4 (DESIGN
CHOICE, log entry 64). -/
def Obligations.BitNetworkHeaderEffectsAndSegments : Prop :=
  ∀ (gd : Guard) (d : Fin 16) (x y : SSrc) (p : Fin 8) (v : Word) (mask : BitVec 8) (core : Nat) (sl : Fin 4) (s : State),
    let me := s.cur.core
    let pat := (curTask s).patterns.getD p.val []
    let routed (i : Nat) : Bool :=
      let b : Byte := pat.getD i 0
      let n := b.toNat % 128
      Bool.xor (if n < 32 then (srcVal s .n x).getLsbD n else if n < 64 then (srcVal s .n y).getLsbD (n - 32) else n == 65)
        (b.getLsbD 7)
    let ea := (srcVal s .n x + srcVal s .n y).toNat
    let pa := nearPA me ea
    let program := curProgram s
    let here := s.cur.pc.toNat / 2 ^ 14
    let marks (seg : Nat) (e : Segment) : Prop :=
      (segmentEntry s program here).bind Segment.next = some seg ∧ segmentEntry s program seg = some e
        ∧ residentSlot s me program seg = none ∧ residentSlot s me program here ≠ some e.slot
        ∧ copyInFlight s me program seg = false
    let busy (e : Segment) : Prop := ∃ c ∈ s.segCopies, c.core = me ∧ c.slot = e.slot
    let slotSet (t : State) (id slot : Nat) (o : Overlay) : Prop :=
      ∀ j, coreOf t j = if j = id then { coreOf s id with overlay := (coreOf s id).overlay.set slot o } else coreOf s j
    ((∀ i < 32, v.getLsbD i = routed i) → GivesScalar s (.bnet gd d x y p) .n 8 2 d.val v)
      ∧ Completes exec s (.bnld gd x y p) (fun t => Issued s t
          (resultOf s 8 8 none [.pattern p.val (readBytes s pa 16 ++ readBytes s (pa + 8192) 16)] 0
            (poisonedAt s pa 16 || poisonedAt s (pa + 8192) 16)))
      ∧ exec .idleBundle s = .next s
      ∧ ((∀ q < 8, mask.getLsbD q = true → queueEmpty s q = false) → ∃ t, exec (.queuePop mask) s = .next t
          ∧ t = { s with cores := t.cores } ∧ (∀ j, j ≠ me → coreOf t j = coreOf s j)
          ∧ coreOf t me = { coreOf s me with
              inbound := (coreOf s me).inbound.zipIdx.map fun e => if mask.getLsbD (4 + e.2) ∧ e.2 < 4 then e.1.drop 1 else e.1
              task := { taskOf s me with
                queues := (taskOf s me).queues.zipIdx.map fun e => if mask.getLsbD e.2 ∧ e.2 < 4 then e.1.drop 1 else e.1 } })
      ∧ ((¬∃ seg e, marks seg e) → exec .segmentMark s = .next s)
      ∧ (∀ seg e, marks seg e →
          (¬busy e → ∃ t, exec .segmentMark s = .next t
              ∧ t = { s with cores := t.cores, segCopies := s.segCopies ++ [⟨me, e.slot, program, seg, none, none⟩] }
              ∧ slotSet t me e.slot ⟨program, seg, 1⟩)
            ∧ (busy e → exec .segmentMark s = .next { s with segCopies := s.segCopies.map fun c =>
                if c.core = me ∧ c.slot = e.slot then { c with after := some (program, seg) } else c }))
      ∧ ((∀ c ∈ s.segCopies, ¬(c.core = core ∧ c.slot = sl.val)) → exec (.segmentCopyLands core sl) s = .next s)
      ∧ (∀ c, s.segCopies.find? (fun c => c.core == core && c.slot == sl.val) = some c → core < 8192 →
          let image := (segmentEntry s c.program c.segment).bind (segmentImage s core c.program)
          let done (st : Nat) : Overlay := match c.after with
            | some (q, seg) => ⟨q, seg, 1⟩
            | none => ⟨c.program, c.segment, st⟩
          let next := match c.after with
            | some (q, seg) => [⟨core, c.slot, q, seg, none, none⟩]
            | none => []
          let lands (t : State) (st : Nat) : Prop := t.segCopies = s.segCopies.erase c ++ next ∧ KeepsTasks s t
            ∧ t.groups = s.groups ∧ t.dom = s.dom
            ∧ (coreOf t core).overlay = (coreOf s core).overlay.set c.slot (done st)
          let waits : Prop := segmentHeld s c = true ∨ ∃ id, c.asked = some id ∧ commandAsks s id = true
          let rows := segmentRequests s c s.nextId
          (waits → exec (.segmentCopyLands core sl) s = .next s)
            ∧ (¬waits → image = none →
                ∃ t, exec (.segmentCopyLands core sl) s = .next t ∧ lands t 3 ∧ SameMemory s t)
            ∧ (∀ bs, ¬waits → image = some bs →
                (c.asked = none → rows ≠ [] → exec (.segmentCopyLands core sl) s = .next { s with
                    nextId := s.nextId + 1, bankReqs := s.bankReqs ++ rows,
                    segCopies := s.segCopies.map fun x => if x = c then { x with asked := some s.nextId } else x })
                  ∧ (c.asked ≠ none ∨ rows = [] → ∃ t, exec (.segmentCopyLands core sl) s = .next t ∧ lands t 2
                    ∧ (∀ i < bs.length, readByte t (bundlePA core (16384 * c.slot) + i) = bs.getD i 0)
                    ∧ ∀ a, Outside s (bundlePA core (16384 * c.slot)) bs.length a → readByte t a = readByte s a)))

/-- R325 to R336. That a signal which adds asks for WR alone, and for the program its queue names now, is the model's
choice (DESIGN CHOICE, log entry 91). That an address which a peer does not find fails a signal with kind 2 is the
model's choice too (DESIGN CHOICE, log entry 23): R326 speaks of a failed translation. The clauses on signals assume
that the address lies outside the journal entry, and that the undo log has room. -/
def Obligations.PacketsAreAcceptedDispatchedAndCompleted : Prop :=
  ∀ (q seq node slot : Nat) (p : Packet) (s : State),
    let w (i : Nat) : Nat := p.words.getD i 0
    let set (f : Packet → Packet) : List Packet := s.dom.packets.map fun x => if x.seq = p.seq then f x else x
    let goes (i : Instr) (after : State → Prop) : Prop := ∃ t, exec i s = .next t ∧ after t
    let x := queueOf s q
    let out (u : State) (pa : Nat) : Prop := pa / 2 ^ 48 = 0 ∧ ∀ j < 4, Outside u (journalPA u p.seq) 64 (pa + j)
    let holds (t : State) (pa v : Nat) : Prop := readNat t pa 4 = v % 2 ^ 32
    (Turn s q 0 p → goes (.nopPacket q) fun t => PacketEnds s t p 0)
      ∧ (Turn s q 1 p → freeSlot s = some slot → goes (.launchPacket q) fun t =>
          t.dom.packets = set (fun x => { x with st := .dispatched, launch := some slot, sealInterval := 0 })
            ∧ ∃ l, t.dom.launches.find? (fun e => e.1 == slot) = some (slot, l) ∧ l.seq = p.seq
              ∧ l.offered = true ∧ l.skipped ≤ w 2 % 2 ^ 16 + 1)
      ∧ (∀ n, Turn s q 2 p → p.nodes[0]? = some n → blockType n.words ∈ [0, 1, 3, 4] → canBegin s q n.words = true →
          (blockType n.words = 1 → freeSlot s = some slot) → q = p.queue → goes (.graphPacket q) fun t =>
            t.dom.packets = set fun x => { x with st := .dispatched, nodes := modifyAt x.nodes 0 (begun s slot (blockType n.words)) })
      ∧ (Turn s q 3 p → goes (.sealPacket q) fun t =>
          t.dom.packets = set (fun x => { x with st := .dispatched, launch := none, sealInterval := s.pkg.intnum })
            ∧ (s.pkg.firstEnable = true → s.seals.phase = .none →
                t.seals.phase = .quiesce ∧ t.seals.interval = s.pkg.intnum))
      ∧ (Turn s q 4 p → (engineOf s (streamEngine x.die)).queue.length < 16 → goes (.copyPacket q) fun t =>
          t.dom.packets = set (fun x => { x with st := .dispatched, launch := none, sealInterval := 0 })
            ∧ (∀ f, f ≠ streamEngine x.die → engineOf t f = engineOf s f)
            ∧ ∃ c, engineOf t (streamEngine x.die) = { engineOf s (streamEngine x.die) with
                queue := (engineOf s (streamEngine x.die)).queue ++ [c] }
              ∧ c.op = w 11 % 64 ∧ c.packet = some p.seq ∧ c.core = none ∧ c.program = x.program ∧ c.nb = true
              ∧ ∀ i < 9, c.block.getD i 0 = BitVec.ofNat 32 (w (i + 1)))
      ∧ (Turn s q 5 p →
          let u := markDispatched s p
          let add := w 2 / 2 ^ 16 % 4 = 1
          (∀ pa, translate u x.cluster x.program (packetVA (w 1) (w 2)) ⟨false, true, false⟩ = .ok pa → out s pa → Roomy s 4 →
              goes (.signalPacket q) fun t => holds t pa ((if add then readNat u pa 4 else 0) + w 3)
                ∧ t.dom.packets = s.dom.packets.filter fun x => x.seq != p.seq)
            ∧ (∀ c, translate u x.cluster x.program (packetVA (w 1) (w 2)) ⟨false, true, false⟩ = .error c →
                goes (.signalPacket q) fun t => PacketEnds s t p 0x2000)
            ∧ (∀ pa, translate u x.cluster x.program (packetVA (w 1) (w 2)) ⟨false, true, false⟩ = .ok pa →
                irrevocable u pa = false → peerAnswers u pa = false → goes (.signalPacket q) fun t => PacketEnds s t p 0x2000))
      ∧ (nextOfType s q 6 = some p →
          (waitHolds s p = .ok true → goes (.waitPoll q) fun t => t = { s with dom := { s.dom with
              packets := set fun x => { x with ready := true, detail := 0 } } })
            ∧ (waitHolds s p = .ok false → exec (.waitPoll q) s = .next s)
            ∧ (∀ c, waitHolds s p = .error c → goes (.waitPoll q) fun t => t = { s with dom := { s.dom with
                packets := set fun x => { x with ready := true, detail := 0x2000 } } })
            ∧ (p.ready = false → exec (.waitPacket q) s = .next s))
      ∧ (Turn s q 6 p → p.ready = true → p.detail < 2 ^ 16 → goes (.waitPacket q) fun t => PacketEnds s t p p.detail)
      ∧ (Turn s q 7 p → goes (.fencePacket q) fun t =>
          let gone := (s.dom.packets.filter fun x => x.queue == q && x.st == .accepted && x.seq != p.seq).map Packet.seq
          t.dom.packets = s.dom.packets.filter (fun x => x.seq != p.seq && !(x.queue == q && x.st == .accepted))
            ∧ headOf t q = (p.index + 1) % 2 ^ 32 ∧ t.journal = markedAs s (p.seq :: gone) true)
      ∧ (q < 64 → acceptsNow s q = true →
          let index := headOf s q
          let pa := bits x.base 12 40 * 4096 + 64 * (index % x.size)
          let words := blockWords (readBytes s pa 64)
          let there := extentMapped s pa 64 = true ∧ poisonedAt s pa 64 = false ∧ (pa / 2 ^ 48 = 0 ∨ pa / 2 ^ 48 = 4)
          let n := (acceptSeq s q index).getD s.pkg.jnext
          (¬there → goes (.packetAcceptance q) fun t => haltOf t q = 4 ∧ t.pkg.alarm.getLsbD 4 = true
              ∧ (∀ r, r ≠ q → haltOf t r = haltOf s r) ∧ t.dom = { s.dom with halts := t.dom.halts } ∧ SameMemory s t)
            ∧ (there → packetOk words = true → programValid s x.program = true → blockType words ≠ 2 →
                goes (.packetAcceptance q) fun t =>
                  t.dom.packets = s.dom.packets ++ [⟨n, q, index, words, .accepted, none, [], 0, 0, false⟩]
                    ∧ headOf t q = (index + 1) % 2 ^ 32
                    ∧ t.pkg.jnext = if acceptSeq s q index = none then s.pkg.jnext + 1 else s.pkg.jnext))
      ∧ (packetOf s seq = some p → p.nodes = [] → (∃ m ∈ s.journal, m.seq = p.seq) → ∀ d, packetEnd s p = some d → d < 2 ^ 16 →
          let goal := translate s (queueOf s p.queue).cluster (queueOf s p.queue).program (packetVA (w 13) (w 14))
            ⟨false, true, false⟩
          ((w 0).testBit 9 = false → goes (.packetCompletion seq) fun t => PacketEnds s t p d)
            ∧ ((w 0).testBit 9 = true → (∀ pa, goal = .ok pa → out s pa → Roomy s 4 → goes (.packetCompletion seq) fun t =>
                holds t pa (w 15) ∧ t.dom.packets = s.dom.packets.filter fun x => x.seq != p.seq))
            ∧ ((w 0).testBit 9 = true →
                ((∃ c, goal = .error c) ∨ ∃ pa, goal = .ok pa ∧ irrevocable s pa = false ∧ peerAnswers s pa = false) →
                goes (.packetCompletion seq) fun t => PacketEnds s t p (if d = 0 then 0x2000 else d)))
      ∧ (let u := settleGraph s seq
         packetOf u seq = some p → p.st = .dispatched → p.readyNodes.head? = some node →
          ∀ n, p.nodes[node]? = some n → blockType n.words ∈ [0, 1, 3, 4] → canBegin u p.queue n.words = true →
            (blockType n.words = 1 → freeSlot u = some slot) → goes (.graphNodeDispatch seq node) fun t =>
              t.dom.packets = u.dom.packets.map fun x => if x.seq = p.seq then
                { x with nodes := modifyAt x.nodes node (begun u slot (blockType n.words)) } else x)

/-- The encodings of R142 to R179, R214, R217, R226, R244, R261, R289, R294, R300, as a round trip. -/
def Obligations.DecodingInvertsEncoding : Prop :=
  ∀ (i : Instr) (e : Encoded), WellFormed i → encode i = some e →
    e.word < 2 ^ 32 ∧ (∀ x ∈ e.ext, x < 2 ^ 32) ∧ decodeSlot e.slot e.word e.ext = .ok i

/-- R145, R148 and R155: no two words mean one instruction, and a nonzero reserved field is no instruction. -/
def Obligations.EncodingInvertsDecoding : Prop :=
  ∀ (sl : Slot) (w : Nat) (ext : List Nat) (i : Instr), w < 2 ^ 32 → (∀ x ∈ ext, x < 2 ^ 32) →
    decodeSlot sl w ext = .ok i → WellFormed i ∧ encode i = some ⟨sl, w, ext⟩

/-- Worked encodings of the spec, slot by slot, and two header words (R142, R174). A sanity statement. -/
def Obligations.WordsOfTheSpecDecode : Prop :=
  decodeSlot .c 0x50020031 [] = .ok (.csrr (.p 0) 1 0x031)
    ∧ decodeSlot .c 0x48600002 [] = .ok (.trap (.p 3) 2)
    ∧ decodeSlot .c 0x2C004000 [0x100] = .ok (.suspTarget (.p 0) 0x100 none)
    ∧ decodeSlot .c 0x2C008000 [0x100] = .ok (.suspTarget (.p 0) 0x100 (some 1))
    ∧ decodeSlot .c 0x64000000 [0x100] = .ok (.irrevTarget (.p 0) 0x100)
    ∧ decodeSlot .a 0x780213F2 [0x64] = .ok (.cmp .a (.p 0) 2 .lt (.reg 4) (.lit 100))
    ∧ decodeSlot .a 0x600107F0 [0xF0] = .ok (.bfxu .a (.p 0) 1 (.reg 1) (.lit 240))
    ∧ decodeSlot .m 0x2404207F [0x2000] = .ok (.stw (.p 0) .c 4 (.reg 1) (.lit 0x2000))
    ∧ decodeSlot .m 0x2C014070 [] = .ok (.vld (.p 0) .v 1 (.reg 1) (.const 0) none)
    ∧ decodeSlot .m 0x5C023085 [] = .ok (.madd (.p 0) 2 (.reg 2) (.reg 5))
    ∧ decodeSlot .m 0x300540B0 [0xC] = .ok (.vst (.p 0) .v 5 (.reg 2) (.const 0) (some ⟨4, true⟩))
    ∧ decodeSlot .m 0x340740F0 [4] = .ok (.vldth (.p 0) .v 7 (.reg 3) (.const 0) (some (4, 0)))
    ∧ decodeSlot .m 0x640931C8 [0x3200] = .ok (.irst (.p 0) .m 9 (.reg 7) (.reg 8) 0x3200)
    ∧ decodeSlot .v 0x32020C50 [0xC] = .ok (.vcmplt .v 0 .fp32 2 (.reg 3) (.reg 5) (some 12))
    ∧ decodeSlot .v 0x44020400 [0x00DE54C1] = .ok (.gxch .v 0 (.reg 2) (.reg 1) 0xDE54C1)
    ∧ decodeSlot .v 0x14020400 [] = .ok (.vneg .v 0 .fp32 (.reg 2) (.reg 1))
    ∧ decodeSlot .x 0x0C000000 [] = .ok (.xli (.p 0) 0 (.imm 0))
    ∧ decodeSlot .x 0x100C0000 [0x00820000] = .ok (.xlih (.p 0) 3 (.ext 0x00820000))
    ∧ decodeSlot .x 0x04000000 [] = .ok (.mcall (.p 0) 0)
    ∧ decodeSlot .x 0x24000000 [] = .ok (.mcancel (.p 0))
    ∧ decodeSlot .f 0x08031052 [] = .ok (.cpy2d (.p 0) 3 (.reg 4) (.reg 5) false true false)
    ∧ decodeSlot .f 0x2C400842 [] = .ok (.binit (.p 2) (.reg 2) (.reg 4) 2)
    ∧ decodeSlot .f 0x2401FC31 [0x2000] = .ok (.mcast (.p 0) 1 (.lit 0x2000) (.reg 3) false false true)
    ∧ decodeSlot .f 0x3C000420 [] = .ok (.tsort (.p 0) 0 (.reg 1) (.reg 2) false false false)
    ∧ decodeSlot .f 0x6C01C831 [] = .ok (.sqtake (.p 0) 1 (.const 2) (.reg 3) false false true)
    ∧ decodeSlot .n 0x08000B05 [] = .ok (.bnld (.p 0) (.reg 2) (.const 0) 5)
    ∧ decodeSlot .n 0x04030445 [] = .ok (.bnet (.p 0) 3 (.reg 1) (.reg 4) 5)
    ∧ decodeSlot .micro 0x20000000 [] = .ok .mclr
    ∧ decodeSlot .micro 0x3C000A00 [] = .ok (.mloopZ 4 0 5)
    ∧ decodeSlot .micro 0x11000000 [] = .ok (.mstep 1)
    ∧ decodeSlot .micro 0x51300000 [] = .ok (.madvParam 0 3)
    ∧ decodeSlot .micro 0xB3CC0000 [] = .ok (.mmad 1 7 3)
    ∧ decodeSlot .micro 0x77000000 [] = .ok (.mdrain 7 false)
    ∧ decodeSlot .micro 0x00000000 [] = .ok .mend
    ∧ decodeHeader 0x0052081B = .ok ⟨0x01B, 0x04, 1, 2, 1, false, false⟩
    ∧ bundleLength 0x0052081B = 28
    ∧ decodeHeader 0x00060000 = .error .cxReserved

/-- One step, by the kind of what is next. The agenda is the model's own (log entry 8). -/
def Obligations.AStepTakesTheHeadOfTheAgenda : Prop :=
  ∀ (s : State) (rest : List Act), s.pkg.held = false →
    let s0 : State := { s with agenda := rest }
    (∀ i, s.agenda = .ev i :: rest → step s = exec i s0)
      ∧ (∀ core r i t, s.agenda = .micro core :: rest → (coreOf s core).mx.routine = some r → r.pc < 2048 →
          decodeMicro (r.prog.getD r.pc 0).toNat = .ok i →
          let s1 : State := { s0 with cur := unitCursor s0 core }
          (microAsks s1 core r i = none → exec i s1 = .next t → step s = .next t)
            ∧ ∀ u, microAsks s1 core r i = some u → step s = .next u)
      ∧ (∀ core, s.agenda = .micro core :: rest → (coreOf s core).mx.routine = none → step s = .next s0)
      ∧ (∀ gid, s.agenda = .bundle gid :: rest → groupOf s gid = none → step s = .next s0)

/-- R30, R31, R116, R142, R146, R182: the statements about single operations reach a run through this one. When
acquires are bound is the model's choice (DESIGN CHOICE, log entry 7). -/
def Obligations.AStepRunsTheDecodedBundle : Prop :=
  ∀ (s : State) (rest : List Act) (gid core : Nat) (g0 g : Group) (ws : List Nat) (b : Bundle) (sl : Slot) (i : Instr)
      (r : State),
    s.pkg.held = false → s.agenda = .bundle gid :: rest →
    let s0 : State := { s with agenda := rest }
    groupOf s0 gid = some g0 → g0.frozen = none →
    let d := deliverGroup (landDue s0 g0) g0
    groupOf d gid = some g → g.members = [core] → g.trailing = [] → g.twin = false → g.pending = [] → g.susp = none →
    g.stopping = none → g.saveMode = false → stretchUsed g = false → g.pauseCode = 0 → g.lichenHold = false →
    earlierHold d g = none → (coreOf d core).dbg.en = false →
    fetchBundle d core g.program (taskOf d core).pc.toNat = .words ws → decodeBundle ws = .ok b → b.ops = [(sl, i)] →
    b.header.effects = [] →
    let fresh : Cursor := bundleCursor d g core b.header b.len
    let cur : Cursor := { fresh with path := if sl = .c then pathOf { d with cur := fresh } i else 4 }
    let looking : State := { d with cur := cur }
    stopsOf i looking = [] → guarded looking i = true → holdOf i looking = none →
    let lane : Lane := ⟨{ cur with checked := true }, b.ops, []⟩
    egressCrowded d [lane] = false →
    let ready := useBanks (charge (bindBefore { d with cur := lane.cur } lane) 0 1) lane
    exec i ready = .next r →
    let f := runPost r
    step s = .next (closeBundle (advanceLane f { lane with cur := f.cur }) g [{ lane with cur := f.cur }] [] [])

/-- What a safe run means here: no state is stuck. -/
def Obligations.EveryStepAnswersANextState : Prop :=
  (∀ (i : Instr) (s : State), GoesOn (exec i s)) ∧ ∀ s : State, GoesOn (step s)

/-- The canonical form over which the memory of two states is compared. -/
def Obligations.EveryStepKeepsMemoryCanonical : Prop :=
  ∀ s t : State, Sound s → step s = .next t → Sound t

/-- The invariant of memory where a run starts, and the reset values that the register tables of the spec give. -/
def Obligations.ResetLeavesMemoryCanonicalAndTheTabledValues : Prop :=
  let s := State.reset
  let reads (n : RegName) (v : Nat) : Prop := readRegister s n = v
  Sound s ∧ (∀ a, a / 2 ^ 48 < 3 → readByte s a = 0)
    ∧ (∀ q, reads (.qcfg q) 0 ∧ reads (.qtail q) 0 ∧ reads (.qhead q) 0 ∧ reads (.qstate q) 0)
    ∧ reads .jnext 0 ∧ reads .ptbase 0 ∧ reads .wdcfg 0 ∧ reads .rbcount 0 ∧ reads .intnum 1
    ∧ reads .sealcfg 0x000000C8000503E8 ∧ reads .logcfg 0x8000003000008000 ∧ reads .egrcfg 0x0000001400001800
    ∧ reads .scrubcfg 0x00015180000003E8 ∧ reads .trctl 0x0000001000001F00 ∧ reads .trhead 0 ∧ reads .trlost 0
    ∧ reads .replay 0xFFFE ∧ reads .ptmcfg 0x800000000000000A ∧ reads .alarm 0 ∧ reads .alarmen 0 ∧ reads .domcfg 0
    ∧ reads .seclog 0 ∧ (∀ d, reads (.lclk d) 0) ∧ (∀ c k b, reads (.loss c k b) 0) ∧ (∀ c, reads (.colstate c) 0)
    ∧ (∀ c b, reads (.barrier c b) (2 * 2 ^ 51)) ∧ (∀ c, (coreOf s c).lshare = 2)
    ∧ s.groups = [] ∧ (∀ c, (sorusOf s c).fronds = []) ∧ (∀ e, engineOf s e = ⟨[], []⟩)

/-- R15, R16, R31, R55, R66, R153, R167, R168, R205, R286, R359: the delivery of results. -/
def Obligations.ResultsAreWrittenWhenTheyFallDue : Prop :=
  ∀ (core : Nat) (s : State) (g : Group) (p q : Pending) (before after rest : List Pending) (u : UnitVW) (fl : File)
      (r k : Nat) (v w : Word) (l l' : Lanes) (act act' lo hi lo' hi' m : Mask),
    let c := coreOf s core
    let t := c.task
    let now := g.cycleOf core
    let mix (act new old : Mask) : Mask := (act &&& new) ||| (~~~act &&& old)
    let latchedBy (x : Latches) (p : Pending) : Latches := match p.latch with
      | some e => x.push e
      | none => x
    let does (f : Core) (bad : Bool) : Prop := ∃ z, exec (.resultDue core) s = .next z
      ∧ (∀ j, coreOf z j = if j = core then f else coreOf s j)
      ∧ z = { s with
          cores := z.cores,
          groups := if bad then s.groups.map fun h =>
            if h.gid = g.gid then { h with pending := ⟨9, 0, [g.rankOf core], none⟩ :: h.pending } else h
            else s.groups }
    let flagged (c : Core) (f : Word) : Core := { c with task := { c.task with status := c.task.status ||| f } }
    let both : Core := { c with task := { t with
      pend := rest,
      latches := if p.order < q.order then latchedBy (latchedBy t.latches p) q else latchedBy (latchedBy t.latches q) p } }
    let ends (f : Task) (meet : Prop) : Prop :=
      ∃ wc : Word, (meet → wc = 0x40) ∧ (¬meet → wc = 0)
        ∧ does (flagged { both with task := f } (p.flags ||| q.flags ||| wc)) (p.poisoned || q.poisoned)
    let b := both.task
    let vp (i : Nat) : Mask := b.vpreds.getD i 0
    let halves (x y : Mask) : Task := { b with vpreds := (b.vpreds.set (2 * k) x).set (2 * k + 1) y }
    let whole : Prop := ∀ x ∈ t.remotes, x.late now = false
    (groupOn s core = none → exec (.resultDue core) s = .next s)
      ∧ (groupOn s core = some g → ¬whole → exec (.resultDue core) s = .next s)
      ∧ (groupOn s core = some g → (∀ x ∈ t.pend, now < x.due) →
          ∃ z, exec (.resultDue core) s = .next z ∧ z = { s with cores := z.cores } ∧ ∀ j, coreOf z j = coreOf s j)
      ∧ (groupOn s core = some g → whole → t.pend = before ++ p :: after → (∀ x ∈ before ++ after, now < x.due) → p.due ≤ now →
          let due : Core := { c with task := { t with pend := before ++ after, latches := latchedBy t.latches p } }
          let at' (i : Nat) : Mask := t.vpreds.getD i 0
          let witnessed (x y : Mask) : Core :=
            { due with task := { due.task with vpreds := (t.vpreds.set (2 * k) x).set (2 * k + 1) y } }
          ((∀ d ∈ p.dsts, wellSized t d) → p.dsts.Pairwise Apart →
              does (flagged (p.dsts.foldl afterOne due) p.flags) p.poisoned)
            ∧ (1 ≤ k → 2 * k + 1 < t.vpreds.length →
              (p.dsts = [.vpair k (some lo) (some hi) act, .vsingle (2 * k) m act'] →
                does (flagged (witnessed (mix act' m (mix act lo (at' (2 * k))))
                  (mix (act &&& ~~~act') hi (at' (2 * k + 1)))) p.flags) p.poisoned)
              ∧ (p.dsts = [.vpair k (some lo) (some hi) act, .vsingle (2 * k + 1) m act'] →
                does (flagged (witnessed (mix (act &&& ~~~act') lo (at' (2 * k)))
                  (mix act' m (mix act hi (at' (2 * k + 1))))) p.flags) p.poisoned)))
      ∧ (groupOn s core = some g → whole → (t.pend = p :: q :: rest ∨ t.pend = q :: p :: rest) → (∀ x ∈ rest, now < x.due) →
          p.due = q.due → q.due ≤ now → p.order ≠ q.order → (p.slot < q.slot ∨ p.slot = q.slot ∧ p.order < q.order) →
          (∀ fl' r', p.dsts = [.word fl r v] → q.dsts = [.word fl' r' w] →
              ends (writeReg (writeReg b fl r v) fl' r' w) (fl = fl' ∧ r = r'))
            ∧ (∀ r', p.dsts = [.wide r (v.setWidth 64)] → q.dsts = [.wide r' (w.setWidth 64)] →
              ends { b with x := (b.x.set r (v.setWidth 64)).set r' (w.setWidth 64) } (r = r'))
            ∧ (∀ j, p.dsts = [.pair k (v.getLsbD 0) (v.getLsbD 1)] → q.dsts = [.pair j (w.getLsbD 0) (w.getLsbD 1)] → k < 8 → j < 8 →
              ends (afterOne (afterOne both (.pair k (v.getLsbD 0) (v.getLsbD 1))) (.pair j (w.getLsbD 0) (w.getLsbD 1))).task
                (k = j ∧ k ≠ 0))
            ∧ (p.dsts = [.lanes u r l act] → q.dsts = [.lanes u r l' act'] → l.length = 128 → l'.length = 128 →
              ends (afterOne both (.lanes u r ((List.range 128).map fun L =>
                if act.getLsbD L = true ∧ act'.getLsbD L = false then l.getD L 0 else l'.getD L 0) act)).task (act &&& act' ≠ 0))
            ∧ (1 ≤ k → 2 * k + 1 < t.vpreds.length →
              (p.dsts = [.vpair k (some lo) (some hi) act] → q.dsts = [.vpair k (some lo') (some hi') act'] →
                ends (halves (mix act' lo' (mix act lo (vp (2 * k)))) (mix act' hi' (mix act hi (vp (2 * k + 1)))))
                  (act &&& act' ≠ 0))
              ∧ (p.dsts = [.vsingle (2 * k) m act] → q.dsts = [.vpair k (some lo') (some hi') act'] →
                ends (halves (mix act' lo' (mix act m (vp (2 * k)))) (mix act' hi' (vp (2 * k + 1)))) (act &&& act' ≠ 0))
              ∧ (p.dsts = [.vpair k (some lo) (some hi) act] → q.dsts = [.vsingle (2 * k) m act'] →
                ends (halves (mix act' m (mix act lo (vp (2 * k)))) (mix (act &&& ~~~act') hi (vp (2 * k + 1))))
                  (act &&& act' ≠ 0))
              ∧ (p.dsts = [.vpair k (some lo) (some hi) act] → q.dsts = [.vsingle (2 * k + 1) m act'] →
                ends (halves (mix (act &&& ~~~act') lo (vp (2 * k))) (mix act' m (mix act hi (vp (2 * k + 1)))))
                  (act &&& act' ≠ 0))))

/-- R91, R93, R96, R97, R109, R321 to R324, R374. The model's choices: a queue enabled again while it is enabled keeps
its halt (DEDUCED, log entry 43: R322 says only that the queue is then idle), any word written to a valid entry is
checked (DESIGN CHOICE, log entry 65: R93 speaks of a write that sets VALID), and an entry whose extent awaits its
hand-over is stored with VALID clear (DEDUCED, log entry 70). -/
def Obligations.QueueRegistersHandlesAndTlbTakeTheirWrites : Prop :=
  ∀ (q d h : Nat) (word : Fin 4) (v : Dword) (program : BitVec 16) (page : BitVec 36) (s : State),
    let x := queueOf s q
    let goes (i : Instr) (after : State → Prop) : Prop := ∃ t, exec i s = .next t ∧ after t
    let others (t : State) : Prop := ∀ r, r ≠ q →
      queueOf t r = queueOf s r ∧ headOf t r = headOf s r ∧ haltOf t r = haltOf s r
    let tail := v.toNat % 2 ^ 32
    let tooMany := x.enabled = true ∧ haltOf s q = 0 ∧ x.size < (tail + 2 ^ 32 - headOf s q) % 2 ^ 32
    let cfg := v &&& 0xC000FFFF001F7F00
    let shut := cfg &&& 0x7FFFFFFFFFFFFFFF
    let good := 4 ≤ v.toNat / 2 ^ 16 % 32 ∧ v.toNat / 2 ^ 16 % 32 ≤ 16 ∧ programValid s (v.toNat / 2 ^ 32 % 2 ^ 16) = true
    let mine (p : Packet) : Bool := p.queue == q && p.st == .accepted
    let disables (i : Instr) (cfg : Dword) : Prop :=
      (x.enabled = false → goes i fun t => t = { s with queues := t.queues } ∧ queueOf t q = { x with cfg := cfg } ∧ others t)
      ∧ (x.enabled = true → goes i fun t => queueOf t q = { x with cfg := cfg, notes := [] } ∧ others t ∧ haltOf t q = 0
          ∧ headOf t q = headOf s q ∧ t.dom.packets = s.dom.packets.filter (fun p => !mine p)
          ∧ t.journal = markedAs s ((s.dom.packets.filter mine).map Packet.seq) true ∧ t.cores = s.cores ∧ t.groups = s.groups)
    let e := handleOf s d h
    let e' : Handle := match word with
      | 0 => { e with w0 := v } | 1 => { e with w1 := v } | 2 => { e with w2 := v } | 3 => { e with w3 := v }
    let onDie (t : State) (y : Die) : Prop := t = { s with dies := t.dies } ∧ die t d = y ∧ ∀ c, c ≠ d → die t c = die s c
    let busy := (die s d).tlbinv.getLsbD 63 = true
    let starts (i : Instr) (w : Dword) : Prop := (¬busy → goes i fun t => onDie t { die s d with tlbinv := w })
      ∧ (busy → exec i s = .next s)
    let kind := (die s d).tlbinv.toNat / 2 ^ 61 % 4
    let named (z : TlbEntry) : Prop := z.cluster / 24 = d ∧ (kind = 0
      ∨ (z.program = (die s d).tlbinv.toNat / 2 ^ 36 % 2 ^ 16 ∧ (kind = 1
        ∨ (z.page ≤ (die s d).tlbinv.toNat % 2 ^ 36 ∧ (die s d).tlbinv.toNat % 2 ^ 36 < z.page + z.size))))
    (q < 64 →
        goes (.qtailNotification q v) (fun t => (queueOf t q).tail = tail ∧ (queueOf t q).cfg = x.cfg ∧ (queueOf t q).base = x.base
          ∧ haltOf t q = (if tooMany then 2 else haltOf s q) ∧ (tooMany → t.pkg.alarm.getLsbD 4 = true)
          ∧ (¬tooMany → t.pkg = s.pkg) ∧ others t ∧ t.dom = { s.dom with halts := t.dom.halts }
          ∧ SameMemory s t ∧ t.cores = s.cores)
        ∧ (v.getLsbD 63 = true →
            (good → goes (.queueEnable q v) fun t => queueOf t q = { x with cfg := cfg, notes := [] } ∧ others t
                ∧ t.dom.packets = s.dom.packets ∧ headOf t q = x.tail % 2 ^ 32
                ∧ haltOf t q = (if x.enabled then haltOf s q else 0) ∧ t.pkg.firstEnable = true
                ∧ (s.pkg.firstEnable = true → t.seals = s.seals)
                ∧ (s.pkg.firstEnable = false → s.seals.phase = .none → t.seals.phase = .quiesce))
              ∧ (¬good → disables (.queueEnable q v) shut))
        ∧ (v.getLsbD 63 = false → disables (.queueDisable q v) cfg))
      ∧ (64 ≤ q → exec (.qtailNotification q v) s = .next s)
      ∧ (d < 4 → s.dies.length = 4 →
          (h < 4096 → goes (.handleEntryWrite d h word v) fun t => t = { s with dies := t.dies }
              ∧ handleOf t d h = (if e'.valid = true ∧ (handleChecked s e' = false ∨ awaitsHandover s e' = true) then
                  { e' with w0 := e'.w0 &&& 0x7FFFFFFFFFFFFFFF } else e')
              ∧ ∀ c k, (c ≠ d ∨ k ≠ h) → handleOf t c k = handleOf s c k)
            ∧ starts (.tlbinvAll d) 0x8000000000000000
            ∧ starts (.tlbinvProgram d program) (0xA000000000000000 ||| (program.setWidth 64 <<< 36))
            ∧ starts (.tlbinvPage d program page)
                (0xC000000000000000 ||| (program.setWidth 64 <<< 36) ||| page.setWidth 64)
            ∧ (busy → goes (.tlbinvComplete d) fun t => t = { s with dies := t.dies, tlb := t.tlb }
                ∧ die t d = { die s d with tlbinv := (die s d).tlbinv &&& 0x7FFFFFFFFFFFFFFF }
                ∧ (∀ c, c ≠ d → die t c = die s c) ∧ (∀ z, z ∈ t.tlb ↔ z ∈ s.tlb ∧ ¬named z))
            ∧ (¬busy → exec (.tlbinvComplete d) s = .next s))

/-- R361, R415 to R417, R419, R428 to R430. That the pre-emption cause arises on every rank of the group is the
model's choice (DEDUCED, log entry 45). -/
def Obligations.AttestationDebugAndReplayTakeTheirRequests : Prop :=
  ∀ (core : Nat) (v : Dword) (s : State),
    let goes (i : Instr) (after : State → Prop) : Prop := ∃ t, exec i s = .next t ∧ after t
    let same (i : Instr) : Prop := exec i s = .next s
    let busy := s.pkg.attctl.getLsbD 63 = true
    let fits := Config.sm2Verifies 1 (sm3 (s.pkg.dbgchal ++ leBytes 8 Config.serialNumber)) s.pkg.dbgresp
    let locked := s.pkg.dbgunlk.getLsbD 0 = false
    let frozen (g : Group) : Prop := groupOn s core = some g ∧ g.frozen ≠ none
    let sel := (coreOf s core).dbg.sel
    let r := sel.toNat % 256
    let groupIs (t : State) (g : Group) (f : Group → Group) : Prop := t = { s with
      groups := s.groups.map fun x => if x.gid = g.gid then f x else x }
    (¬busy → goes .attestationRequest fun t => t = { s with pkg := { s.pkg with attctl := 0x8000000000000000 } })
      ∧ (busy → same .attestationRequest) ∧ (¬busy → same .attestationComplete)
      ∧ (busy → goes .attestationComplete fun t =>
          t = { s with pkg := { s.pkg with report := t.pkg.report, attctl := if s.pkg.zeroised then 0 else 1 } }
            ∧ t.pkg.report.length = 256 ∧ t.pkg.report.take 192 = reportBody s
            ∧ (s.pkg.zeroised = true → t.pkg.report.drop 192 = List.replicate 64 0))
      ∧ goes .debugUnlock (fun t =>
          if fits then t = { s with pkg := { s.pkg with dbgunlk := 1 } }
          else t.pkg.dbgunlk = s.pkg.dbgunlk ∧ t.pkg.alarm.getLsbD 2 = true
            ∧ t.pkg.dbgchal = Config.challenge s.free ∧ t.free = s.free + 1
            ∧ t = { s with pkg := t.pkg, free := t.free })
      ∧ (locked → same (.debugStopRequest core) ∧ same (.debugPreemptRequest core) ∧ same (.debugResume core)
          ∧ same (.dbgdataWrite core v) ∧ same (.replayGo v))
      ∧ (groupOn s core = none → same (.debugStopRequest core) ∧ same (.debugPreemptRequest core) ∧ same (.debugResume core))
      ∧ (¬locked → ∀ g, groupOn s core = some g →
          goes (.debugStopRequest core) (fun t => groupIs t g fun x =>
              { x with pending := x.pending ++ [⟨14, 0, [x.rankOf core], none⟩] })
            ∧ goes (.debugPreemptRequest core) (fun t => groupIs t g fun x =>
              if x.pending.any fun c => c.code == 12 then x
              else { x with pending := x.pending ++ [⟨12, 3, List.range x.members.length, none⟩] }))
      ∧ (¬locked → ∀ g z, groupOn s core = some g → g.frozen = some z → g.members.headD 0 = core →
          goes (.debugResume core) fun t => t.groups = s.groups.map (fun x => if x.gid = g.gid then
              { x with frozen := none, single := (coreOf s core).dbg.step } else x)
            ∧ t = { s with cores := t.cores, groups := t.groups }
            ∧ (∀ j, (∀ e ∈ z.saved, e.1 ≠ j) → coreOf t j = coreOf s j)
            ∧ ∀ e, z.saved.find? (fun e => e.1 == core) = some e → (∀ e' ∈ z.saved, e'.1 = core → e' = e) →
                (taskOf t core).tcause = e.2.1 ∧ (taskOf t core).tpc = e.2.2)
      ∧ (¬locked → (¬∃ g, frozen g) → same (.dbgdataWrite core v))
      ∧ (¬locked → ∀ g, frozen g → ∀ fl, File.ofCode (sel.toNat / 2 ^ 8 % 16) = some fl →
          goes (.dbgdataWrite core v) fun t => t = { s with cores := t.cores } ∧ (∀ j, j ≠ core → coreOf t j = coreOf s j)
            ∧ coreOf t core = { coreOf s core with task := taskOf t core }
            ∧ (fl = .c → taskOf t core = { taskOf s core with k := (taskOf s core).k.set r (v.setWidth 32) })
            ∧ (fl = .x → taskOf t core = { taskOf s core with x := (taskOf s core).x.set r v })
            ∧ (fl = .a → r ≠ 0 → taskOf t core = { taskOf s core with a := (taskOf s core).a.set r (v.setWidth 32) })
            ∧ (fl = .a → r = 0 → taskOf t core = taskOf s core)
            ∧ (fl = .preds → 2 ≤ r → r < 16 → ∀ i, (taskOf t core).preds.getLsbD i
                = if i = r then v.getLsbD 0 else (taskOf s core).preds.getLsbD i))
      ∧ (v.getLsbD 63 = false → same (.replayGo v))
      ∧ (¬locked → v.getLsbD 63 = true → goes (.replayGo v) fun t => t.pkg.replayGo = true
          ∧ t.pkg.replayMask = v.toNat % 2 ^ 16 ∧ t.groups = [] ∧ t.pkg.rbcount = s.pkg.rbcount + 1
          ∧ t.pkg.intnum = s.pkg.maxInterval + 1)

/-- R6, R111, R321, R324, R355, R374, R378, R380, R388, R390, R408, R412, R422, R424, R431. The model's choices: that
firmware alone writes BISTSTAT and the like (DEDUCED, log entry 50), that FAR and MID of LCLK are the ratios in effect
and PEND another (DEDUCED, log entry 51), what device time shows while PTMCFG.EN is clear (DEDUCED, log entry 56), and
that a change of ratio is the next act (DESIGN CHOICE, log entry 8). -/
def Obligations.RegisterWritesStoreTheirDefinedBits : Prop :=
  ∀ (v : Dword) (w : Word) (core k b d : Nat) (far : Bool) (s : State),
    let goes (i : Instr) (after : State → Prop) : Prop := ∃ t, exec i s = .next t ∧ after t
    let keeps (o : Nat) : Prop := exec (.registerWrite o v) s = .next s
    let stores (o : Nat) (mask : Dword) (set : Package → Dword → Package) : Prop :=
      exec (.registerWrite o v) s = .next { s with pkg := set s.pkg (v &&& mask) }
    let fe (o : Nat) : Nat := 0x100000 + o
    let oneCore (t : State) (c : Core) : Prop := t = { s with cores := t.cores } ∧ coreOf t core = c
      ∧ ∀ j, j ≠ core → coreOf t j = coreOf s j
    let oneDie (t : State) (y : Die) : Prop := t = { s with dies := t.dies } ∧ die t d = y ∧ ∀ c, c ≠ d → die t c = die s c
    let x := die s d
    let cleared (l' l : Sparse Nat) : Prop := lookup 0 l' (32 * k + b) = 0
      ∧ ∀ n, n ≠ 32 * k + b → lookup 0 l' n = lookup 0 l n
    let far' := v.toNat / 2 ^ 4 % 4
    let mid' := v.toNat % 4
    let pends (cur : Nat) (pend : Option Nat) (code : Nat) : Option Nat :=
      if code = 3 then pend else if pend ≠ none ∨ code ≠ cur then some code else none
    stores (fe 0x1000) 0x000FFFFFFFFFFFC0 (fun p y => { p with jbase := y })
      ∧ stores (fe 0x1008) 0x1F (fun p y => { p with jsize := y })
      ∧ stores (fe 0x1018) 0x000FFFFFFFFFFFC0 (fun p y => { p with ptbase := y })
      ∧ stores (fe 0x1020) 0x800FFFFF (fun p y => { p with wdcfg := y })
      ∧ stores (fe 0x1100) 0x0000FFFF00FFFFFF (fun p y => { p with sealcfg := y })
      ∧ (∀ i < 4, stores (fe (0x1108 + 8 * i)) 0xFFFFFFFFFFFFFFFF (fun p y => { p with sealgrp := p.sealgrp.set i y }))
      ∧ (s.pkg.firstCut = false → stores (fe 0x1130) 0x000FFFFFFFF00000 (fun p y => { p with logbase := y })
          ∧ stores (fe 0x1138) 0x8000003FFFFFFFFF (fun p y => { p with logcfg := y }))
      ∧ (s.pkg.firstCut = true → keeps (fe 0x1130) ∧ keeps (fe 0x1138))
      ∧ stores (fe 0x1160) 0x0000FFFF00003FFF (fun p y => { p with egrcfg := y })
      ∧ stores (fe 0x1190) 0xFFFFFFFFFFFFFFFF (fun p y => { p with scrubcfg := y })
      ∧ (s.pkg.trctl.getLsbD 63 = false → stores (fe 0x1200) 0x000FFFFFFFFFFFE0 (fun p y => { p with trbase := y }))
      ∧ (s.pkg.trctl.getLsbD 63 = true → keeps (fe 0x1200))
      ∧ stores (fe 0x1308) 0x1F (fun p y => { p with alarmen := y })
      ∧ stores (fe 0x1310) 0x80000000000000FF (fun p y => { p with domcfg := y })
      ∧ (∀ i < 4, stores (fe (0x1318 + 8 * i)) 0xFFFFFFFFFFFFFFFF (fun p y => { p with peermap := p.peermap.set i y }))
      ∧ (∀ o ∈ [0x1010, 0x1128, 0x1140, 0x1148, 0x1150, 0x1158, 0x1168, 0x1170, 0x1178, 0x1180, 0x1188, 0x1210, 0x1218, 0x1230,
          0x1640, 0x1648, 0x1650, 0x1658, 0x16C0], keeps (fe o)) ∧ (∀ i < 32, keeps (fe (0x1700 + 8 * i)))
      ∧ (∀ q < 64, keeps (fe (64 * q + 0x18)) ∧ keeps (fe (64 * q + 0x20))
          ∧ goes (.registerWrite (fe (64 * q)) v) fun t => queueOf t q = { queueOf s q with base := v &&& 0x000FFFFFFFFFF000 }
            ∧ (∀ r, r ≠ q → queueOf t r = queueOf s r) ∧ t = { s with queues := t.queues })
      ∧ (∀ o, locateReg o = none → keeps o)
      ∧ goes (.registerWrite (fe 0x1228) v) (fun t => t.pkg = { s.pkg with
            ptmcfg := (s.pkg.ptmcfg &&& 0x4000FFFFFFFF0000) ||| (v &&& 0x800000000000FFFF) }
          ∧ (v.getLsbD 63 = false → t.slew = 0 ∧ t.synced = true)
          ∧ t = { s with pkg := t.pkg, slew := t.slew, slewFast := t.slewFast, synced := t.synced, ptmLast := t.ptmLast })
      ∧ (d < 4 → d < s.dies.length → goes (.registerWrite (0x2100000 + d * 0x400000) v) fun t =>
          oneDie t { x with bist := v &&& 0xC000FFFFFFFFFFFF })
      ∧ (v.getLsbD 63 = true → goes (.traceEnable v) fun t => t = { s with pkg := { s.pkg with
          trctl := (0x8000000000000000 ||| (v &&& 0xFFFF)
            ||| ((if s.pkg.trctl.getLsbD 63 then s.pkg.trctl else v) &&& 0x1F00000000)), trhead := 0, trlost := 0 } })
      ∧ (v.getLsbD 63 = false → exec (.traceEnable v) s = .next s)
      ∧ exec (.alarmClear v) s = .next { s with pkg := { s.pkg with alarm := s.pkg.alarm &&& ~~~v } }
      ∧ exec (.wdcfgWrite v) s = .next { s with pkg := { s.pkg with wdcfg := v &&& 0x800FFFFF } }
      ∧ (w.toNat % 4 = 3 → exec (.cstateWrite core w) s = .next s)
      ∧ (w.toNat % 4 ≠ 3 → goes (.cstateWrite core w) fun t => oneCore t { coreOf s core with cstate := w.toNat % 4 })
      ∧ goes (.lossCounterClear core k b) (fun t => oneCore t
            { coreOf s core with loss := (coreOf t core).loss, lossSeen := (coreOf t core).lossSeen }
          ∧ cleared (coreOf t core).loss (coreOf s core).loss ∧ cleared (coreOf t core).lossSeen (coreOf s core).lossSeen)
      ∧ (d < s.dies.length → goes (.lclkWrite d v) (fun t =>
            let far'' := pends x.far x.farPend far'
            let mid'' := pends x.mid x.midPend mid'
            t = { s with
              dies := t.dies
              agenda := (if far''.isSome then [.unit .farRatioChange d 0 0] else [])
                ++ (if mid''.isSome then [.unit .midRatioChange d 0 0] else []) ++ s.agenda }
              ∧ die t d = { x with farPend := far'', midPend := mid'' } ∧ ∀ c, c ≠ d → die t c = die s c)
          ∧ goes (.clockRatioChange d far) (fun t => oneDie t (if far then { x with far := x.farPend.getD x.far, farPend := none }
            else { x with mid := x.midPend.getD x.mid, midPend := none })))

/-- R108, R389, R390, R420, R421, R427, R430. The model's choices: what a held module answers, and that it ignores a
function-level reset (DEDUCED, log entry 54), and what a function-level reset keeps and clears beyond what R421 names
(DEDUCED, log entry 55). -/
def Obligations.HostAccessesAndBootsActOnTheModule : Prop :=
  ∀ (bar o n : Nat) (v : Dword) (failing : List BankFailure) (s : State),
    let goes (i : Instr) (after : State → Prop) : Prop := ∃ t, exec i s = .next t ∧ after t
    let fails : Prop := exec (.hostRead bar o n) s = .next { s with hostReply := ⟨1, []⟩ } ∧ exec (.hostWrite bar o n v) s = .next s
    let slice := towerAddr (coreId (o / 2 ^ 34 % 4) (o / 2 ^ 21 % 2 ^ 11)) (o / 2 ^ 32 % 4 + 1) (o % 2 ^ 21)
    let reaches (pa : Nat) : Prop :=
      goes (.hostRead bar o n) (fun t => t = { s with
            hostReply := ⟨0, readBytes (outside s noCore) pa n⟩, dies := t.dies } ∧ (crossingShut s pa = false → t.dies = s.dies))
        ∧ (n ≤ 8 → Roomy s 4 → goes (.hostWrite bar o n v) fun t =>
            (twinAlso s pa = none ∨ (∀ j < n, OutsideRing s (pa + j)) →
                ∀ j < n, readByte t (pa + j) = BitVec.ofNat 8 (v.toNat / 2 ^ (8 * j)))
              ∧ (twinAlso s pa = none → SameMemoryBut s t pa n) ∧ KeepsAllButMemory s t)
    let released := s.pkg.held = false
    let tested := ∀ d ∈ s.dies, d.bist.getLsbD 63 = true
    let fresh : Package := { Package.initial with dbgchal := Config.challenge s.free }
    (barAddr bar o = none → fails)
      ∧ (released → bar = 2 → o + n ≤ 2 ^ 40 → (o + n ≤ 768 * 2 ^ 30 → reaches o) ∧ (768 * 2 ^ 30 ≤ o → n ≠ 0 → fails))
      ∧ (released → bar = 4 → o < 2 ^ 36 → n ≤ 8 → o % 2 ^ 21 + n ≤ 2 ^ 21 →
          (extentMapped s slice n = true → reaches slice) ∧ (extentMapped s slice n = false → fails))
      ∧ (released → bar = 0 → o < 2 ^ 27 → (∀ i < n, locateReg (o + i) ≠ none) → o + n ≤ 2 ^ 27 →
          exec (.hostRead bar o n) s = .next { s with hostReply := ⟨0, readControl s o n⟩ })
      ∧ (s.pkg.held = true → bar ≠ 0 → n ≠ 0 → fails)
      ∧ goes (.coldBoot true) (fun t => t.pkg = fresh ∧ t.mem = [] ∧ t.poison = [] ∧ t.tags = [] ∧ t.cores = [] ∧ t.groups = []
          ∧ t.dom = Domain.initial ∧ t.queues = [] ∧ t.now = 0 ∧ t.seals = State.reset.seals ∧ t.tlb = [] ∧ t.ext = s.ext
          ∧ t.dies.length = 4 ∧ ∀ d ∈ t.dies, d.bist = 0 ∧ d.handles = [] ∧ d.undo = [] ∧ d.egress = [])
      ∧ goes (.coldBoot false) (fun t => t.pkg.held = true ∧ t.pkg.alarm.getLsbD 2 = true ∧ t.groups = [] ∧ t.mem = [])
      ∧ (s.pkg.held = true ∨ tested → exec (.selfTest failing) s = .next s)
      ∧ (released → ¬tested → goes (.selfTest failing) fun t =>
          (∀ c, c ∈ t.mem ↔ c ∈ s.mem ∧ c.1 / 2 ^ 48 ≠ 1) ∧ (∀ d ∈ t.dies, d.bist.getLsbD 63 = true)
            ∧ t.dies.length = s.dies.length ∧ t.pkg = s.pkg ∧ t.groups = s.groups ∧ t.dom = s.dom
            ∧ (failing = [] → t.cores = s.cores))
      ∧ (s.pkg.held = true → exec .functionLevelReset s = .next s)
      ∧ (released → goes .functionLevelReset fun t => (∀ c, c ∈ t.mem ↔ c ∈ s.mem ∧ c.1 < 2 ^ 48)
          ∧ t.now = s.now ∧ t.timeAdj = s.timeAdj ∧ t.synced = s.synced ∧ t.slew = s.slew ∧ t.ext = s.ext
          ∧ t.groups = [] ∧ t.cores = [] ∧ t.dom = Domain.initial ∧ t.queues = []
          ∧ t.pkg = { fresh with zeroised := s.pkg.zeroised, seclog := s.pkg.seclog, links := s.pkg.links })

/-- R26, R29, R337 to R340, R350, R351, R354, R355, R361. That the watchdog cause arises on every rank of the group is
the model's choice (DEDUCED, log entry 45). -/
def Obligations.SoriPlaceTasksAndBoundariesEndThem : Prop :=
  ∀ (c gid : Nat) (s : State),
    let goes (i : Instr) (after : State → Prop) : Prop := ∃ t, exec i s = .next t ∧ after t
    let stopped := s.seals.phase = .quiesce ∨ s.seals.phase = .checkpoint
    let so := sorusOf s c
    let idle (f : Frond) (b : Nat) : Bool := (blockMembers f b).all (memberIdle s c f.twin (some f.tie))
    let context (f : Frond) (words : List Word) (b r : Nat) (q : Task) : Prop :=
      q.pc = words.getD 0 0 ∧ (∀ i < 32, q.a.getD i 0 = if 1 ≤ i ∧ i ≤ 5 then words.getD (6 + i) 0 else 0)
        ∧ q.stage = BitVec.ofNat 32 (f.stage + r) ∧ q.group = BitVec.ofNat 32 (f.widthCode * 2 ^ 16 + b * 2 ^ 8 + r)
        ∧ q.status = 0 ∧ q.fmt = 0x20008800 ∧ q.preds = 0xAAA9 ∧ q.depth = 0 ∧ q.cells = [] ∧ q.pend = []
        ∧ q.b = List.replicate 32 0 ∧ q.k = List.replicate 16 0 ∧ q.x = List.replicate 8 0 ∧ q.energy = 0
    (stopped → exec (.sorusDispatch c) s = .next s ∧ exec (.steal c) s = .next s)
      ∧ (¬stopped → c < 96 → headFrond so = none → so.reservedFor = none → exec (.sorusDispatch c) s = .next s)
      ∧ (∀ f b words, ¬stopped → c < 96 → headFrond so = some f → so.reservedFor = none → placementFault f = 0 →
          (placements f).find? (idle f) = some b → recordOf s c f.space f.ptr = some words →
          let s' := releaseReservation s c
          let w := widthOf f.widthCode
          let lead (r : Nat) : Nat := memberCore c (if f.twin then b + 2 * r else b + r)
          programValid s ((words.getD 1 0).toNat / 2 ^ 16) = true → (words.getD 0 0).toNat % 4 = 0 →
          setFrondWord s' c f.space f.ptr 12 (statusWord 3 f.faulted f.lastSusp f.cause 0) ≠ none → f.priority ≠ 31 →
          goes (.sorusDispatch c) fun t => ∃ g, t.groups = s.groups ++ [g] ∧ g.gid = s.nextId
            ∧ g.members = (List.range w).map lead ∧ g.frond = f.ptr ∧ g.program = (words.getD 1 0).toNat / 2 ^ 16
            ∧ g.counter = 0 ∧ g.saveMode = (words.getD 1 0).getLsbD 3 ∧ g.pending = [] ∧ g.susp = none
            ∧ ∀ r < w, context f words b r (taskOf t (lead r)))
      ∧ (∀ z, ¬stopped → c < 96 → canSteal s c = true → chooseSteal s c = some z → goes (.steal c) fun t =>
          sorusOf t c = { so with stealing := some z } ∧ (∀ e, e ≠ c → sorusOf t e = sorusOf s e) ∧ t.groups = s.groups)
      ∧ (so.stealing = none → exec (.stealTake c) s = .next s)
      ∧ (∀ home tie f, so.stealing = some (home, tie) → home ≠ c →
          (sorusOf s home).fronds.find? (fun f => f.tie == tie && stealable (home / 24 != c / 24) f) = some f →
          goes (.stealTake c) fun t => sorusOf t c = { so with stealing := none, fronds := so.fronds ++ [{ f with base := 63 }] }
            ∧ (sorusOf t home).fronds = (sorusOf s home).fronds.filter (fun x => !(x.ptr == f.ptr && x.space == f.space))
            ∧ (∀ e, e ≠ c → e ≠ home → sorusOf t e = sorusOf s e))
      ∧ (groupOf s gid = none → exec (.trapVectoring gid) s = .next s ∧ exec (.taskLimitExpiry gid) s = .next s
          ∧ exec (.saveModeCutoff gid) s = .next s ∧ exec (.suspensionPointComplete gid) s = .next s)
      ∧ (∀ g, groupOf s gid = some g →
          let waits := trailingReady g true || drainsStill s g
          (g.frozen ≠ none ∨ g.susp ≠ none ∨ g.stopping ≠ none ∨ nextCause g = none → exec (.trapVectoring gid) s = .next s)
            ∧ (∀ k, g.frozen = none → g.susp = none → g.stopping = none → g.pauseCode = 0 → nextCause g = some k → vector.tierOf k.code ≠ 1 →
                (k.code ≠ 14 → waits = true → exec (.trapVectoring gid) s = .next (stopGroup s g k))
                  ∧ (k.code ≠ 14 → waits = false → ∀ x, groupOf (drainGroup s g) gid = some x →
                    (consumedCause x = none → exec (.trapVectoring gid) s = .next
                        (if 2048 ≤ x.saveCount ∧ k.code = 13 then cutOff (traceWatchdog (drainGroup s g) x 1) x 13
                          else vector (drainGroup s g) x k))
                      ∧ ∀ e, consumedCause x = some e →
                          exec (.trapVectoring gid) s = .next (consumeError (drainGroup s g) x e))
                  ∧ (k.code = 14 → goes (.trapVectoring gid) fun t =>
                      (∀ h ∈ t.groups, h.gid = gid → h.frozen ≠ none) ∧ ∀ id ∈ g.all,
                        (taskOf t id).tcause = causeWord k (g.rankOf id) ∧ (taskOf t id).tpc = causePC s g k
                          ∧ (taskOf t id).pc = (taskOf s id).pc ∧ (taskOf t id).a = (taskOf s id).a))
            ∧ (limitReached s g = true → goes (.taskLimitExpiry gid) fun t => t.groups = s.groups.map (fun x => if x.gid = gid then
                { x with pending := x.pending ++ [⟨13, 0, List.range x.members.length, none⟩] } else x) ∧ KeepsTasks s t)
            ∧ (limitReached s g = false → exec (.taskLimitExpiry gid) s = .next s)
            ∧ (2048 ≤ g.saveCount → g.frozen = none → ∃ k, nextCause g = some k
                ∧ (g.pending = [] → k = ⟨13, 0, List.range g.members.length, none⟩)
                ∧ exec (.saveModeCutoff gid) s = .next (takeCause (endPause s gid) g k))
            ∧ (∀ x, waits = false → groupOf (drainGroup s g) gid = some x → consumedCause x = none → 2048 ≤ x.saveCount →
                (takeCause s g ⟨13, 0, List.range g.members.length, none⟩).groups.map Group.gid
                  = (s.groups.map Group.gid).filter fun n => n != gid)
            ∧ (g.saveCount < 2048 ∨ g.frozen ≠ none → exec (.saveModeCutoff gid) s = .next s)
            ∧ (g.susp = none ∨ g.frozen ≠ none ∨ g.stopping ≠ none → exec (.suspensionPointComplete gid) s = .next s)
            ∧ (g.susp ≠ none → g.frozen = none → g.stopping = none → g.signatures = [] → g.pending = [] → s.seals.phase = .none →
                (∀ id ∈ g.all, (taskOf s id).remotes = [] ∧ (taskOf s id).pend = [] ∧ unitBusy s id = false
                  ∧ ∀ a ∈ s.lateArrivals, a.core ≠ id) →
                (∀ o ∈ s.offers, o.gid ≠ gid) →
                goes (.suspensionPointComplete gid) fun t => t.groups = s.groups.filter fun x => x.gid != gid))

/-- R371, R374 to R380. The model's choices: a settle conflict holds back the report of quiescing (log entry 82), the
pre-emption of a seal stands on every rank (log entry 45), a rollback keeps what a hand-over cleared and asks for its
seal again (log entry 70), and what waits past a cut for the egress buffer is kept with it (log entry 92). -/
def Obligations.RecoveryFollowsTheSealAndRollbackProtocol : Prop :=
  ∀ (dev n : Nat) (s : State),
    let goes (i : Instr) (after : State → Prop) : Prop := ∃ t, exec i s = .next t ∧ after t
    let same (i : Instr) : Prop := exec i s = .next s
    let z := s.seals
    let asks (i : Instr) : Prop := (s.pkg.firstEnable = true → z.phase = .none → goes i fun t => t.seals.phase = .quiesce
          ∧ t.seals.interval = s.pkg.intnum ∧ t.seals.start = s.now ∧ t.seals.reports = [] ∧ t.seals.selfReported = false
          ∧ t.seals.sent = z.sent ++ [(.request, s.pkg.intnum)] ∧ t.groups = s.groups ∧ t.dom = s.dom)
      ∧ (s.pkg.firstEnable = false ∨ z.phase = .quiesce ∨ z.phase = .checkpoint → same i)
      ∧ (s.pkg.firstEnable = true → z.phase = .agreement → exec i s = .next { s with seals := { z with wanted := true } })
    let hurt (c : Command) : Command := { c with hurt := c.hurt || c.meetsLoss s }
    let marked (d : Domain) : Domain :=
      { d with engines := d.engines.map fun (k, e) => (k, { e with running := e.running.map hurt }) }
    let rolled (t : State) : Prop := t.groups = [] ∧ t.globals = s.sealedDom.carried ∧ t.segCopies = []
      ∧ t.bankReqs = s.bankReqs.filter (fun r => r.cls == 11)
      ∧ t.pkg.intnum = s.pkg.maxInterval + 1 ∧ t.pkg.maxInterval = s.pkg.maxInterval + 1
      ∧ t.pkg.sealing = false ∧ t.pkg.rbcount = s.pkg.rbcount + 1
      ∧ ((∀ e ∈ s.sealedDom.sori, ∀ f ∈ e.2.fronds, f.hold = none) →
          t.dom = { marked s.sealedDom with carried := [] } ∧ t.cutDom = none ∧ t.tlb = []
          ∧ (s.handovers = [] → t.seals.phase = .none)
          ∧ t.arrivals = [] ∧ t.marks = [] ∧ t.starts = [] ∧ t.lateArrivals = [] ∧ t.offers = [] ∧ t.peerUndo = [])
      ∧ (s.handovers ≠ [] → s.pkg.firstEnable = true → t.seals.phase = .quiesce)
    let period := s.pkg.sealcfg.toNat % 2 ^ 16
    let due := s.pkg.firstCut = true ∧ period ≠ 0 ∧ z.lastCut + 1250 * period ≤ s.now
    let window := z.start + s.pkg.sealcfg.toNat / 2 ^ 16 % 2 ^ 8 * 125 ≤ s.now
    let limit := z.start + 1250 * (s.pkg.sealcfg.toNat / 2 ^ 32 % 2 ^ 16) ≤ s.now
    let orders (u t : State) (m : SealMessage) (go : Instr) (ok : Bool) : Prop :=
      t.seals.sent = u.seals.sent ++ (if ok then [(m, z.interval)] else [])
        ∧ t.agenda = (if ok then [.ev go] else []) ++ s.agenda
    let reported : State := { s with seals := { z with selfReported := true, sent := z.sent ++ [(.quiesced, z.interval)] } }
    let ready : State := { s with seals := { z with selfReported := true, sent := z.sent ++ [(.ready, z.interval)] } }
    let heard : State := { s with seals := { z with
      reports := if z.reports.contains dev then z.reports else dev :: z.reports } }
    let cuts (u : State) : Bool := coordinates u && allReported u && gapPassed u
    let commits (u : State) : Bool := coordinates u && allReported u
    let still := (∀ e ∈ s.dom.engines, ∀ c ∈ e.2.running, commandStopped s c = true)
      ∧ ∀ x ∈ s.globals, x.irrevocable s = true ∧ egressFull s (dieOf x.core) = true
    let mine := s.dies.flatMap fun d => d.undo.filter fun u => u.interval == n
    goes .rollback rolled
      ∧ (due → asks .sealPeriodExpiry) ∧ (¬due → same .sealPeriodExpiry)
      ∧ (inSealGroup s dev = true → asks (.sealRequestMessage dev)) ∧ (inSealGroup s dev = false → same (.sealRequestMessage dev))
      ∧ (z.phase = .quiesce → window → goes .quiesceWindowExpiry fun t => ∀ g ∈ s.groups, g.susp = none → g.lastCause ≠ 12 →
          ∃ h ∈ t.groups, h.gid = g.gid ∧ h.frozen = none ∧ ∃ p ∈ h.pending, p.code = 12)
      ∧ (z.phase ≠ .quiesce ∨ ¬window → same .quiesceWindowExpiry)
      ∧ (z.phase = .quiesce → s.groups = [] → goes .sealCheckpoint fun t => t.seals = { z with
          phase := .checkpoint, start := s.now, selfReported := false } ∧ t.groups = [] ∧ t.dom = s.dom)
      ∧ (z.phase ≠ .quiesce ∨ s.groups ≠ [] → same .sealCheckpoint)
      ∧ (z.phase = .checkpoint → z.selfReported = false → still → settleConflict s = false →
          goes .quiescedReport fun t => t.seals.selfReported = true ∧ orders reported t .cut .cutMessage (cuts reported))
      ∧ (z.phase ≠ .checkpoint ∨ z.selfReported = true ∨ ¬still ∨ settleConflict s = true → same .quiescedReport)
      ∧ (inSealGroup s dev = true → z.phase = .quiesce ∨ z.phase = .checkpoint → goes (.quiescedMessage dev) fun t =>
          dev ∈ t.seals.reports ∧ orders heard t .cut .cutMessage (cuts heard))
      ∧ (inSealGroup s dev = false → same (.quiescedMessage dev) ∧ same (.readyMessage dev))
      ∧ (z.phase = .checkpoint → z.selfReported = true → goes .cutMessage fun t => t.pkg.intnum = s.pkg.intnum + 1
          ∧ t.pkg.sealing = true ∧ t.pkg.firstCut = true ∧ t.dom = marked s.dom ∧ t.globals = s.globals
          ∧ t.cutDom = some { unasked (marked s.dom) with carried := s.globals.map fun x => { x with asked := false } }
          ∧ t.seals.phase = .agreement
          ∧ t.seals.lastCut = s.now ∧ t.seals.selfReported = false ∧ t.seals.reports = [])
      ∧ (z.phase ≠ .checkpoint ∨ z.selfReported = false → same .cutMessage)
      ∧ (z.phase = .agreement → z.selfReported = false → logEnabled s = true → goes .readyReport fun t =>
          t.seals.selfReported = true ∧ orders ready t .commit .commitMessage (commits ready))
      ∧ (z.phase ≠ .agreement ∨ z.selfReported = true ∨ logEnabled s = false → same .readyReport)
      ∧ (inSealGroup s dev = true → z.phase = .agreement → goes (.readyMessage dev) fun t =>
          dev ∈ t.seals.reports ∧ orders heard t .commit .commitMessage (commits heard))
      ∧ (z.phase = .agreement → z.selfReported = true → goes .commitMessage fun t => t.pkg.sealing = false
          ∧ t.pkg.replayGo = false ∧ t.sealedDom = s.cutDom.getD s.sealedDom ∧ t.cutDom = none
          ∧ t.seals.settling = z.settling ++ [z.interval])
      ∧ (z.phase ≠ .agreement ∨ z.selfReported = false → same .commitMessage)
      ∧ (z.phase = .none → same .abortMessage)
      ∧ (z.phase ≠ .none → goes .abortMessage fun t => rolled t ∧ t.pkg.alarm.getLsbD 1 = true)
      ∧ (z.phase = .checkpoint ∨ z.phase = .agreement →
          (limit → goes .sealTimeout fun t => rolled t ∧ t.pkg.alarm.getLsbD 1 = true) ∧ (¬limit → same .sealTimeout))
      ∧ (z.phase = .none ∨ z.phase = .quiesce → same .sealTimeout)
      ∧ (z.phase = .checkpoint → z.egressWanted = true → goes .egressGapExpiry fun t => orders s t .cut .cutMessage (cuts s))
      ∧ (z.phase ≠ .checkpoint ∨ z.egressWanted = false → same .egressGapExpiry)
      ∧ (n ∉ z.settling → same (.settleWalkComplete n))
      ∧ (n ∈ z.settling → goes (.settleWalkComplete n) fun t =>
          t = { s with tags := t.tags, dies := t.dies, seals := { z with settling := z.settling.erase n } }
            ∧ t.dies = s.dies.map (fun d => { d with undo := d.undo.filter fun u => u.interval != n })
            ∧ ∀ k, lookup 0 t.tags k
              = if lookup 0 s.tags k = tagCode n ∧
                 mine.any (fun u => u.line / 64 == k) = true then 0 else lookup 0 s.tags k)

/-- R85, R109, R388, R391 to R394, R407, R423 to R426, R430, R432, R434 to R436. The model's choices: how a slew and a
failed measurement act on device time (log entry 56), the numbers of reserves and spares in the event of a
substitution (log entry 57), a pass without a count of corrected rows as the errors that another read met, and the
segment copy from an unreachable device (log entry 69), what a hand-over does to bytes, logs and later handles (log
entry 70), the cause permission for what a peer may not do to the weight layer and the stores (log entry 87), and its
atomic under stores still to be seen (log entry 7). -/
def Obligations.SystemEventsActOnTheirPartOfTheModule : Prop :=
  ∀ (core layer bank dev link addr base n id aop operand second : Nat) (corrected : Option Nat) (bad : List Nat)
      (extent : Extent) (fails granted w64 : Bool)
      (raw offset : Int) (level : Fin 4) (group : Fin 8) (l : Fin 256) (bytes : List Byte) (s : State),
    let goes (i : Instr) (after : State → Prop) : Prop := ∃ t, exec i s = .next t ∧ after t
    let same (i : Instr) : Prop := exec i s = .next s
    let c := coreOf s core
    let oneCore (t : State) (x : Core) : Prop := t = { s with cores := t.cores } ∧ coreOf t core = x
      ∧ ∀ j, j ≠ core → coreOf t j = coreOf s j
    let inCore (t : State) (x : Core) : Prop := coreOf t core = x ∧ ∀ j, j ≠ core → coreOf t j = coreOf s j
    let inBank := 1 ≤ layer ∧ layer ≤ 4 ∧ bank < 32
    let errs := bad ≠ [] ∨ 16 ≤ corrected.getD 0
    let pass := Instr.scrubPass core layer bank corrected bad
    let used := (c.subst.filter fun x => x.1 == layer).length
    let spare := used < (reserves c layer).count 32
    let pois (t : State) : Prop := ∀ g, g ∈ t.poison ↔ g ∈ s.poison ∨ ∃ a ∈ bad, g = granule (homeOf s a)
    let asking (owner : Nat) : BankRequest := ⟨core, layer, bank, 11, owner, 0⟩
    let rowsOfBank := if layer = 1 then 1024 else if layer = 2 then 512 else if layer = 3 then 2048 else 4096
    let begun (u : State) (rows : Nat) (copy : Bool) (m : Nat) (bad : List Nat) : State := { u with
      nextId := u.nextId + 1, scrubs := u.scrubs ++ [⟨core, layer, bank, u.nextId, rows - 1, copy, m, bad⟩],
      bankReqs := u.bankReqs ++ [asking u.nextId] }
    let copying := ∃ y ∈ s.scrubs, y.copy = true ∧ y.core = core ∧ y.layer = layer ∧ y.bank = bank
    let met (u t : State) : Prop := pois t
      ∧ (¬(inBank ∧ errs) ∨ (layer, bank) ∈ c.subst → t = { u with poison := t.poison })
      ∧ (inBank → errs → (layer, bank) ∉ c.subst →
          (spare → inCore t { c with subst := c.subst ++ [(layer, bank)] }
              ∧ { t with cores := s.cores } = begun { u with poison := t.poison, cores := s.cores } rowsOfBank true 0 [])
            ∧ (¬spare → (coreOf t core).pendLoss.getLsbD (layer - 1) = true ∧ t.pkg.alarm.getLsbD 1 = true))
    let goesOn : Act := .unit .scrubGrant id 0 0
    let spares := sparesUsed c layer group.val
    let x := c.sensor
    let heat (y : Int) : Bool := if 840 ≤ y then true else if y ≤ 800 then false else x.hot
    let rate := c.charged - x.mark
    let sound : Sensor := ⟨false, false, 0, raw, raw, 1, c.charged, [], heat raw⟩
    let rates := (rate :: x.rates).take 4095
    let at' := peerLocal (8 * 2 ^ 48 + addr % 2 ^ 43)
    let okPeer (k : Nat) : Prop := addr / 2 ^ 40 % 2 = 0 ∧ addr / 2 ^ 41 % 4 ≠ 3 ∧ extentMapped s at' k = true
    let k := if w64 then 8 else 4
    let seen := outside s noCore
    let old := readNat seen at' k
    let roomFor (n : Nat) : Prop := Roomy s (n / 64 + 2)
    let hides (a : Nat) : Bool := (veiledFrom s noCore ++ hiddenFrom s noCore).any fun v => v.pa == a
    let refuses (cause : Nat) : Outcome := .next { s with peerReply := ⟨cause, []⟩ }
    let put (t : State) (pa : Nat) (bs : List Byte) : Prop :=
      (∀ j < bs.length, readByte t (pa + j) = bs.getD j 0) ∧ SameMemoryBut s t pa bs.length ∧ KeepsAllButMemory s t
    let quietEngines := ∀ e ∈ s.dom.engines, ∀ d ∈ e.2.running, ∀ h ∈ d.handles, namesDevice s h.2.base dev = false
    let onDevice (h : Handle) : Prop := namesDevice s h.base dev = true
    let quiet := quietEngines ∧ (∀ y ∈ s.globals, globalReaches s dev y = false) ∧ (∀ y ∈ s.dom.loads, ¬onDevice y.entry)
      ∧ (∀ y ∈ s.segCopies, ¬onDevice (segmentHandle s y)) ∧ ∀ d ∈ s.dies, ∀ e ∈ d.egress, heldReaches s dev e = false
    let due := ∀ t0, s.ptmLast = some t0 → t0 + 1250000 * max 1 (s.pkg.ptmcfg.toNat % 2 ^ 16) ≤ s.now
    let named (a : Nat) : Prop := match extent with
      | .linear len => base ≤ a ∧ a < base + len
      | .tower span cols => ∃ k < cols, base + k * 2 ^ 24 ≤ a ∧ a < base + k * 2 ^ 24 + span
    let on := scrubs s (decide (1 ≤ layer ∧ layer ≤ 4))
    (corrected = none → goes pass (met s))
      ∧ (∀ m, corrected = some m → (on = false → same pass) ∧ (on = true → ¬inBank → goes pass (met s))
          ∧ (on = true → inBank → exec pass s = .next (begun s (rowsOfBank + m) false m bad))
          ∧ (∀ rows copy, s.scrubs.find? (fun y => y.id == id) = some ⟨core, layer, bank, id, rows, copy, m, bad⟩ →
              let rest := s.scrubs.erase ⟨core, layer, bank, id, rows, copy, m, bad⟩
              let waits := ∃ r ∈ s.bankReqs, r.cls = 11 ∧ r.owner = id
              (waits → runAct goesOn s = .next s)
                ∧ (¬waits → rows ≠ 0 → runAct goesOn s = .next { s with
                    scrubs := ⟨core, layer, bank, id, rows - 1, copy, m, bad⟩ :: rest, bankReqs := s.bankReqs ++ [asking id] })
                ∧ (¬waits → rows = 0 → copy = true → runAct goesOn s = .next { s with scrubs := rest })
                ∧ (¬waits → rows = 0 → copy = false → ∃ t, runAct goesOn s = .next t ∧ met { s with scrubs := rest } t)))
      ∧ ((layer, bank) ∈ c.subst → ¬copying →
          goes (.bankSubstitutionComplete core layer bank none) fun t => oneCore t { c with
            subst := c.subst.erase (layer, bank), bankRep := c.bankRep.set (layer - 1) (takeReserve bank (reserves c layer)) })
      ∧ ((layer, bank) ∉ c.subst ∨ copying → same (.bankSubstitutionComplete core layer bank none))
      ∧ (1 ≤ layer → layer ≤ 4 → ∀ free, (List.range 8).find? (fun k => !spares.any fun y => y.1 == k) = some free →
          goes (.bankSubstitutionComplete core layer bank (some (group, l))) fun t => oneCore t { c with
            laneRep := c.laneRep.set (8 * (layer - 1) + group.val) (spares ++ [(free, l.val)]) })
      ∧ (c.diverged = true → groupOn s core = none → goes (.quarantineTest core fails) fun t => oneCore t { c with
          diverged := false, cstate := if fails = true ∧ c.cstate = 0 then 1 else c.cstate })
      ∧ (c.diverged = false ∨ groupOn s core ≠ none → same (.quarantineTest core fails))
      ∧ (s.pkg.ptmcfg.getLsbD 63 = false → same (.ptmMeasurement granted offset))
      ∧ (¬due → same (.ptmMeasurement granted offset))
      ∧ (s.pkg.ptmcfg.getLsbD 63 = true → due → goes (.ptmMeasurement granted offset) fun t => t.ptmLast = some s.now
          ∧ t.synced = (s.synced || granted)
          ∧ t = { s with
              pkg := { s.pkg with ptmcfg := t.pkg.ptmcfg }, slew := t.slew, slewFast := t.slewFast, timeAdj := t.timeAdj,
              synced := t.synced, ptmLast := t.ptmLast }
          ∧ (granted = false → t.slew = 0 ∧ t.timeAdj = s.timeAdj ∧ t.pkg.ptmcfg.getLsbD 62 = false)
            ∧ (granted = true → 1000000 < offset → t.timeAdj = s.timeAdj + offset ∧ t.slew = 0)
            ∧ (granted = true → offset ≤ 1000000 → t.timeAdj = s.timeAdj ∧ t.slew = offset
                ∧ (t.slewFast = true ↔ offset < -1000000))
            ∧ (granted = true → (t.pkg.ptmcfg.getLsbD 62 = true ↔ -1000 ≤ offset ∧ offset ≤ 1000)))
      ∧ (x.failed = false → -320 ≤ raw → raw < 1000 → raw ≠ x.raw → goes (.thermalSample (core / 2048) (core % 2048) raw) fun t =>
           oneCore t { c with sensor := sound })
      ∧ (x.failed = false → raw < -320 ∨ 1200 < raw → goes (.thermalSample (core / 2048) (core % 2048) raw) fun t =>
          (coreOf t core).sensor.failed = true ∧ (coreOf t core).sensor.subst = true ∧ (coreOf t core).sensor.reason = 1)
      ∧ (x.failed = false → 1000 ≤ raw → raw ≤ 1200 → raw ≠ x.raw → goes (.thermalSample (core / 2048) (core % 2048) raw) fun t =>
          t.pkg.held = true ∧ t.pkg.alarm.getLsbD 3 = true)
      ∧ (x.failed = false → raw = x.raw → -320 ≤ raw → raw ≤ 1200 → goes (.thermalSample (core / 2048) (core % 2048) raw) fun t =>
          let y := (coreOf t core).sensor
          y.same = x.same + 1 ∧ y.mark = c.charged ∧ y.rates = rates
            ∧ (y.failed = true ↔ 4095 ≤ x.same ∧ ∃ p ∈ rates, ∃ q ∈ rates, 11 * p < 10 * q) ∧ (y.failed = true → y.reason = 2 ∧ y.subst = true))
      ∧ (dev < s.dies.length → goes (.clockThrottle dev level) fun t => t = { s with dies := t.dies }
          ∧ die t dev = { die s dev with throttle := level.val } ∧ ∀ d, d ≠ dev → die t d = die s d)
      ∧ same (.flitRetry link)
      ∧ goes (.linkDown link) (fun t => t = { s with pkg := { s.pkg with links := t.pkg.links } }
          ∧ ∀ i, t.pkg.links.getLsbD i = (s.pkg.links.getLsbD i && i != link))
      ∧ (quiet → same (.peerUnreachable dev))
      ∧ (¬quiet → inSealGroup s dev = true → goes (.peerUnreachable dev) fun t =>
          t.pkg.rbcount = s.pkg.rbcount + 1 ∧ t.groups = [] ∧ t.globals = s.sealedDom.carried ∧ (.rollback, s.seals.interval) ∈ t.seals.sent)
      ∧ (¬quiet → inSealGroup s dev = false → s.gather = false → quietEngines → goes (.peerUnreachable dev) fun t =>
          let faulted (c b : Nat) : Prop := (barrierOf t c b).fault = true
          t.groups = s.groups ∧ t.globals = s.globals.filter (fun y => !globalReaches s dev y)
            ∧ (∀ y, y ∈ t.dom.loads ↔ y ∈ s.dom.loads ∧ ¬onDevice y.entry)
            ∧ (∀ y ∈ s.globals, globalReaches s dev y = true → faulted y.barCluster y.bar)
            ∧ (∀ y ∈ s.dom.loads, onDevice y.entry → faulted y.barCluster y.bar)
            ∧ (∀ d ∈ s.dies, ∀ e ∈ d.egress, heldReaches s dev e = true → ∀ b, e.report = some b → faulted b.1 b.2)
            ∧ (∀ d ∈ t.dies, ∀ e ∈ d.egress, heldReaches s dev e = false)
            ∧ ∀ y ∈ s.segCopies, onDevice (segmentHandle s y) → ∀ o, (coreOf t y.core).overlay[y.slot]? = some o → o.state = 3)
      ∧ (s.pkg.held = false → roomFor bytes.length → addr + bytes.length ≤ 768 * 2 ^ 30 →
          goes (.frameReceive addr bytes) fun t => put t addr bytes)
      ∧ (s.pkg.held = true ∨ 768 * 2 ^ 30 < addr + bytes.length → same (.frameReceive addr bytes))
      ∧ goes .glitchSensor (fun t => t = { s with pkg := t.pkg } ∧ t.pkg.alarm.getLsbD 2 = true
          ∧ t.pkg.seclog = Config.sourceCode 1)
      ∧ goes (.allocationHandover base extent) (fun t => t.groups = s.groups
          ∧ t.handovers = s.handovers ++ [⟨base, extent, s.pkg.intnum⟩]
          ∧ (∀ a, a / 2 ^ 48 < 2 → OutsideRing s a → (named a → readByte t a = 0) ∧ (¬named a → readByte t a = readByte s a))
          ∧ (s.pkg.firstEnable = true → s.seals.phase = .none → t.seals.phase = .quiesce))
      ∧ (s.pkg.held = true → same (.peerAccessArrival dev (.read addr n)))
      ∧ (s.pkg.held = false →
          let reads : Instr := .peerAccessArrival dev (.read addr n)
          let writes : Instr := .peerAccessArrival dev (.write addr bytes)
          let adds : Instr := .peerAccessArrival dev (.atomic addr aop w64 operand second)
          let result := leBytes k (atomicResult aop (8 * k) old operand second)
          (okPeer n → inWeight at' = false → goes reads fun t =>
              t = { s with peerReply := ⟨0, readBytes seen at' n⟩, dies := t.dies } ∧ (crossingShut s at' = false → t.dies = s.dies))
            ∧ (okPeer n → inWeight at' = true → exec reads s = refuses 6) ∧ (¬okPeer n → exec reads s = refuses 5)
            ∧ (okPeer bytes.length → inStores at' = false → roomFor bytes.length → twinAlso s at' = none →
                goes writes fun t => t.peerReply = ⟨0, []⟩ ∧ put t at' bytes)
            ∧ (okPeer bytes.length → inStores at' = true → exec writes s = refuses 6)
            ∧ (¬okPeer bytes.length → exec writes s = refuses 5)
            ∧ (okPeer k → inWeight at' = false → inStores at' = false → roomFor k → twinAlso s at' = none →
                (∀ j < k, OutsideRing s (at' + j)) → goes adds fun t => t.peerReply = ⟨0, leBytes k old⟩
                  ∧ (∀ j < k, readByte t (at' + j) = if hides (at' + j) = true then readByte s (at' + j) else result.getD j 0)
                  ∧ SameMemoryBut s t at' k ∧ KeepsAllButMemory s t)
            ∧ (okPeer k → inWeight at' = true ∨ inStores at' = true → exec adds s = refuses 6)
            ∧ (¬okPeer k → exec adds s = refuses 5))

/-- R34 to R36, R71, R85 to R90, R94, R96, R118, R124, R234, R235, R240, R246, R254, R257, R359, R362, R426, R436. The
model's choices: a releasing command counts its bytes once, at its end (log entry 39); what fills a TLB, how many
entries it holds and which leaves first (log entry 58); which banks an access asks and in which class (log entry 64);
frames of a lichen cycle as egress entries (log entry 68); what holds a lichen bundle and an access at a scope above 0
(log entry 7). Where a firing barrier or the trace ring could write the same bytes, the premises rule it out. -/
def Obligations.WhatIsInFlightArrivesAndEnginesRunTheirCommands : Prop :=
  ∀ (core layer bank gid cluster program page id e : Nat) (words : List Word) (port : Fin 4) (frame : List Byte) (s : State),
    let goes (i : Instr) (after : State → Prop) : Prop := ∃ t, exec i s = .next t ∧ after t
    let same (i : Instr) : Prop := exec i s = .next s
    let here (r : BankRequest) : Bool := r.core == core && r.layer == layer && r.bank == bank && r.cls != 0
    let rs := standing (s.bankReqs.filter here)
    let roomFor (n : Nat) : Prop := Roomy s (2 * (n / 64 + 2))
    let lone (core : Nat) : Prop := ∀ g, groupOn s core = some g → g.twin = false
    let ripe (g : Group) (t : Tile) : Bool := decide (t.due ≤ g.cycleOf t.target) && !requestsStand s 5 t.id
    let inb := (coreOf s core).inbound
    let entered (m : InFlight) : List (List (List Byte)) := inb.set m.queue (inb.getD m.queue [] ++ [m.bytes])
    let va := page % 2 ^ 36 * 4096
    let g' := engineOf s e
    let lichen := (coreOf s core).lichen
    let orders (b : Bundle) : Prop := b.header.scope.val ≠ 0 ∧ (taskOf s core).remotes ≠ []
    let passes (b : Bundle) : Prop := decodeBundle (words.map BitVec.toNat) = .ok b ∧ b.ops = [] ∧ b.header.pop = 0
      ∧ b.header.segMark = false ∧ b.header.loopEnd = false ∧ groupOn s core = none ∧ lichen.asked = false
      ∧ ∀ p ∈ lichen.pend, p.due ≤ lichen.cycle → p.poisoned = false
    ((taskOf s core).remotes = [] → same (.remoteLoadDelivery core))
      ∧ (∀ r rest, (taskOf s core).remotes = r :: rest →
          let mine := 8192 * r.order + core
          let gone (t : Task) : Task := { t with remotes := t.remotes.filter fun x => x.order != r.order }
          let onTask (t : State) (q : Task) : Prop := coreOf t core = { coreOf s core with task := q }
            ∧ ∀ j, j ≠ core → coreOf t j = coreOf s j
          let free := fenced s core r.issued = false ∧ r.asked = true ∧ requestsStand s 7 mine = false ∧ loadHeld s core r = false
          (fenced s core r.issued = true ∨ shadowed s core r = true
              ∨ (r.asked = true ∧ (requestsStand s 7 mine = true ∨ loadHeld s core r = true)) →
              same (.remoteLoadDelivery core))
            ∧ (fenced s core r.issued = false → shadowed s core r = false → r.asked = false → goes (.remoteLoadDelivery core) fun t =>
                t = { s with cores := t.cores, bankReqs := s.bankReqs ++ r.op.rows.map fun a =>
                    ⟨r.target, 2, a / 2 ^ 13 % 32, 7, mine, 0⟩ }
                  ∧ onTask t { taskOf s core with remotes := (r :: rest).map fun x =>
                      if x.order = r.order then { x with asked := true } else x })
            ∧ (free → lone core → ∀ a sw fl d, r.op = .load a sw fl d →
                let u := outside s core
                let data := leWord (readBytes u (nearPA r.target a) 4)
                let result : Pending := match r.bound, sw with
                  | some b, _ => ⟨r.due, 3, r.order, b.latch, b.dsts, 0, b.bad⟩
                  | none, none => ⟨r.due, 3, r.order, if fl = .m then some (.scalar .m data) else none, regDest fl d data, 0,
                      poisonedAt u (nearPA r.target a) 4⟩
                  | none, some z => ⟨r.due, 3, r.order, none,
                      [.lanes (if fl = .v then .v else .w) d (readVector u r.target a z) (BitVec.allOnes 128)], 0,
                      vectorPoisoned u r.target a z⟩
                goes (.remoteLoadDelivery core) fun t => t = { s with cores := t.cores }
                  ∧ onTask t { gone (taskOf s core) with pend := (taskOf s core).pend ++ [result] })
            ∧ (free → lone core → r.op.isLoad = false → r.early = true →
                exec (.remoteLoadDelivery core) s = .next (modTask s core gone))
            ∧ (free → lone core → r.early = false → ∀ cs w, r.op = .store cs w → (∀ c ∈ cs, c.2.length ≤ 16) → Roomy s (4 * cs.length) →
                r.target < 8192 → r.target % 2048 < 1152 → (∀ c ∈ cs, c.1 + c.2.length ≤ 2 ^ 18) →
                goes (.remoteLoadDelivery core) fun t =>
                  KeepsAllButMemory (modTask s core gone) t ∧ t.bankReqs = s.bankReqs
                    ∧ (∀ a, (∀ c ∈ cs, Outside s (nearPA r.target c.1) c.2.length a) → OutsideRing s a →
                        readByte t a = readByte s a)
                    ∧ (cs.Pairwise (fun c d => c.1 + c.2.length ≤ d.1 ∨ d.1 + d.2.length ≤ c.1) → ∀ c ∈ cs, ∀ j < c.2.length,
                        OutsideRing s (nearPA r.target c.1 + j) → readByte t (nearPA r.target c.1 + j) = c.2.getD j 0)))
      ∧ goes (.bankArbitration core layer bank) (fun t => ∃ grant : Option BankRequest,
          let lost := match grant with
            | some r => rs.erase r
            | none => rs
          t.bankReqs = ageRequests lost (match grant with
            | some r => s.bankReqs.erase r
            | none => s.bankReqs)
            ∧ (grant = none ↔ rs = [] ∨ (layer = 2 ∧ (core, bank) ∈ s.bankUsed))
            ∧ (∀ r, grant = some r → r ∈ rs ∧ (rs.find? (fun q => decide (16 ≤ q.waited)) = some r
              ∨ ∀ q ∈ rs, q.waited < 16 ∧ classRank r.cls ≤ classRank q.cls))
            ∧ KeepsTasks s t ∧ t.groups = s.groups ∧ t.dom = s.dom ∧ SameMemory s t ∧ (layer ≠ 2 → t.cores = s.cores)
            ∧ (layer = 2 → bank < 32 → ∀ k, lookup 0 (coreOf s core).loss (32 * k + bank) < 2 ^ 32 →
                lookup 0 (coreOf t core).loss (32 * k + bank)
                  = min (lookup 0 (coreOf s core).loss (32 * k + bank) + (lost.filter fun r => r.cls == k).length) (2 ^ 32 - 1)))
      ∧ (∀ b, passes b → orders b → same (.lichenCycle core ⟨words, []⟩))
      ∧ (∀ b, passes b → ¬orders b → goes (.lichenCycle core ⟨words, []⟩) fun t =>
            (coreOf t core).lichen.cycle = lichen.cycle + 1 ∧ (coreOf t core).lichen.inFault = false
              ∧ taskOf t core = taskOf s core ∧ t.groups = s.groups ∧ t.dom = s.dom ∧ SameMemory s t)
      ∧ (∀ b, passes b → ¬orders b → frame ≠ [] → frame.length ≤ 64 → core / 2048 < s.dies.length →
          ((die s (core / 2048)).egress.length < 8192 → goes (.lichenCycle core ⟨words, [(port, frame)]⟩) fun t =>
              (coreOf t core).lichen.cycle = lichen.cycle + 1 ∧ (die t (core / 2048)).egress
                = (die s (core / 2048)).egress ++ [⟨core, s.pkg.intnum, none, none, .send port.val frame⟩])
            ∧ (8192 ≤ (die s (core / 2048)).egress.length → same (.lichenCycle core ⟨words, [(port, frame)]⟩)))
      ∧ (∀ r, decodeBundle (words.map BitVec.toNat) = .error r → groupOn s core = none →
          goes (.lichenCycle core ⟨words, []⟩) fun t => (coreOf t core).lichen.inFault = true ∧ taskOf t core = taskOf s core
            ∧ (Config.faultCleared core s.now = false → t.pkg.alarm.getLsbD 2 = true))
      ∧ (∀ g, groupOn s core = some g → lichenMayIssue s g core = false → same (.lichenCycle core ⟨words, []⟩))
      ∧ (gid ≠ 0 → groupOf s gid = none → same (.rotDelivery gid))
      ∧ (∀ g x, gid ≠ 0 → groupOf s gid = some g → g.tiles.filter (ripe g) = [x] → roomFor x.bytes.length →
          x.target < 8192 → x.target % 2048 < 1152 → x.addr + x.bytes.length ≤ 2 ^ 18 →
          (x.bar = none ∨ s.gather = true) → goes (.rotDelivery gid) fun t =>
            (∀ j < x.bytes.length, readByte t (nearPA x.target x.addr + j) = x.bytes.getD j 0)
              ∧ SameMemoryBut s t (nearPA x.target x.addr) x.bytes.length ∧ KeepsContexts s t
              ∧ t.groups = s.groups.map (fun h => if h.gid = gid then { h with tiles := h.tiles.filter fun t => !ripe g t } else h)
              ∧ t.arrivals = s.arrivals ++ (x.bar.map fun b => (barKey g.cluster b, x.bytes.length)).toList)
      ∧ ((∀ m ∈ s.inFlight, m.target ≠ core) → same (.messageArrival core))
      ∧ (∀ m, m ∈ s.inFlight → m.target = core → lone core → m.queue < (coreOf s core).inbound.length →
          (∀ x ∈ s.inFlight, x.target = core → x = m ∨ m.sent < x.sent
            ∨ (m.sent = x.sent ∧ m.source % 2048 < x.source % 2048)) →
          let u : State := setCore { s with inFlight := s.inFlight.erase m } core { coreOf s core with inbound := entered m }
          (m.bad = false → exec (.messageArrival core) s = .next u)
            ∧ (m.bad = true → groupOn s core = none → exec (.messageArrival core) s = .next (requestRollback u))
            ∧ (m.bad = true → ∀ g, groupOn s core = some g → exec (.messageArrival core) s = .next { u with
                groups := s.groups.map fun h => if h.gid = g.gid then
                  { h with pending := ⟨9, 0, [h.rankOf core], none⟩ :: h.pending } else h }))
      ∧ ((tlbHit s cluster program va).isSome = true ∨ walk s program va = none → same (.pageTableWalk cluster program page))
      ∧ (∀ leaf size, tlbHit s cluster program va = none → walk s program va = some (leaf, size) →
          (s.tlb.filter fun x => x.cluster == cluster).length < 2048 → goes (.pageTableWalk cluster program page) fun t =>
            t = { s with tlb := s.tlb ++ [⟨cluster, program, va / 4096 / size * size, BitVec.ofNat 64 leaf, size⟩] })
      ∧ ((∀ x ∈ s.globals, x.id ≠ id) → same (.globalAccessPerform id))
      ∧ (∀ x, s.globals.find? (fun x => x.id == id) = some x →
          let last := (x.va + x.op.size - 1) % 2 ^ 48
          let lands := x.op.isLanding
          let u := if lands then s else fillTlb (fillTlb s (clusterOf x.core) x.space x.va) (clusterOf x.core) x.space last
          let without (t : State) : Prop := t.globals = s.globals.filter fun y => y.id != id
          let waits := lands = false ∧ (fenced s x.core x.issued = true
            ∨ ∃ r ∈ (taskOf s x.core).remotes, (x.scope ≠ 0 ∨ r.acq = true) ∧ r.issued ≤ x.issued)
          let owned (r : BankRequest) : Prop := r.cls ∈ [3, 4, 6, 8, 9] ∧ r.owner = id
          let landed (near n : Nat) : List BankRequest :=
            towerRequests s 3 id (writtenPlaces s (tabulate n fun i => nearPA x.core (near + i)))
          let asks (rows : List BankRequest) : Prop := exec (.globalAccessPerform id) s = .next { u with
            bankReqs := s.bankReqs ++ rows, globals := s.globals.map fun y => if y.id = id then { y with asked := true } else y }
          let given (near : Nat) (bs : List Byte) : Prop := x.core < 8192 → x.core % 2048 < 1152 →
            near + bs.length ≤ 2 ^ 18 → (coreOf s x.core).lost = 0 → (s.gather = true ∨ NobodyWaits s) → lone x.core →
            roomFor bs.length → (∀ j < bs.length, OutsideRing s (nearPA x.core near + j)) →
            goes (.globalAccessPerform id) fun t => without t ∧ Arrived s t x.barCluster x.bar bs.length
              ∧ ∀ j < bs.length, readByte t (nearPA x.core near + j) = bs.getD j 0
          (waits → same (.globalAccessPerform id))
            ∧ (∀ c, ¬waits → globalPlaces u x = .error c → goes (.globalAccessPerform id) fun t =>
              without t ∧ Marked s t x.barCluster x.bar c)
            ∧ (∀ near n pas, ¬waits → x.op = .load near n →
              translateAll u (clusterOf x.core) x.space x.va n x.op.need = .ok pas →
              let rows := towerRequests s 4 id pas ++ landed near n
              let holds := pas.any (crossingShut s) = true ∨ ∃ r ∈ s.bankReqs, owned r
              (pas.all (peerAnswers s) = false → goes (.globalAccessPerform id) fun t => without t ∧ Marked s t x.barCluster x.bar 5)
              ∧ (pas.all (peerAnswers s) = true → holds → exec (.globalAccessPerform id) s = .next u)
              ∧ (pas.all (peerAnswers s) = true → ¬holds → x.asked = false → rows ≠ [] → asks rows)
              ∧ (pas.all (peerAnswers s) = true → ¬holds → x.asked = true → (∀ a ∈ pas, a / 2 ^ 48 < 3) →
                given near (pas.map (readByte (outside s x.core)))))
            ∧ (∀ near bs, x.op = .landing near bs → ((∃ r ∈ s.bankReqs, owned r) → same (.globalAccessPerform id))
              ∧ ((∀ r ∈ s.bankReqs, ¬owned r) → (x.asked = false → landed near bs.length ≠ [] → asks (landed near bs.length))
                ∧ (x.asked = true → given near bs))))
      ∧ (g'.queue = [] ∨ s.seals.phase = .checkpoint ∨ runningSlots e ≤ g'.running.length → same (.engineCommandStart e))
      ∧ (∀ c rest, g'.queue = c :: rest → s.seals.phase ≠ .checkpoint → g'.running.length < runningSlots e →
          let held := c.packet.isNone && fenced s c.issuer c.issued
          let u := modEngine s e fun g => { g with queue := rest, running := g.running ++ [c] }
          (held = true → same (.engineCommandStart e))
            ∧ (held = false → commandHolds u e c = true → exec (.engineCommandStart e) s = .next u)
            ∧ (held = false → commandHolds u e c = false → g'.running.all (fun d => d.id != c.id) = true → c.asked = false →
                let v := viewOf u c
                let rows := towerRequests u (readClass e) c.id ((judgeSpans v e c).flatMap spanRows)
                let hides := readsHidden u c ((judgeSpans v e c).flatMap spanRows)
                let started (d : Command) (more : State → Prop) : Prop := goes (.engineCommandStart e) fun t => more t
                  ∧ engineOf t e = { queue := rest, running := g'.running ++ [d] } ∧ ∀ f, f ≠ e → engineOf t f = engineOf s f
                let refused (r : Nat) : Prop := c.written = 0 → goes (.engineCommandStart e) fun t =>
                  engineOf t e = { queue := rest, running := g'.running } ∧ (∀ f, f ≠ e → engineOf t f = engineOf s f)
                    ∧ (c.nb = false → Marked s t c.barCluster c.bar (reasonCause r))
                    ∧ ∀ k, c.core = some k → lone k → (taskOf s k).slotCmds.getD c.slot 0 = c.id →
                        c.slot < (taskOf s k).slots.length → (taskOf t k).slots.getD c.slot (0, 0)
                          = (BitVec.ofNat 32 ((if c.hurt = true ∧ r = 8 then 5 else 4) * 2 ^ 28
                            + r * 2 ^ 16 + c.flags % 32 * 2 ^ 8 + c.op), 0)
                (∀ r, commandBegins v e c = .error r → refused r)
                  ∧ (commandBegins v e c = .ok () →
                    (hides = true → exec (.engineCommandStart e) s = .next u)
                      ∧ (hides = false → rows ≠ [] → started { c with asked := true } fun t => t = { s with
                        dom := { s.dom with engines := t.dom.engines }, bankReqs := s.bankReqs ++ rows })
                      ∧ (hides = false → rows = [] → (judgeSpans v e c).all (spanAnswers u) = true →
                        (∀ c', judgeCommand v e c = .ok c' → started c' fun t =>
                            t = { s with dom := { s.dom with engines := t.dom.engines } })
                          ∧ ∀ r, judgeCommand v e c = .error r → refused r))))
      ∧ (∀ c, g'.running.find? (fun c => c.id == id) = some c →
          (c.finished = false ∨ commandHolds s e c = true → same (.engineCommandCompletion e id))
            ∧ (c.finished = true → commandHolds s e c = false → c.copies = true → c.job = none →
              goes (.engineCommandCompletion e id) fun t =>
                engineOf t e = { queue := g'.queue, running := g'.running.filter fun d => d.id != id }
                  ∧ (∀ f, f ≠ e → engineOf t f = engineOf s f)
                  ∧ (c.nb = true ∨ c.rel = false ∨ c.count * c.es = 0 →
                      t.dom.barriers = s.dom.barriers ∧ t.arrivals = s.arrivals)
                  ∧ (c.nb = false → c.rel = true → c.count * c.es ≠ 0 → Arrived s t c.barCluster c.bar (c.count * c.es))
                  ∧ ∀ k, c.core = some k → lone k →
                      (taskOf s k).slotCmds.getD c.slot 0 = c.id → c.slot < (taskOf s k).slots.length →
                      (taskOf t k).slots.getD c.slot (0, 0)
                        = (BitVec.ofNat 32 (2 * 2 ^ 28 + c.flags % 32 * 2 ^ 8 + c.op), 0)))
end

