-- ==== Sys2Proof/Laws/Tables.lean ====
section
/-! SUPPORT. Laws of the sparse tables and of memory: a written entry is the one read, every other entry reads as before, and
every write keeps the canonical form. -/

namespace Sys2Proof.Machine

open Sys2Proof

section Tables

variable {α : Type} {d v : α} {l : List (Nat × α)} {n m : Nat}

theorem lookup_erase_self : lookup d (erase l n) n = d := by
  induction l with
  | nil => rfl
  | cons e l ih =>
    obtain ⟨k, w⟩ := e
    by_cases h : k = n
    · subst h; simpa [erase] using ih
    · simpa [erase, h, lookup] using ih

theorem lookup_erase_of_ne (h : m ≠ n) : lookup d (erase l n) m = lookup d l m := by
  induction l with
  | nil => rfl
  | cons e l ih =>
    obtain ⟨k, w⟩ := e
    by_cases hk : k = n
    · subst hk
      simpa [erase, lookup, Ne.symm h] using ih
    · by_cases hm : k = m
      · subst hm; simp [erase, h, lookup]
      · simpa [erase, hk, lookup, hm] using ih

theorem lookup_place_self (h : ∀ e ∈ l, e.1 ≠ n) : lookup d (place n v l) n = v := by
  induction l with
  | nil => simp [place, lookup]
  | cons e l ih =>
    obtain ⟨k, w⟩ := e
    have hk : k ≠ n := h (k, w) (by simp)
    unfold place
    split
    · simp [lookup]
    · simp only [lookup, hk, if_false]
      exact ih fun e he => h e (by simp [he])

theorem lookup_place_of_ne (h : m ≠ n) : lookup d (place n v l) m = lookup d l m := by
  induction l with
  | nil => simp [place, lookup, Ne.symm h]
  | cons e l ih =>
    obtain ⟨k, w⟩ := e
    unfold place
    split
    · simp [lookup, Ne.symm h]
    · by_cases hk : k = m <;> simp [lookup, hk, ih]

theorem erase_absent : ∀ e ∈ erase l n, e.1 ≠ n := by
  intro e he
  simpa [erase] using (List.mem_filter.1 he).2

/-- The entry written is the one read. -/
@[simp] theorem lookup_assign_self : lookup d (assign l n v) n = v := lookup_place_self erase_absent

/-- Every other entry reads as before. -/
theorem lookup_assign_of_ne (h : m ≠ n) : lookup d (assign l n v) m = lookup d l m := by
  rw [assign, lookup_place_of_ne h, lookup_erase_of_ne h]

variable [DecidableEq α]

/-- The entry written is the one read, also where the default is written. -/
@[simp] theorem lookup_update_self : lookup d (update d l n v) n = v := by
  unfold update
  split
  · next h => rw [lookup_erase_self, h]
  · exact lookup_place_self erase_absent

/-- Every other entry reads as before. -/
theorem lookup_update_of_ne (h : m ≠ n) : lookup d (update d l n v) m = lookup d l m := by
  unfold update
  split
  · exact lookup_erase_of_ne h
  · rw [lookup_place_of_ne h, lookup_erase_of_ne h]

theorem mem_place {e : Nat × α} : e ∈ place n v l ↔ e = (n, v) ∨ e ∈ l := by
  induction l with
  | nil => simp [place]
  | cons f l ih =>
    obtain ⟨k, w⟩ := f
    unfold place
    split
    · simp
    · simp only [List.mem_cons, ih]
      tauto

theorem pairwise_place (hl : l.Pairwise fun e f => e.1 < f.1) (hn : ∀ e ∈ l, e.1 ≠ n) :
    (place n v l).Pairwise fun e f => e.1 < f.1 := by
  induction l with
  | nil => simp [place]
  | cons e l ih =>
    obtain ⟨k, w⟩ := e
    obtain ⟨h1, h2⟩ := List.pairwise_cons.1 hl
    have hk : k ≠ n := hn (k, w) (by simp)
    unfold place
    split
    · next h =>
      refine List.pairwise_cons.2 ⟨fun f hf => ?_, hl⟩
      rcases List.mem_cons.1 hf with rfl | hf
      · exact h
      · exact lt_trans h (h1 f hf)
    · next h =>
      refine List.pairwise_cons.2 ⟨fun f hf => ?_, ih h2 fun f hf => hn f (by simp [hf])⟩
      rcases mem_place.1 hf with rfl | hf
      · exact lt_of_le_of_ne (Nat.le_of_not_lt h) hk
      · exact h1 f hf

omit [DecidableEq α] in
theorem canonical_filter {p : Nat × α → Bool} (h : Canonical d l) : Canonical d (l.filter p) :=
  ⟨h.1.filter _, fun e he => h.2 e (List.mem_filter.1 he).1⟩

/-- A write keeps the canonical form. -/
theorem canonical_update (h : Canonical d l) : Canonical d (update d l n v) := by
  have he : Canonical d (erase l n) := canonical_filter h
  unfold update
  split
  · exact he
  · next hv =>
    refine ⟨pairwise_place he.1 erase_absent, fun e hm => ?_⟩
    rcases mem_place.1 hm with rfl | hm
    · exact hv
    · exact he.2 e hm

end Tables

/-! Memory. -/

variable {l : List Host.Cell} {a b : Nat} {v : Byte} {vs : List Byte}

@[simp] theorem readCell_writeCell_self : readCell (writeCell l a v) a = v := lookup_update_self

theorem readCell_writeCell_of_ne (h : b ≠ a) : readCell (writeCell l a v) b = readCell l b := lookup_update_of_ne h

theorem writeCell_wf (h : Memory.wf l) : Memory.wf (writeCell l a v) := canonical_update h

/-- A byte outside those written reads as before. -/
theorem readCell_writeCells_of_outside (h : b < a ∨ a + vs.length ≤ b) :
    readCell (writeCells l a vs) b = readCell l b := by
  induction vs generalizing l a with
  | nil => rfl
  | cons v vs ih =>
    simp only [List.length_cons] at h
    rw [writeCells, ih (by omega), readCell_writeCell_of_ne (by omega)]

/-- A byte written reads as written. -/
theorem readCell_writeCells_of_inside {i : Nat} (h : i < vs.length) :
    readCell (writeCells l a vs) (a + i) = vs.getD i 0 := by
  induction vs generalizing l a i with
  | nil => simp at h
  | cons v vs ih =>
    cases i with
    | zero =>
      rw [writeCells, readCell_writeCells_of_outside (by omega)]
      simp
    | succ i =>
      simp only [List.length_cons] at h
      rw [writeCells, show a + (i + 1) = a + 1 + i by omega, ih (by omega)]
      simp

/-- Writing keeps memory in its canonical form. -/
theorem writeCells_wf (h : Memory.wf l) : Memory.wf (writeCells l a vs) := by
  induction vs generalizing l a with
  | nil => exact h
  | cons v vs ih => exact ih (writeCell_wf h)

theorem memory_filter_wf {p : Host.Cell → Bool} (h : Memory.wf l) : Memory.wf (l.filter p) := canonical_filter h

/-! Byte strings. -/

@[simp] theorem leBytes_length (n x : Nat) : (leBytes n x).length = n := by
  induction n generalizing x with
  | zero => rfl
  | succ n ih => simp [leBytes, ih]

/-- The bytes of a number hold it. -/
theorem leNat_leBytes (n x : Nat) : leNat (leBytes n x) = x % 256 ^ n := by
  induction n generalizing x with
  | zero => simp [leBytes, leNat, Nat.mod_one]
  | succ n ih =>
    simp only [leBytes, leNat, ih, BitVec.toNat_ofNat]
    rw [show 256 ^ (n + 1) = 2 ^ 8 * 256 ^ n by rw [pow_succ]; ring, Nat.mod_mul]
    rfl

@[simp] theorem wordBytes_length (w : Word) : (wordBytes w).length = 4 := by simp [wordBytes]

/-- A word is what its bytes hold. -/
@[simp] theorem leWord_wordBytes (w : Word) : leWord (wordBytes w) = w := by
  apply BitVec.eq_of_toNat_eq
  have := w.isLt
  simp only [leWord, wordBytes, leNat_leBytes, BitVec.toNat_ofNat]
  omega

@[simp] theorem tabulate_length {α : Type} (n : Nat) (f : Nat → α) : (tabulate n f).length = n := by simp [tabulate]

@[simp] theorem modifyAt_length {α : Type} (l : List α) (i : Nat) (f : α → α) : (modifyAt l i f).length = l.length := by
  induction l generalizing i with
  | nil => rfl
  | cons x xs ih => cases i <;> simp [modifyAt, ih]

end Sys2Proof.Machine
end

