-- ==== Sys2Proof/Laws/State.lean ====
section
/-! SUPPORT. The fields of State under each named update: one lemma per field and update, so that no proof unfolds a record
update; and reading a core after a core is changed. -/

namespace Sys2Proof.Machine

open Sys2Proof

/-! `setCore` changes cores and nothing else. -/

@[simp] theorem setCore_mem (s : State) (id : Nat) (c : Core) : (setCore s id c).mem = s.mem := rfl
@[simp] theorem setCore_ext (s : State) (id : Nat) (c : Core) : (setCore s id c).ext = s.ext := rfl
@[simp] theorem setCore_poison (s : State) (id : Nat) (c : Core) : (setCore s id c).poison = s.poison := rfl
@[simp] theorem setCore_tags (s : State) (id : Nat) (c : Core) : (setCore s id c).tags = s.tags := rfl
@[simp] theorem setCore_groups (s : State) (id : Nat) (c : Core) : (setCore s id c).groups = s.groups := rfl
@[simp] theorem setCore_dom (s : State) (id : Nat) (c : Core) : (setCore s id c).dom = s.dom := rfl
@[simp] theorem setCore_sealedDom (s : State) (id : Nat) (c : Core) : (setCore s id c).sealedDom = s.sealedDom := rfl
@[simp] theorem setCore_cutDom (s : State) (id : Nat) (c : Core) : (setCore s id c).cutDom = s.cutDom := rfl
@[simp] theorem setCore_dies (s : State) (id : Nat) (c : Core) : (setCore s id c).dies = s.dies := rfl
@[simp] theorem setCore_queues (s : State) (id : Nat) (c : Core) : (setCore s id c).queues = s.queues := rfl
@[simp] theorem setCore_feLast (s : State) (id : Nat) (c : Core) : (setCore s id c).feLast = s.feLast := rfl
@[simp] theorem setCore_pkg (s : State) (id : Nat) (c : Core) : (setCore s id c).pkg = s.pkg := rfl
@[simp] theorem setCore_seals (s : State) (id : Nat) (c : Core) : (setCore s id c).seals = s.seals := rfl
@[simp] theorem setCore_journal (s : State) (id : Nat) (c : Core) : (setCore s id c).journal = s.journal := rfl
@[simp] theorem setCore_tlb (s : State) (id : Nat) (c : Core) : (setCore s id c).tlb = s.tlb := rfl
@[simp] theorem setCore_globals (s : State) (id : Nat) (c : Core) : (setCore s id c).globals = s.globals := rfl
@[simp] theorem setCore_inFlight (s : State) (id : Nat) (c : Core) : (setCore s id c).inFlight = s.inFlight := rfl
@[simp] theorem setCore_bankReqs (s : State) (id : Nat) (c : Core) : (setCore s id c).bankReqs = s.bankReqs := rfl
@[simp] theorem setCore_bankUsed (s : State) (id : Nat) (c : Core) : (setCore s id c).bankUsed = s.bankUsed := rfl
@[simp] theorem setCore_gather (s : State) (id : Nat) (c : Core) : (setCore s id c).gather = s.gather := rfl
@[simp] theorem setCore_arrivals (s : State) (id : Nat) (c : Core) : (setCore s id c).arrivals = s.arrivals := rfl
@[simp] theorem setCore_marks (s : State) (id : Nat) (c : Core) : (setCore s id c).marks = s.marks := rfl
@[simp] theorem setCore_starts (s : State) (id : Nat) (c : Core) : (setCore s id c).starts = s.starts := rfl
@[simp] theorem setCore_lateArrivals (s : State) (id : Nat) (c : Core) : (setCore s id c).lateArrivals = s.lateArrivals := rfl
@[simp] theorem setCore_offers (s : State) (id : Nat) (c : Core) : (setCore s id c).offers = s.offers := rfl
@[simp] theorem setCore_segCopies (s : State) (id : Nat) (c : Core) : (setCore s id c).segCopies = s.segCopies := rfl
@[simp] theorem setCore_scrubs (s : State) (id : Nat) (c : Core) : (setCore s id c).scrubs = s.scrubs := rfl
@[simp] theorem setCore_hostReply (s : State) (id : Nat) (c : Core) : (setCore s id c).hostReply = s.hostReply := rfl
@[simp] theorem setCore_peerReply (s : State) (id : Nat) (c : Core) : (setCore s id c).peerReply = s.peerReply := rfl
@[simp] theorem setCore_peerUndo (s : State) (id : Nat) (c : Core) : (setCore s id c).peerUndo = s.peerUndo := rfl
@[simp] theorem setCore_handovers (s : State) (id : Nat) (c : Core) : (setCore s id c).handovers = s.handovers := rfl
@[simp] theorem setCore_frames (s : State) (id : Nat) (c : Core) : (setCore s id c).frames = s.frames := rfl
@[simp] theorem setCore_synced (s : State) (id : Nat) (c : Core) : (setCore s id c).synced = s.synced := rfl
@[simp] theorem setCore_ptmLast (s : State) (id : Nat) (c : Core) : (setCore s id c).ptmLast = s.ptmLast := rfl
@[simp] theorem setCore_slew (s : State) (id : Nat) (c : Core) : (setCore s id c).slew = s.slew := rfl
@[simp] theorem setCore_slewFast (s : State) (id : Nat) (c : Core) : (setCore s id c).slewFast = s.slewFast := rfl
@[simp] theorem setCore_timeAdj (s : State) (id : Nat) (c : Core) : (setCore s id c).timeAdj = s.timeAdj := rfl
@[simp] theorem setCore_now (s : State) (id : Nat) (c : Core) : (setCore s id c).now = s.now := rfl
@[simp] theorem setCore_nextId (s : State) (id : Nat) (c : Core) : (setCore s id c).nextId = s.nextId := rfl
@[simp] theorem setCore_free (s : State) (id : Nat) (c : Core) : (setCore s id c).free = s.free := rfl
@[simp] theorem setCore_agenda (s : State) (id : Nat) (c : Core) : (setCore s id c).agenda = s.agenda := rfl
@[simp] theorem setCore_cur (s : State) (id : Nat) (c : Core) : (setCore s id c).cur = s.cur := rfl

/-! `modCore` changes cores and nothing else. -/

@[simp] theorem modCore_mem (s : State) (id : Nat) (f : Core → Core) : (modCore s id f).mem = s.mem := rfl
@[simp] theorem modCore_ext (s : State) (id : Nat) (f : Core → Core) : (modCore s id f).ext = s.ext := rfl
@[simp] theorem modCore_poison (s : State) (id : Nat) (f : Core → Core) : (modCore s id f).poison = s.poison := rfl
@[simp] theorem modCore_tags (s : State) (id : Nat) (f : Core → Core) : (modCore s id f).tags = s.tags := rfl
@[simp] theorem modCore_groups (s : State) (id : Nat) (f : Core → Core) : (modCore s id f).groups = s.groups := rfl
@[simp] theorem modCore_dom (s : State) (id : Nat) (f : Core → Core) : (modCore s id f).dom = s.dom := rfl
@[simp] theorem modCore_sealedDom (s : State) (id : Nat) (f : Core → Core) : (modCore s id f).sealedDom = s.sealedDom := rfl
@[simp] theorem modCore_cutDom (s : State) (id : Nat) (f : Core → Core) : (modCore s id f).cutDom = s.cutDom := rfl
@[simp] theorem modCore_dies (s : State) (id : Nat) (f : Core → Core) : (modCore s id f).dies = s.dies := rfl
@[simp] theorem modCore_queues (s : State) (id : Nat) (f : Core → Core) : (modCore s id f).queues = s.queues := rfl
@[simp] theorem modCore_feLast (s : State) (id : Nat) (f : Core → Core) : (modCore s id f).feLast = s.feLast := rfl
@[simp] theorem modCore_pkg (s : State) (id : Nat) (f : Core → Core) : (modCore s id f).pkg = s.pkg := rfl
@[simp] theorem modCore_seals (s : State) (id : Nat) (f : Core → Core) : (modCore s id f).seals = s.seals := rfl
@[simp] theorem modCore_journal (s : State) (id : Nat) (f : Core → Core) : (modCore s id f).journal = s.journal := rfl
@[simp] theorem modCore_tlb (s : State) (id : Nat) (f : Core → Core) : (modCore s id f).tlb = s.tlb := rfl
@[simp] theorem modCore_globals (s : State) (id : Nat) (f : Core → Core) : (modCore s id f).globals = s.globals := rfl
@[simp] theorem modCore_inFlight (s : State) (id : Nat) (f : Core → Core) : (modCore s id f).inFlight = s.inFlight := rfl
@[simp] theorem modCore_bankReqs (s : State) (id : Nat) (f : Core → Core) : (modCore s id f).bankReqs = s.bankReqs := rfl
@[simp] theorem modCore_bankUsed (s : State) (id : Nat) (f : Core → Core) : (modCore s id f).bankUsed = s.bankUsed := rfl
@[simp] theorem modCore_gather (s : State) (id : Nat) (f : Core → Core) : (modCore s id f).gather = s.gather := rfl
@[simp] theorem modCore_arrivals (s : State) (id : Nat) (f : Core → Core) : (modCore s id f).arrivals = s.arrivals := rfl
@[simp] theorem modCore_marks (s : State) (id : Nat) (f : Core → Core) : (modCore s id f).marks = s.marks := rfl
@[simp] theorem modCore_starts (s : State) (id : Nat) (f : Core → Core) : (modCore s id f).starts = s.starts := rfl
@[simp] theorem modCore_lateArrivals (s : State) (id : Nat) (f : Core → Core) : (modCore s id f).lateArrivals = s.lateArrivals := rfl
@[simp] theorem modCore_offers (s : State) (id : Nat) (f : Core → Core) : (modCore s id f).offers = s.offers := rfl
@[simp] theorem modCore_segCopies (s : State) (id : Nat) (f : Core → Core) : (modCore s id f).segCopies = s.segCopies := rfl
@[simp] theorem modCore_scrubs (s : State) (id : Nat) (f : Core → Core) : (modCore s id f).scrubs = s.scrubs := rfl
@[simp] theorem modCore_hostReply (s : State) (id : Nat) (f : Core → Core) : (modCore s id f).hostReply = s.hostReply := rfl
@[simp] theorem modCore_peerReply (s : State) (id : Nat) (f : Core → Core) : (modCore s id f).peerReply = s.peerReply := rfl
@[simp] theorem modCore_peerUndo (s : State) (id : Nat) (f : Core → Core) : (modCore s id f).peerUndo = s.peerUndo := rfl
@[simp] theorem modCore_handovers (s : State) (id : Nat) (f : Core → Core) : (modCore s id f).handovers = s.handovers := rfl
@[simp] theorem modCore_frames (s : State) (id : Nat) (f : Core → Core) : (modCore s id f).frames = s.frames := rfl
@[simp] theorem modCore_synced (s : State) (id : Nat) (f : Core → Core) : (modCore s id f).synced = s.synced := rfl
@[simp] theorem modCore_ptmLast (s : State) (id : Nat) (f : Core → Core) : (modCore s id f).ptmLast = s.ptmLast := rfl
@[simp] theorem modCore_slew (s : State) (id : Nat) (f : Core → Core) : (modCore s id f).slew = s.slew := rfl
@[simp] theorem modCore_slewFast (s : State) (id : Nat) (f : Core → Core) : (modCore s id f).slewFast = s.slewFast := rfl
@[simp] theorem modCore_timeAdj (s : State) (id : Nat) (f : Core → Core) : (modCore s id f).timeAdj = s.timeAdj := rfl
@[simp] theorem modCore_now (s : State) (id : Nat) (f : Core → Core) : (modCore s id f).now = s.now := rfl
@[simp] theorem modCore_nextId (s : State) (id : Nat) (f : Core → Core) : (modCore s id f).nextId = s.nextId := rfl
@[simp] theorem modCore_free (s : State) (id : Nat) (f : Core → Core) : (modCore s id f).free = s.free := rfl
@[simp] theorem modCore_agenda (s : State) (id : Nat) (f : Core → Core) : (modCore s id f).agenda = s.agenda := rfl
@[simp] theorem modCore_cur (s : State) (id : Nat) (f : Core → Core) : (modCore s id f).cur = s.cur := rfl

/-! `modTask` changes cores and nothing else. -/

@[simp] theorem modTask_mem (s : State) (id : Nat) (f : Task → Task) : (modTask s id f).mem = s.mem := rfl
@[simp] theorem modTask_ext (s : State) (id : Nat) (f : Task → Task) : (modTask s id f).ext = s.ext := rfl
@[simp] theorem modTask_poison (s : State) (id : Nat) (f : Task → Task) : (modTask s id f).poison = s.poison := rfl
@[simp] theorem modTask_tags (s : State) (id : Nat) (f : Task → Task) : (modTask s id f).tags = s.tags := rfl
@[simp] theorem modTask_groups (s : State) (id : Nat) (f : Task → Task) : (modTask s id f).groups = s.groups := rfl
@[simp] theorem modTask_dom (s : State) (id : Nat) (f : Task → Task) : (modTask s id f).dom = s.dom := rfl
@[simp] theorem modTask_sealedDom (s : State) (id : Nat) (f : Task → Task) : (modTask s id f).sealedDom = s.sealedDom := rfl
@[simp] theorem modTask_cutDom (s : State) (id : Nat) (f : Task → Task) : (modTask s id f).cutDom = s.cutDom := rfl
@[simp] theorem modTask_dies (s : State) (id : Nat) (f : Task → Task) : (modTask s id f).dies = s.dies := rfl
@[simp] theorem modTask_queues (s : State) (id : Nat) (f : Task → Task) : (modTask s id f).queues = s.queues := rfl
@[simp] theorem modTask_feLast (s : State) (id : Nat) (f : Task → Task) : (modTask s id f).feLast = s.feLast := rfl
@[simp] theorem modTask_pkg (s : State) (id : Nat) (f : Task → Task) : (modTask s id f).pkg = s.pkg := rfl
@[simp] theorem modTask_seals (s : State) (id : Nat) (f : Task → Task) : (modTask s id f).seals = s.seals := rfl
@[simp] theorem modTask_journal (s : State) (id : Nat) (f : Task → Task) : (modTask s id f).journal = s.journal := rfl
@[simp] theorem modTask_tlb (s : State) (id : Nat) (f : Task → Task) : (modTask s id f).tlb = s.tlb := rfl
@[simp] theorem modTask_globals (s : State) (id : Nat) (f : Task → Task) : (modTask s id f).globals = s.globals := rfl
@[simp] theorem modTask_inFlight (s : State) (id : Nat) (f : Task → Task) : (modTask s id f).inFlight = s.inFlight := rfl
@[simp] theorem modTask_bankReqs (s : State) (id : Nat) (f : Task → Task) : (modTask s id f).bankReqs = s.bankReqs := rfl
@[simp] theorem modTask_bankUsed (s : State) (id : Nat) (f : Task → Task) : (modTask s id f).bankUsed = s.bankUsed := rfl
@[simp] theorem modTask_gather (s : State) (id : Nat) (f : Task → Task) : (modTask s id f).gather = s.gather := rfl
@[simp] theorem modTask_arrivals (s : State) (id : Nat) (f : Task → Task) : (modTask s id f).arrivals = s.arrivals := rfl
@[simp] theorem modTask_marks (s : State) (id : Nat) (f : Task → Task) : (modTask s id f).marks = s.marks := rfl
@[simp] theorem modTask_starts (s : State) (id : Nat) (f : Task → Task) : (modTask s id f).starts = s.starts := rfl
@[simp] theorem modTask_lateArrivals (s : State) (id : Nat) (f : Task → Task) : (modTask s id f).lateArrivals = s.lateArrivals := rfl
@[simp] theorem modTask_offers (s : State) (id : Nat) (f : Task → Task) : (modTask s id f).offers = s.offers := rfl
@[simp] theorem modTask_segCopies (s : State) (id : Nat) (f : Task → Task) : (modTask s id f).segCopies = s.segCopies := rfl
@[simp] theorem modTask_scrubs (s : State) (id : Nat) (f : Task → Task) : (modTask s id f).scrubs = s.scrubs := rfl
@[simp] theorem modTask_hostReply (s : State) (id : Nat) (f : Task → Task) : (modTask s id f).hostReply = s.hostReply := rfl
@[simp] theorem modTask_peerReply (s : State) (id : Nat) (f : Task → Task) : (modTask s id f).peerReply = s.peerReply := rfl
@[simp] theorem modTask_peerUndo (s : State) (id : Nat) (f : Task → Task) : (modTask s id f).peerUndo = s.peerUndo := rfl
@[simp] theorem modTask_handovers (s : State) (id : Nat) (f : Task → Task) : (modTask s id f).handovers = s.handovers := rfl
@[simp] theorem modTask_frames (s : State) (id : Nat) (f : Task → Task) : (modTask s id f).frames = s.frames := rfl
@[simp] theorem modTask_synced (s : State) (id : Nat) (f : Task → Task) : (modTask s id f).synced = s.synced := rfl
@[simp] theorem modTask_ptmLast (s : State) (id : Nat) (f : Task → Task) : (modTask s id f).ptmLast = s.ptmLast := rfl
@[simp] theorem modTask_slew (s : State) (id : Nat) (f : Task → Task) : (modTask s id f).slew = s.slew := rfl
@[simp] theorem modTask_slewFast (s : State) (id : Nat) (f : Task → Task) : (modTask s id f).slewFast = s.slewFast := rfl
@[simp] theorem modTask_timeAdj (s : State) (id : Nat) (f : Task → Task) : (modTask s id f).timeAdj = s.timeAdj := rfl
@[simp] theorem modTask_now (s : State) (id : Nat) (f : Task → Task) : (modTask s id f).now = s.now := rfl
@[simp] theorem modTask_nextId (s : State) (id : Nat) (f : Task → Task) : (modTask s id f).nextId = s.nextId := rfl
@[simp] theorem modTask_free (s : State) (id : Nat) (f : Task → Task) : (modTask s id f).free = s.free := rfl
@[simp] theorem modTask_agenda (s : State) (id : Nat) (f : Task → Task) : (modTask s id f).agenda = s.agenda := rfl
@[simp] theorem modTask_cur (s : State) (id : Nat) (f : Task → Task) : (modTask s id f).cur = s.cur := rfl

/-! `modCur` changes cores and nothing else. -/

@[simp] theorem modCur_mem (s : State) (f : Task → Task) : (modCur s f).mem = s.mem := rfl
@[simp] theorem modCur_ext (s : State) (f : Task → Task) : (modCur s f).ext = s.ext := rfl
@[simp] theorem modCur_poison (s : State) (f : Task → Task) : (modCur s f).poison = s.poison := rfl
@[simp] theorem modCur_tags (s : State) (f : Task → Task) : (modCur s f).tags = s.tags := rfl
@[simp] theorem modCur_groups (s : State) (f : Task → Task) : (modCur s f).groups = s.groups := rfl
@[simp] theorem modCur_dom (s : State) (f : Task → Task) : (modCur s f).dom = s.dom := rfl
@[simp] theorem modCur_sealedDom (s : State) (f : Task → Task) : (modCur s f).sealedDom = s.sealedDom := rfl
@[simp] theorem modCur_cutDom (s : State) (f : Task → Task) : (modCur s f).cutDom = s.cutDom := rfl
@[simp] theorem modCur_dies (s : State) (f : Task → Task) : (modCur s f).dies = s.dies := rfl
@[simp] theorem modCur_queues (s : State) (f : Task → Task) : (modCur s f).queues = s.queues := rfl
@[simp] theorem modCur_feLast (s : State) (f : Task → Task) : (modCur s f).feLast = s.feLast := rfl
@[simp] theorem modCur_pkg (s : State) (f : Task → Task) : (modCur s f).pkg = s.pkg := rfl
@[simp] theorem modCur_seals (s : State) (f : Task → Task) : (modCur s f).seals = s.seals := rfl
@[simp] theorem modCur_journal (s : State) (f : Task → Task) : (modCur s f).journal = s.journal := rfl
@[simp] theorem modCur_tlb (s : State) (f : Task → Task) : (modCur s f).tlb = s.tlb := rfl
@[simp] theorem modCur_globals (s : State) (f : Task → Task) : (modCur s f).globals = s.globals := rfl
@[simp] theorem modCur_inFlight (s : State) (f : Task → Task) : (modCur s f).inFlight = s.inFlight := rfl
@[simp] theorem modCur_bankReqs (s : State) (f : Task → Task) : (modCur s f).bankReqs = s.bankReqs := rfl
@[simp] theorem modCur_bankUsed (s : State) (f : Task → Task) : (modCur s f).bankUsed = s.bankUsed := rfl
@[simp] theorem modCur_gather (s : State) (f : Task → Task) : (modCur s f).gather = s.gather := rfl
@[simp] theorem modCur_arrivals (s : State) (f : Task → Task) : (modCur s f).arrivals = s.arrivals := rfl
@[simp] theorem modCur_marks (s : State) (f : Task → Task) : (modCur s f).marks = s.marks := rfl
@[simp] theorem modCur_starts (s : State) (f : Task → Task) : (modCur s f).starts = s.starts := rfl
@[simp] theorem modCur_lateArrivals (s : State) (f : Task → Task) : (modCur s f).lateArrivals = s.lateArrivals := rfl
@[simp] theorem modCur_offers (s : State) (f : Task → Task) : (modCur s f).offers = s.offers := rfl
@[simp] theorem modCur_segCopies (s : State) (f : Task → Task) : (modCur s f).segCopies = s.segCopies := rfl
@[simp] theorem modCur_scrubs (s : State) (f : Task → Task) : (modCur s f).scrubs = s.scrubs := rfl
@[simp] theorem modCur_hostReply (s : State) (f : Task → Task) : (modCur s f).hostReply = s.hostReply := rfl
@[simp] theorem modCur_peerReply (s : State) (f : Task → Task) : (modCur s f).peerReply = s.peerReply := rfl
@[simp] theorem modCur_peerUndo (s : State) (f : Task → Task) : (modCur s f).peerUndo = s.peerUndo := rfl
@[simp] theorem modCur_handovers (s : State) (f : Task → Task) : (modCur s f).handovers = s.handovers := rfl
@[simp] theorem modCur_frames (s : State) (f : Task → Task) : (modCur s f).frames = s.frames := rfl
@[simp] theorem modCur_synced (s : State) (f : Task → Task) : (modCur s f).synced = s.synced := rfl
@[simp] theorem modCur_ptmLast (s : State) (f : Task → Task) : (modCur s f).ptmLast = s.ptmLast := rfl
@[simp] theorem modCur_slew (s : State) (f : Task → Task) : (modCur s f).slew = s.slew := rfl
@[simp] theorem modCur_slewFast (s : State) (f : Task → Task) : (modCur s f).slewFast = s.slewFast := rfl
@[simp] theorem modCur_timeAdj (s : State) (f : Task → Task) : (modCur s f).timeAdj = s.timeAdj := rfl
@[simp] theorem modCur_now (s : State) (f : Task → Task) : (modCur s f).now = s.now := rfl
@[simp] theorem modCur_nextId (s : State) (f : Task → Task) : (modCur s f).nextId = s.nextId := rfl
@[simp] theorem modCur_free (s : State) (f : Task → Task) : (modCur s f).free = s.free := rfl
@[simp] theorem modCur_agenda (s : State) (f : Task → Task) : (modCur s f).agenda = s.agenda := rfl
@[simp] theorem modCur_cur (s : State) (f : Task → Task) : (modCur s f).cur = s.cur := rfl

/-! `modGroup` changes groups and nothing else. -/

@[simp] theorem modGroup_mem (s : State) (gid : Nat) (f : Group → Group) : (modGroup s gid f).mem = s.mem := rfl
@[simp] theorem modGroup_ext (s : State) (gid : Nat) (f : Group → Group) : (modGroup s gid f).ext = s.ext := rfl
@[simp] theorem modGroup_poison (s : State) (gid : Nat) (f : Group → Group) : (modGroup s gid f).poison = s.poison := rfl
@[simp] theorem modGroup_tags (s : State) (gid : Nat) (f : Group → Group) : (modGroup s gid f).tags = s.tags := rfl
@[simp] theorem modGroup_cores (s : State) (gid : Nat) (f : Group → Group) : (modGroup s gid f).cores = s.cores := rfl
@[simp] theorem modGroup_dom (s : State) (gid : Nat) (f : Group → Group) : (modGroup s gid f).dom = s.dom := rfl
@[simp] theorem modGroup_sealedDom (s : State) (gid : Nat) (f : Group → Group) : (modGroup s gid f).sealedDom = s.sealedDom := rfl
@[simp] theorem modGroup_cutDom (s : State) (gid : Nat) (f : Group → Group) : (modGroup s gid f).cutDom = s.cutDom := rfl
@[simp] theorem modGroup_dies (s : State) (gid : Nat) (f : Group → Group) : (modGroup s gid f).dies = s.dies := rfl
@[simp] theorem modGroup_queues (s : State) (gid : Nat) (f : Group → Group) : (modGroup s gid f).queues = s.queues := rfl
@[simp] theorem modGroup_feLast (s : State) (gid : Nat) (f : Group → Group) : (modGroup s gid f).feLast = s.feLast := rfl
@[simp] theorem modGroup_pkg (s : State) (gid : Nat) (f : Group → Group) : (modGroup s gid f).pkg = s.pkg := rfl
@[simp] theorem modGroup_seals (s : State) (gid : Nat) (f : Group → Group) : (modGroup s gid f).seals = s.seals := rfl
@[simp] theorem modGroup_journal (s : State) (gid : Nat) (f : Group → Group) : (modGroup s gid f).journal = s.journal := rfl
@[simp] theorem modGroup_tlb (s : State) (gid : Nat) (f : Group → Group) : (modGroup s gid f).tlb = s.tlb := rfl
@[simp] theorem modGroup_globals (s : State) (gid : Nat) (f : Group → Group) : (modGroup s gid f).globals = s.globals := rfl
@[simp] theorem modGroup_inFlight (s : State) (gid : Nat) (f : Group → Group) : (modGroup s gid f).inFlight = s.inFlight := rfl
@[simp] theorem modGroup_bankReqs (s : State) (gid : Nat) (f : Group → Group) : (modGroup s gid f).bankReqs = s.bankReqs := rfl
@[simp] theorem modGroup_bankUsed (s : State) (gid : Nat) (f : Group → Group) : (modGroup s gid f).bankUsed = s.bankUsed := rfl
@[simp] theorem modGroup_gather (s : State) (gid : Nat) (f : Group → Group) : (modGroup s gid f).gather = s.gather := rfl
@[simp] theorem modGroup_arrivals (s : State) (gid : Nat) (f : Group → Group) : (modGroup s gid f).arrivals = s.arrivals := rfl
@[simp] theorem modGroup_marks (s : State) (gid : Nat) (f : Group → Group) : (modGroup s gid f).marks = s.marks := rfl
@[simp] theorem modGroup_starts (s : State) (gid : Nat) (f : Group → Group) : (modGroup s gid f).starts = s.starts := rfl
@[simp] theorem modGroup_lateArrivals (s : State) (gid : Nat) (f : Group → Group) : (modGroup s gid f).lateArrivals = s.lateArrivals := rfl
@[simp] theorem modGroup_offers (s : State) (gid : Nat) (f : Group → Group) : (modGroup s gid f).offers = s.offers := rfl
@[simp] theorem modGroup_segCopies (s : State) (gid : Nat) (f : Group → Group) : (modGroup s gid f).segCopies = s.segCopies := rfl
@[simp] theorem modGroup_scrubs (s : State) (gid : Nat) (f : Group → Group) : (modGroup s gid f).scrubs = s.scrubs := rfl
@[simp] theorem modGroup_hostReply (s : State) (gid : Nat) (f : Group → Group) : (modGroup s gid f).hostReply = s.hostReply := rfl
@[simp] theorem modGroup_peerReply (s : State) (gid : Nat) (f : Group → Group) : (modGroup s gid f).peerReply = s.peerReply := rfl
@[simp] theorem modGroup_peerUndo (s : State) (gid : Nat) (f : Group → Group) : (modGroup s gid f).peerUndo = s.peerUndo := rfl
@[simp] theorem modGroup_handovers (s : State) (gid : Nat) (f : Group → Group) : (modGroup s gid f).handovers = s.handovers := rfl
@[simp] theorem modGroup_frames (s : State) (gid : Nat) (f : Group → Group) : (modGroup s gid f).frames = s.frames := rfl
@[simp] theorem modGroup_synced (s : State) (gid : Nat) (f : Group → Group) : (modGroup s gid f).synced = s.synced := rfl
@[simp] theorem modGroup_ptmLast (s : State) (gid : Nat) (f : Group → Group) : (modGroup s gid f).ptmLast = s.ptmLast := rfl
@[simp] theorem modGroup_slew (s : State) (gid : Nat) (f : Group → Group) : (modGroup s gid f).slew = s.slew := rfl
@[simp] theorem modGroup_slewFast (s : State) (gid : Nat) (f : Group → Group) : (modGroup s gid f).slewFast = s.slewFast := rfl
@[simp] theorem modGroup_timeAdj (s : State) (gid : Nat) (f : Group → Group) : (modGroup s gid f).timeAdj = s.timeAdj := rfl
@[simp] theorem modGroup_now (s : State) (gid : Nat) (f : Group → Group) : (modGroup s gid f).now = s.now := rfl
@[simp] theorem modGroup_nextId (s : State) (gid : Nat) (f : Group → Group) : (modGroup s gid f).nextId = s.nextId := rfl
@[simp] theorem modGroup_free (s : State) (gid : Nat) (f : Group → Group) : (modGroup s gid f).free = s.free := rfl
@[simp] theorem modGroup_agenda (s : State) (gid : Nat) (f : Group → Group) : (modGroup s gid f).agenda = s.agenda := rfl
@[simp] theorem modGroup_cur (s : State) (gid : Nat) (f : Group → Group) : (modGroup s gid f).cur = s.cur := rfl

/-! `dropGroup` changes groups and nothing else. -/

@[simp] theorem dropGroup_mem (s : State) (gid : Nat) : (dropGroup s gid).mem = s.mem := rfl
@[simp] theorem dropGroup_ext (s : State) (gid : Nat) : (dropGroup s gid).ext = s.ext := rfl
@[simp] theorem dropGroup_poison (s : State) (gid : Nat) : (dropGroup s gid).poison = s.poison := rfl
@[simp] theorem dropGroup_tags (s : State) (gid : Nat) : (dropGroup s gid).tags = s.tags := rfl
@[simp] theorem dropGroup_cores (s : State) (gid : Nat) : (dropGroup s gid).cores = s.cores := rfl
@[simp] theorem dropGroup_dom (s : State) (gid : Nat) : (dropGroup s gid).dom = s.dom := rfl
@[simp] theorem dropGroup_sealedDom (s : State) (gid : Nat) : (dropGroup s gid).sealedDom = s.sealedDom := rfl
@[simp] theorem dropGroup_cutDom (s : State) (gid : Nat) : (dropGroup s gid).cutDom = s.cutDom := rfl
@[simp] theorem dropGroup_dies (s : State) (gid : Nat) : (dropGroup s gid).dies = s.dies := rfl
@[simp] theorem dropGroup_queues (s : State) (gid : Nat) : (dropGroup s gid).queues = s.queues := rfl
@[simp] theorem dropGroup_feLast (s : State) (gid : Nat) : (dropGroup s gid).feLast = s.feLast := rfl
@[simp] theorem dropGroup_pkg (s : State) (gid : Nat) : (dropGroup s gid).pkg = s.pkg := rfl
@[simp] theorem dropGroup_seals (s : State) (gid : Nat) : (dropGroup s gid).seals = s.seals := rfl
@[simp] theorem dropGroup_journal (s : State) (gid : Nat) : (dropGroup s gid).journal = s.journal := rfl
@[simp] theorem dropGroup_tlb (s : State) (gid : Nat) : (dropGroup s gid).tlb = s.tlb := rfl
@[simp] theorem dropGroup_globals (s : State) (gid : Nat) : (dropGroup s gid).globals = s.globals := rfl
@[simp] theorem dropGroup_inFlight (s : State) (gid : Nat) : (dropGroup s gid).inFlight = s.inFlight := rfl
@[simp] theorem dropGroup_bankReqs (s : State) (gid : Nat) : (dropGroup s gid).bankReqs = s.bankReqs := rfl
@[simp] theorem dropGroup_bankUsed (s : State) (gid : Nat) : (dropGroup s gid).bankUsed = s.bankUsed := rfl
@[simp] theorem dropGroup_gather (s : State) (gid : Nat) : (dropGroup s gid).gather = s.gather := rfl
@[simp] theorem dropGroup_arrivals (s : State) (gid : Nat) : (dropGroup s gid).arrivals = s.arrivals := rfl
@[simp] theorem dropGroup_marks (s : State) (gid : Nat) : (dropGroup s gid).marks = s.marks := rfl
@[simp] theorem dropGroup_starts (s : State) (gid : Nat) : (dropGroup s gid).starts = s.starts := rfl
@[simp] theorem dropGroup_lateArrivals (s : State) (gid : Nat) : (dropGroup s gid).lateArrivals = s.lateArrivals := rfl
@[simp] theorem dropGroup_offers (s : State) (gid : Nat) : (dropGroup s gid).offers = s.offers := rfl
@[simp] theorem dropGroup_segCopies (s : State) (gid : Nat) : (dropGroup s gid).segCopies = s.segCopies := rfl
@[simp] theorem dropGroup_scrubs (s : State) (gid : Nat) : (dropGroup s gid).scrubs = s.scrubs := rfl
@[simp] theorem dropGroup_hostReply (s : State) (gid : Nat) : (dropGroup s gid).hostReply = s.hostReply := rfl
@[simp] theorem dropGroup_peerReply (s : State) (gid : Nat) : (dropGroup s gid).peerReply = s.peerReply := rfl
@[simp] theorem dropGroup_peerUndo (s : State) (gid : Nat) : (dropGroup s gid).peerUndo = s.peerUndo := rfl
@[simp] theorem dropGroup_handovers (s : State) (gid : Nat) : (dropGroup s gid).handovers = s.handovers := rfl
@[simp] theorem dropGroup_frames (s : State) (gid : Nat) : (dropGroup s gid).frames = s.frames := rfl
@[simp] theorem dropGroup_synced (s : State) (gid : Nat) : (dropGroup s gid).synced = s.synced := rfl
@[simp] theorem dropGroup_ptmLast (s : State) (gid : Nat) : (dropGroup s gid).ptmLast = s.ptmLast := rfl
@[simp] theorem dropGroup_slew (s : State) (gid : Nat) : (dropGroup s gid).slew = s.slew := rfl
@[simp] theorem dropGroup_slewFast (s : State) (gid : Nat) : (dropGroup s gid).slewFast = s.slewFast := rfl
@[simp] theorem dropGroup_timeAdj (s : State) (gid : Nat) : (dropGroup s gid).timeAdj = s.timeAdj := rfl
@[simp] theorem dropGroup_now (s : State) (gid : Nat) : (dropGroup s gid).now = s.now := rfl
@[simp] theorem dropGroup_nextId (s : State) (gid : Nat) : (dropGroup s gid).nextId = s.nextId := rfl
@[simp] theorem dropGroup_free (s : State) (gid : Nat) : (dropGroup s gid).free = s.free := rfl
@[simp] theorem dropGroup_agenda (s : State) (gid : Nat) : (dropGroup s gid).agenda = s.agenda := rfl
@[simp] theorem dropGroup_cur (s : State) (gid : Nat) : (dropGroup s gid).cur = s.cur := rfl

/-! `modSorus` changes dom and nothing else. -/

@[simp] theorem modSorus_mem (s : State) (c : Nat) (f : Sorus → Sorus) : (modSorus s c f).mem = s.mem := rfl
@[simp] theorem modSorus_ext (s : State) (c : Nat) (f : Sorus → Sorus) : (modSorus s c f).ext = s.ext := rfl
@[simp] theorem modSorus_poison (s : State) (c : Nat) (f : Sorus → Sorus) : (modSorus s c f).poison = s.poison := rfl
@[simp] theorem modSorus_tags (s : State) (c : Nat) (f : Sorus → Sorus) : (modSorus s c f).tags = s.tags := rfl
@[simp] theorem modSorus_cores (s : State) (c : Nat) (f : Sorus → Sorus) : (modSorus s c f).cores = s.cores := rfl
@[simp] theorem modSorus_groups (s : State) (c : Nat) (f : Sorus → Sorus) : (modSorus s c f).groups = s.groups := rfl
@[simp] theorem modSorus_sealedDom (s : State) (c : Nat) (f : Sorus → Sorus) : (modSorus s c f).sealedDom = s.sealedDom := rfl
@[simp] theorem modSorus_cutDom (s : State) (c : Nat) (f : Sorus → Sorus) : (modSorus s c f).cutDom = s.cutDom := rfl
@[simp] theorem modSorus_dies (s : State) (c : Nat) (f : Sorus → Sorus) : (modSorus s c f).dies = s.dies := rfl
@[simp] theorem modSorus_queues (s : State) (c : Nat) (f : Sorus → Sorus) : (modSorus s c f).queues = s.queues := rfl
@[simp] theorem modSorus_feLast (s : State) (c : Nat) (f : Sorus → Sorus) : (modSorus s c f).feLast = s.feLast := rfl
@[simp] theorem modSorus_pkg (s : State) (c : Nat) (f : Sorus → Sorus) : (modSorus s c f).pkg = s.pkg := rfl
@[simp] theorem modSorus_seals (s : State) (c : Nat) (f : Sorus → Sorus) : (modSorus s c f).seals = s.seals := rfl
@[simp] theorem modSorus_journal (s : State) (c : Nat) (f : Sorus → Sorus) : (modSorus s c f).journal = s.journal := rfl
@[simp] theorem modSorus_tlb (s : State) (c : Nat) (f : Sorus → Sorus) : (modSorus s c f).tlb = s.tlb := rfl
@[simp] theorem modSorus_globals (s : State) (c : Nat) (f : Sorus → Sorus) : (modSorus s c f).globals = s.globals := rfl
@[simp] theorem modSorus_inFlight (s : State) (c : Nat) (f : Sorus → Sorus) : (modSorus s c f).inFlight = s.inFlight := rfl
@[simp] theorem modSorus_bankReqs (s : State) (c : Nat) (f : Sorus → Sorus) : (modSorus s c f).bankReqs = s.bankReqs := rfl
@[simp] theorem modSorus_bankUsed (s : State) (c : Nat) (f : Sorus → Sorus) : (modSorus s c f).bankUsed = s.bankUsed := rfl
@[simp] theorem modSorus_gather (s : State) (c : Nat) (f : Sorus → Sorus) : (modSorus s c f).gather = s.gather := rfl
@[simp] theorem modSorus_arrivals (s : State) (c : Nat) (f : Sorus → Sorus) : (modSorus s c f).arrivals = s.arrivals := rfl
@[simp] theorem modSorus_marks (s : State) (c : Nat) (f : Sorus → Sorus) : (modSorus s c f).marks = s.marks := rfl
@[simp] theorem modSorus_starts (s : State) (c : Nat) (f : Sorus → Sorus) : (modSorus s c f).starts = s.starts := rfl
@[simp] theorem modSorus_lateArrivals (s : State) (c : Nat) (f : Sorus → Sorus) : (modSorus s c f).lateArrivals = s.lateArrivals := rfl
@[simp] theorem modSorus_offers (s : State) (c : Nat) (f : Sorus → Sorus) : (modSorus s c f).offers = s.offers := rfl
@[simp] theorem modSorus_segCopies (s : State) (c : Nat) (f : Sorus → Sorus) : (modSorus s c f).segCopies = s.segCopies := rfl
@[simp] theorem modSorus_scrubs (s : State) (c : Nat) (f : Sorus → Sorus) : (modSorus s c f).scrubs = s.scrubs := rfl
@[simp] theorem modSorus_hostReply (s : State) (c : Nat) (f : Sorus → Sorus) : (modSorus s c f).hostReply = s.hostReply := rfl
@[simp] theorem modSorus_peerReply (s : State) (c : Nat) (f : Sorus → Sorus) : (modSorus s c f).peerReply = s.peerReply := rfl
@[simp] theorem modSorus_peerUndo (s : State) (c : Nat) (f : Sorus → Sorus) : (modSorus s c f).peerUndo = s.peerUndo := rfl
@[simp] theorem modSorus_handovers (s : State) (c : Nat) (f : Sorus → Sorus) : (modSorus s c f).handovers = s.handovers := rfl
@[simp] theorem modSorus_frames (s : State) (c : Nat) (f : Sorus → Sorus) : (modSorus s c f).frames = s.frames := rfl
@[simp] theorem modSorus_synced (s : State) (c : Nat) (f : Sorus → Sorus) : (modSorus s c f).synced = s.synced := rfl
@[simp] theorem modSorus_ptmLast (s : State) (c : Nat) (f : Sorus → Sorus) : (modSorus s c f).ptmLast = s.ptmLast := rfl
@[simp] theorem modSorus_slew (s : State) (c : Nat) (f : Sorus → Sorus) : (modSorus s c f).slew = s.slew := rfl
@[simp] theorem modSorus_slewFast (s : State) (c : Nat) (f : Sorus → Sorus) : (modSorus s c f).slewFast = s.slewFast := rfl
@[simp] theorem modSorus_timeAdj (s : State) (c : Nat) (f : Sorus → Sorus) : (modSorus s c f).timeAdj = s.timeAdj := rfl
@[simp] theorem modSorus_now (s : State) (c : Nat) (f : Sorus → Sorus) : (modSorus s c f).now = s.now := rfl
@[simp] theorem modSorus_nextId (s : State) (c : Nat) (f : Sorus → Sorus) : (modSorus s c f).nextId = s.nextId := rfl
@[simp] theorem modSorus_free (s : State) (c : Nat) (f : Sorus → Sorus) : (modSorus s c f).free = s.free := rfl
@[simp] theorem modSorus_agenda (s : State) (c : Nat) (f : Sorus → Sorus) : (modSorus s c f).agenda = s.agenda := rfl
@[simp] theorem modSorus_cur (s : State) (c : Nat) (f : Sorus → Sorus) : (modSorus s c f).cur = s.cur := rfl

/-! `setBarrier` changes dom and nothing else. -/

@[simp] theorem setBarrier_mem (s : State) (c b : Nat) (x : Barrier) : (setBarrier s c b x).mem = s.mem := rfl
@[simp] theorem setBarrier_ext (s : State) (c b : Nat) (x : Barrier) : (setBarrier s c b x).ext = s.ext := rfl
@[simp] theorem setBarrier_poison (s : State) (c b : Nat) (x : Barrier) : (setBarrier s c b x).poison = s.poison := rfl
@[simp] theorem setBarrier_tags (s : State) (c b : Nat) (x : Barrier) : (setBarrier s c b x).tags = s.tags := rfl
@[simp] theorem setBarrier_cores (s : State) (c b : Nat) (x : Barrier) : (setBarrier s c b x).cores = s.cores := rfl
@[simp] theorem setBarrier_groups (s : State) (c b : Nat) (x : Barrier) : (setBarrier s c b x).groups = s.groups := rfl
@[simp] theorem setBarrier_sealedDom (s : State) (c b : Nat) (x : Barrier) : (setBarrier s c b x).sealedDom = s.sealedDom := rfl
@[simp] theorem setBarrier_cutDom (s : State) (c b : Nat) (x : Barrier) : (setBarrier s c b x).cutDom = s.cutDom := rfl
@[simp] theorem setBarrier_dies (s : State) (c b : Nat) (x : Barrier) : (setBarrier s c b x).dies = s.dies := rfl
@[simp] theorem setBarrier_queues (s : State) (c b : Nat) (x : Barrier) : (setBarrier s c b x).queues = s.queues := rfl
@[simp] theorem setBarrier_feLast (s : State) (c b : Nat) (x : Barrier) : (setBarrier s c b x).feLast = s.feLast := rfl
@[simp] theorem setBarrier_pkg (s : State) (c b : Nat) (x : Barrier) : (setBarrier s c b x).pkg = s.pkg := rfl
@[simp] theorem setBarrier_seals (s : State) (c b : Nat) (x : Barrier) : (setBarrier s c b x).seals = s.seals := rfl
@[simp] theorem setBarrier_journal (s : State) (c b : Nat) (x : Barrier) : (setBarrier s c b x).journal = s.journal := rfl
@[simp] theorem setBarrier_tlb (s : State) (c b : Nat) (x : Barrier) : (setBarrier s c b x).tlb = s.tlb := rfl
@[simp] theorem setBarrier_globals (s : State) (c b : Nat) (x : Barrier) : (setBarrier s c b x).globals = s.globals := rfl
@[simp] theorem setBarrier_inFlight (s : State) (c b : Nat) (x : Barrier) : (setBarrier s c b x).inFlight = s.inFlight := rfl
@[simp] theorem setBarrier_bankReqs (s : State) (c b : Nat) (x : Barrier) : (setBarrier s c b x).bankReqs = s.bankReqs := rfl
@[simp] theorem setBarrier_bankUsed (s : State) (c b : Nat) (x : Barrier) : (setBarrier s c b x).bankUsed = s.bankUsed := rfl
@[simp] theorem setBarrier_gather (s : State) (c b : Nat) (x : Barrier) : (setBarrier s c b x).gather = s.gather := rfl
@[simp] theorem setBarrier_arrivals (s : State) (c b : Nat) (x : Barrier) : (setBarrier s c b x).arrivals = s.arrivals := rfl
@[simp] theorem setBarrier_marks (s : State) (c b : Nat) (x : Barrier) : (setBarrier s c b x).marks = s.marks := rfl
@[simp] theorem setBarrier_starts (s : State) (c b : Nat) (x : Barrier) : (setBarrier s c b x).starts = s.starts := rfl
@[simp] theorem setBarrier_lateArrivals (s : State) (c b : Nat) (x : Barrier) : (setBarrier s c b x).lateArrivals = s.lateArrivals := rfl
@[simp] theorem setBarrier_offers (s : State) (c b : Nat) (x : Barrier) : (setBarrier s c b x).offers = s.offers := rfl
@[simp] theorem setBarrier_segCopies (s : State) (c b : Nat) (x : Barrier) : (setBarrier s c b x).segCopies = s.segCopies := rfl
@[simp] theorem setBarrier_scrubs (s : State) (c b : Nat) (x : Barrier) : (setBarrier s c b x).scrubs = s.scrubs := rfl
@[simp] theorem setBarrier_hostReply (s : State) (c b : Nat) (x : Barrier) : (setBarrier s c b x).hostReply = s.hostReply := rfl
@[simp] theorem setBarrier_peerReply (s : State) (c b : Nat) (x : Barrier) : (setBarrier s c b x).peerReply = s.peerReply := rfl
@[simp] theorem setBarrier_peerUndo (s : State) (c b : Nat) (x : Barrier) : (setBarrier s c b x).peerUndo = s.peerUndo := rfl
@[simp] theorem setBarrier_handovers (s : State) (c b : Nat) (x : Barrier) : (setBarrier s c b x).handovers = s.handovers := rfl
@[simp] theorem setBarrier_frames (s : State) (c b : Nat) (x : Barrier) : (setBarrier s c b x).frames = s.frames := rfl
@[simp] theorem setBarrier_synced (s : State) (c b : Nat) (x : Barrier) : (setBarrier s c b x).synced = s.synced := rfl
@[simp] theorem setBarrier_ptmLast (s : State) (c b : Nat) (x : Barrier) : (setBarrier s c b x).ptmLast = s.ptmLast := rfl
@[simp] theorem setBarrier_slew (s : State) (c b : Nat) (x : Barrier) : (setBarrier s c b x).slew = s.slew := rfl
@[simp] theorem setBarrier_slewFast (s : State) (c b : Nat) (x : Barrier) : (setBarrier s c b x).slewFast = s.slewFast := rfl
@[simp] theorem setBarrier_timeAdj (s : State) (c b : Nat) (x : Barrier) : (setBarrier s c b x).timeAdj = s.timeAdj := rfl
@[simp] theorem setBarrier_now (s : State) (c b : Nat) (x : Barrier) : (setBarrier s c b x).now = s.now := rfl
@[simp] theorem setBarrier_nextId (s : State) (c b : Nat) (x : Barrier) : (setBarrier s c b x).nextId = s.nextId := rfl
@[simp] theorem setBarrier_free (s : State) (c b : Nat) (x : Barrier) : (setBarrier s c b x).free = s.free := rfl
@[simp] theorem setBarrier_agenda (s : State) (c b : Nat) (x : Barrier) : (setBarrier s c b x).agenda = s.agenda := rfl
@[simp] theorem setBarrier_cur (s : State) (c b : Nat) (x : Barrier) : (setBarrier s c b x).cur = s.cur := rfl

/-! `modDie` changes dies and nothing else. -/

@[simp] theorem modDie_mem (s : State) (d : Nat) (f : Die → Die) : (modDie s d f).mem = s.mem := rfl
@[simp] theorem modDie_ext (s : State) (d : Nat) (f : Die → Die) : (modDie s d f).ext = s.ext := rfl
@[simp] theorem modDie_poison (s : State) (d : Nat) (f : Die → Die) : (modDie s d f).poison = s.poison := rfl
@[simp] theorem modDie_tags (s : State) (d : Nat) (f : Die → Die) : (modDie s d f).tags = s.tags := rfl
@[simp] theorem modDie_cores (s : State) (d : Nat) (f : Die → Die) : (modDie s d f).cores = s.cores := rfl
@[simp] theorem modDie_groups (s : State) (d : Nat) (f : Die → Die) : (modDie s d f).groups = s.groups := rfl
@[simp] theorem modDie_dom (s : State) (d : Nat) (f : Die → Die) : (modDie s d f).dom = s.dom := rfl
@[simp] theorem modDie_sealedDom (s : State) (d : Nat) (f : Die → Die) : (modDie s d f).sealedDom = s.sealedDom := rfl
@[simp] theorem modDie_cutDom (s : State) (d : Nat) (f : Die → Die) : (modDie s d f).cutDom = s.cutDom := rfl
@[simp] theorem modDie_queues (s : State) (d : Nat) (f : Die → Die) : (modDie s d f).queues = s.queues := rfl
@[simp] theorem modDie_feLast (s : State) (d : Nat) (f : Die → Die) : (modDie s d f).feLast = s.feLast := rfl
@[simp] theorem modDie_pkg (s : State) (d : Nat) (f : Die → Die) : (modDie s d f).pkg = s.pkg := rfl
@[simp] theorem modDie_seals (s : State) (d : Nat) (f : Die → Die) : (modDie s d f).seals = s.seals := rfl
@[simp] theorem modDie_journal (s : State) (d : Nat) (f : Die → Die) : (modDie s d f).journal = s.journal := rfl
@[simp] theorem modDie_tlb (s : State) (d : Nat) (f : Die → Die) : (modDie s d f).tlb = s.tlb := rfl
@[simp] theorem modDie_globals (s : State) (d : Nat) (f : Die → Die) : (modDie s d f).globals = s.globals := rfl
@[simp] theorem modDie_inFlight (s : State) (d : Nat) (f : Die → Die) : (modDie s d f).inFlight = s.inFlight := rfl
@[simp] theorem modDie_bankReqs (s : State) (d : Nat) (f : Die → Die) : (modDie s d f).bankReqs = s.bankReqs := rfl
@[simp] theorem modDie_bankUsed (s : State) (d : Nat) (f : Die → Die) : (modDie s d f).bankUsed = s.bankUsed := rfl
@[simp] theorem modDie_gather (s : State) (d : Nat) (f : Die → Die) : (modDie s d f).gather = s.gather := rfl
@[simp] theorem modDie_arrivals (s : State) (d : Nat) (f : Die → Die) : (modDie s d f).arrivals = s.arrivals := rfl
@[simp] theorem modDie_marks (s : State) (d : Nat) (f : Die → Die) : (modDie s d f).marks = s.marks := rfl
@[simp] theorem modDie_starts (s : State) (d : Nat) (f : Die → Die) : (modDie s d f).starts = s.starts := rfl
@[simp] theorem modDie_lateArrivals (s : State) (d : Nat) (f : Die → Die) : (modDie s d f).lateArrivals = s.lateArrivals := rfl
@[simp] theorem modDie_offers (s : State) (d : Nat) (f : Die → Die) : (modDie s d f).offers = s.offers := rfl
@[simp] theorem modDie_segCopies (s : State) (d : Nat) (f : Die → Die) : (modDie s d f).segCopies = s.segCopies := rfl
@[simp] theorem modDie_scrubs (s : State) (d : Nat) (f : Die → Die) : (modDie s d f).scrubs = s.scrubs := rfl
@[simp] theorem modDie_hostReply (s : State) (d : Nat) (f : Die → Die) : (modDie s d f).hostReply = s.hostReply := rfl
@[simp] theorem modDie_peerReply (s : State) (d : Nat) (f : Die → Die) : (modDie s d f).peerReply = s.peerReply := rfl
@[simp] theorem modDie_peerUndo (s : State) (d : Nat) (f : Die → Die) : (modDie s d f).peerUndo = s.peerUndo := rfl
@[simp] theorem modDie_handovers (s : State) (d : Nat) (f : Die → Die) : (modDie s d f).handovers = s.handovers := rfl
@[simp] theorem modDie_frames (s : State) (d : Nat) (f : Die → Die) : (modDie s d f).frames = s.frames := rfl
@[simp] theorem modDie_synced (s : State) (d : Nat) (f : Die → Die) : (modDie s d f).synced = s.synced := rfl
@[simp] theorem modDie_ptmLast (s : State) (d : Nat) (f : Die → Die) : (modDie s d f).ptmLast = s.ptmLast := rfl
@[simp] theorem modDie_slew (s : State) (d : Nat) (f : Die → Die) : (modDie s d f).slew = s.slew := rfl
@[simp] theorem modDie_slewFast (s : State) (d : Nat) (f : Die → Die) : (modDie s d f).slewFast = s.slewFast := rfl
@[simp] theorem modDie_timeAdj (s : State) (d : Nat) (f : Die → Die) : (modDie s d f).timeAdj = s.timeAdj := rfl
@[simp] theorem modDie_now (s : State) (d : Nat) (f : Die → Die) : (modDie s d f).now = s.now := rfl
@[simp] theorem modDie_nextId (s : State) (d : Nat) (f : Die → Die) : (modDie s d f).nextId = s.nextId := rfl
@[simp] theorem modDie_free (s : State) (d : Nat) (f : Die → Die) : (modDie s d f).free = s.free := rfl
@[simp] theorem modDie_agenda (s : State) (d : Nat) (f : Die → Die) : (modDie s d f).agenda = s.agenda := rfl
@[simp] theorem modDie_cur (s : State) (d : Nat) (f : Die → Die) : (modDie s d f).cur = s.cur := rfl

/-! `sign` changes cur and nothing else. -/

@[simp] theorem sign_mem (s : State) (a b c : Nat) : (sign s a b c).mem = s.mem := rfl
@[simp] theorem sign_ext (s : State) (a b c : Nat) : (sign s a b c).ext = s.ext := rfl
@[simp] theorem sign_poison (s : State) (a b c : Nat) : (sign s a b c).poison = s.poison := rfl
@[simp] theorem sign_tags (s : State) (a b c : Nat) : (sign s a b c).tags = s.tags := rfl
@[simp] theorem sign_cores (s : State) (a b c : Nat) : (sign s a b c).cores = s.cores := rfl
@[simp] theorem sign_groups (s : State) (a b c : Nat) : (sign s a b c).groups = s.groups := rfl
@[simp] theorem sign_dom (s : State) (a b c : Nat) : (sign s a b c).dom = s.dom := rfl
@[simp] theorem sign_sealedDom (s : State) (a b c : Nat) : (sign s a b c).sealedDom = s.sealedDom := rfl
@[simp] theorem sign_cutDom (s : State) (a b c : Nat) : (sign s a b c).cutDom = s.cutDom := rfl
@[simp] theorem sign_dies (s : State) (a b c : Nat) : (sign s a b c).dies = s.dies := rfl
@[simp] theorem sign_queues (s : State) (a b c : Nat) : (sign s a b c).queues = s.queues := rfl
@[simp] theorem sign_feLast (s : State) (a b c : Nat) : (sign s a b c).feLast = s.feLast := rfl
@[simp] theorem sign_pkg (s : State) (a b c : Nat) : (sign s a b c).pkg = s.pkg := rfl
@[simp] theorem sign_seals (s : State) (a b c : Nat) : (sign s a b c).seals = s.seals := rfl
@[simp] theorem sign_journal (s : State) (a b c : Nat) : (sign s a b c).journal = s.journal := rfl
@[simp] theorem sign_tlb (s : State) (a b c : Nat) : (sign s a b c).tlb = s.tlb := rfl
@[simp] theorem sign_globals (s : State) (a b c : Nat) : (sign s a b c).globals = s.globals := rfl
@[simp] theorem sign_inFlight (s : State) (a b c : Nat) : (sign s a b c).inFlight = s.inFlight := rfl
@[simp] theorem sign_bankReqs (s : State) (a b c : Nat) : (sign s a b c).bankReqs = s.bankReqs := rfl
@[simp] theorem sign_bankUsed (s : State) (a b c : Nat) : (sign s a b c).bankUsed = s.bankUsed := rfl
@[simp] theorem sign_gather (s : State) (a b c : Nat) : (sign s a b c).gather = s.gather := rfl
@[simp] theorem sign_arrivals (s : State) (a b c : Nat) : (sign s a b c).arrivals = s.arrivals := rfl
@[simp] theorem sign_marks (s : State) (a b c : Nat) : (sign s a b c).marks = s.marks := rfl
@[simp] theorem sign_starts (s : State) (a b c : Nat) : (sign s a b c).starts = s.starts := rfl
@[simp] theorem sign_lateArrivals (s : State) (a b c : Nat) : (sign s a b c).lateArrivals = s.lateArrivals := rfl
@[simp] theorem sign_offers (s : State) (a b c : Nat) : (sign s a b c).offers = s.offers := rfl
@[simp] theorem sign_segCopies (s : State) (a b c : Nat) : (sign s a b c).segCopies = s.segCopies := rfl
@[simp] theorem sign_scrubs (s : State) (a b c : Nat) : (sign s a b c).scrubs = s.scrubs := rfl
@[simp] theorem sign_hostReply (s : State) (a b c : Nat) : (sign s a b c).hostReply = s.hostReply := rfl
@[simp] theorem sign_peerReply (s : State) (a b c : Nat) : (sign s a b c).peerReply = s.peerReply := rfl
@[simp] theorem sign_peerUndo (s : State) (a b c : Nat) : (sign s a b c).peerUndo = s.peerUndo := rfl
@[simp] theorem sign_handovers (s : State) (a b c : Nat) : (sign s a b c).handovers = s.handovers := rfl
@[simp] theorem sign_frames (s : State) (a b c : Nat) : (sign s a b c).frames = s.frames := rfl
@[simp] theorem sign_synced (s : State) (a b c : Nat) : (sign s a b c).synced = s.synced := rfl
@[simp] theorem sign_ptmLast (s : State) (a b c : Nat) : (sign s a b c).ptmLast = s.ptmLast := rfl
@[simp] theorem sign_slew (s : State) (a b c : Nat) : (sign s a b c).slew = s.slew := rfl
@[simp] theorem sign_slewFast (s : State) (a b c : Nat) : (sign s a b c).slewFast = s.slewFast := rfl
@[simp] theorem sign_timeAdj (s : State) (a b c : Nat) : (sign s a b c).timeAdj = s.timeAdj := rfl
@[simp] theorem sign_now (s : State) (a b c : Nat) : (sign s a b c).now = s.now := rfl
@[simp] theorem sign_nextId (s : State) (a b c : Nat) : (sign s a b c).nextId = s.nextId := rfl
@[simp] theorem sign_free (s : State) (a b c : Nat) : (sign s a b c).free = s.free := rfl
@[simp] theorem sign_agenda (s : State) (a b c : Nat) : (sign s a b c).agenda = s.agenda := rfl

/-! `transfer` changes cur and nothing else. -/

@[simp] theorem transfer_mem (s : State) (t : Word) : (transfer s t).mem = s.mem := rfl
@[simp] theorem transfer_ext (s : State) (t : Word) : (transfer s t).ext = s.ext := rfl
@[simp] theorem transfer_poison (s : State) (t : Word) : (transfer s t).poison = s.poison := rfl
@[simp] theorem transfer_tags (s : State) (t : Word) : (transfer s t).tags = s.tags := rfl
@[simp] theorem transfer_cores (s : State) (t : Word) : (transfer s t).cores = s.cores := rfl
@[simp] theorem transfer_groups (s : State) (t : Word) : (transfer s t).groups = s.groups := rfl
@[simp] theorem transfer_dom (s : State) (t : Word) : (transfer s t).dom = s.dom := rfl
@[simp] theorem transfer_sealedDom (s : State) (t : Word) : (transfer s t).sealedDom = s.sealedDom := rfl
@[simp] theorem transfer_cutDom (s : State) (t : Word) : (transfer s t).cutDom = s.cutDom := rfl
@[simp] theorem transfer_dies (s : State) (t : Word) : (transfer s t).dies = s.dies := rfl
@[simp] theorem transfer_queues (s : State) (t : Word) : (transfer s t).queues = s.queues := rfl
@[simp] theorem transfer_feLast (s : State) (t : Word) : (transfer s t).feLast = s.feLast := rfl
@[simp] theorem transfer_pkg (s : State) (t : Word) : (transfer s t).pkg = s.pkg := rfl
@[simp] theorem transfer_seals (s : State) (t : Word) : (transfer s t).seals = s.seals := rfl
@[simp] theorem transfer_journal (s : State) (t : Word) : (transfer s t).journal = s.journal := rfl
@[simp] theorem transfer_tlb (s : State) (t : Word) : (transfer s t).tlb = s.tlb := rfl
@[simp] theorem transfer_globals (s : State) (t : Word) : (transfer s t).globals = s.globals := rfl
@[simp] theorem transfer_inFlight (s : State) (t : Word) : (transfer s t).inFlight = s.inFlight := rfl
@[simp] theorem transfer_bankReqs (s : State) (t : Word) : (transfer s t).bankReqs = s.bankReqs := rfl
@[simp] theorem transfer_bankUsed (s : State) (t : Word) : (transfer s t).bankUsed = s.bankUsed := rfl
@[simp] theorem transfer_gather (s : State) (t : Word) : (transfer s t).gather = s.gather := rfl
@[simp] theorem transfer_arrivals (s : State) (t : Word) : (transfer s t).arrivals = s.arrivals := rfl
@[simp] theorem transfer_marks (s : State) (t : Word) : (transfer s t).marks = s.marks := rfl
@[simp] theorem transfer_starts (s : State) (t : Word) : (transfer s t).starts = s.starts := rfl
@[simp] theorem transfer_lateArrivals (s : State) (t : Word) : (transfer s t).lateArrivals = s.lateArrivals := rfl
@[simp] theorem transfer_offers (s : State) (t : Word) : (transfer s t).offers = s.offers := rfl
@[simp] theorem transfer_segCopies (s : State) (t : Word) : (transfer s t).segCopies = s.segCopies := rfl
@[simp] theorem transfer_scrubs (s : State) (t : Word) : (transfer s t).scrubs = s.scrubs := rfl
@[simp] theorem transfer_hostReply (s : State) (t : Word) : (transfer s t).hostReply = s.hostReply := rfl
@[simp] theorem transfer_peerReply (s : State) (t : Word) : (transfer s t).peerReply = s.peerReply := rfl
@[simp] theorem transfer_peerUndo (s : State) (t : Word) : (transfer s t).peerUndo = s.peerUndo := rfl
@[simp] theorem transfer_handovers (s : State) (t : Word) : (transfer s t).handovers = s.handovers := rfl
@[simp] theorem transfer_frames (s : State) (t : Word) : (transfer s t).frames = s.frames := rfl
@[simp] theorem transfer_synced (s : State) (t : Word) : (transfer s t).synced = s.synced := rfl
@[simp] theorem transfer_ptmLast (s : State) (t : Word) : (transfer s t).ptmLast = s.ptmLast := rfl
@[simp] theorem transfer_slew (s : State) (t : Word) : (transfer s t).slew = s.slew := rfl
@[simp] theorem transfer_slewFast (s : State) (t : Word) : (transfer s t).slewFast = s.slewFast := rfl
@[simp] theorem transfer_timeAdj (s : State) (t : Word) : (transfer s t).timeAdj = s.timeAdj := rfl
@[simp] theorem transfer_now (s : State) (t : Word) : (transfer s t).now = s.now := rfl
@[simp] theorem transfer_nextId (s : State) (t : Word) : (transfer s t).nextId = s.nextId := rfl
@[simp] theorem transfer_free (s : State) (t : Word) : (transfer s t).free = s.free := rfl
@[simp] theorem transfer_agenda (s : State) (t : Word) : (transfer s t).agenda = s.agenda := rfl

/-! `issueResult` changes cores, cur and nothing else. -/

@[simp] theorem issueResult_mem (s : State) (lat slot : Nat) (l : Option Latched) (ds : List Dest) (fl : Word) (bad : Bool) : (issueResult s lat slot l ds fl bad).mem = s.mem := rfl
@[simp] theorem issueResult_ext (s : State) (lat slot : Nat) (l : Option Latched) (ds : List Dest) (fl : Word) (bad : Bool) : (issueResult s lat slot l ds fl bad).ext = s.ext := rfl
@[simp] theorem issueResult_poison (s : State) (lat slot : Nat) (l : Option Latched) (ds : List Dest) (fl : Word) (bad : Bool) : (issueResult s lat slot l ds fl bad).poison = s.poison := rfl
@[simp] theorem issueResult_tags (s : State) (lat slot : Nat) (l : Option Latched) (ds : List Dest) (fl : Word) (bad : Bool) : (issueResult s lat slot l ds fl bad).tags = s.tags := rfl
@[simp] theorem issueResult_groups (s : State) (lat slot : Nat) (l : Option Latched) (ds : List Dest) (fl : Word) (bad : Bool) : (issueResult s lat slot l ds fl bad).groups = s.groups := rfl
@[simp] theorem issueResult_dom (s : State) (lat slot : Nat) (l : Option Latched) (ds : List Dest) (fl : Word) (bad : Bool) : (issueResult s lat slot l ds fl bad).dom = s.dom := rfl
@[simp] theorem issueResult_sealedDom (s : State) (lat slot : Nat) (l : Option Latched) (ds : List Dest) (fl : Word) (bad : Bool) : (issueResult s lat slot l ds fl bad).sealedDom = s.sealedDom := rfl
@[simp] theorem issueResult_cutDom (s : State) (lat slot : Nat) (l : Option Latched) (ds : List Dest) (fl : Word) (bad : Bool) : (issueResult s lat slot l ds fl bad).cutDom = s.cutDom := rfl
@[simp] theorem issueResult_dies (s : State) (lat slot : Nat) (l : Option Latched) (ds : List Dest) (fl : Word) (bad : Bool) : (issueResult s lat slot l ds fl bad).dies = s.dies := rfl
@[simp] theorem issueResult_queues (s : State) (lat slot : Nat) (l : Option Latched) (ds : List Dest) (fl : Word) (bad : Bool) : (issueResult s lat slot l ds fl bad).queues = s.queues := rfl
@[simp] theorem issueResult_feLast (s : State) (lat slot : Nat) (l : Option Latched) (ds : List Dest) (fl : Word) (bad : Bool) : (issueResult s lat slot l ds fl bad).feLast = s.feLast := rfl
@[simp] theorem issueResult_pkg (s : State) (lat slot : Nat) (l : Option Latched) (ds : List Dest) (fl : Word) (bad : Bool) : (issueResult s lat slot l ds fl bad).pkg = s.pkg := rfl
@[simp] theorem issueResult_seals (s : State) (lat slot : Nat) (l : Option Latched) (ds : List Dest) (fl : Word) (bad : Bool) : (issueResult s lat slot l ds fl bad).seals = s.seals := rfl
@[simp] theorem issueResult_journal (s : State) (lat slot : Nat) (l : Option Latched) (ds : List Dest) (fl : Word) (bad : Bool) : (issueResult s lat slot l ds fl bad).journal = s.journal := rfl
@[simp] theorem issueResult_tlb (s : State) (lat slot : Nat) (l : Option Latched) (ds : List Dest) (fl : Word) (bad : Bool) : (issueResult s lat slot l ds fl bad).tlb = s.tlb := rfl
@[simp] theorem issueResult_globals (s : State) (lat slot : Nat) (l : Option Latched) (ds : List Dest) (fl : Word) (bad : Bool) : (issueResult s lat slot l ds fl bad).globals = s.globals := rfl
@[simp] theorem issueResult_inFlight (s : State) (lat slot : Nat) (l : Option Latched) (ds : List Dest) (fl : Word) (bad : Bool) : (issueResult s lat slot l ds fl bad).inFlight = s.inFlight := rfl
@[simp] theorem issueResult_bankReqs (s : State) (lat slot : Nat) (l : Option Latched) (ds : List Dest) (fl : Word) (bad : Bool) : (issueResult s lat slot l ds fl bad).bankReqs = s.bankReqs := rfl
@[simp] theorem issueResult_bankUsed (s : State) (lat slot : Nat) (l : Option Latched) (ds : List Dest) (fl : Word) (bad : Bool) : (issueResult s lat slot l ds fl bad).bankUsed = s.bankUsed := rfl
@[simp] theorem issueResult_gather (s : State) (lat slot : Nat) (l : Option Latched) (ds : List Dest) (fl : Word) (bad : Bool) : (issueResult s lat slot l ds fl bad).gather = s.gather := rfl
@[simp] theorem issueResult_arrivals (s : State) (lat slot : Nat) (l : Option Latched) (ds : List Dest) (fl : Word) (bad : Bool) : (issueResult s lat slot l ds fl bad).arrivals = s.arrivals := rfl
@[simp] theorem issueResult_marks (s : State) (lat slot : Nat) (l : Option Latched) (ds : List Dest) (fl : Word) (bad : Bool) : (issueResult s lat slot l ds fl bad).marks = s.marks := rfl
@[simp] theorem issueResult_starts (s : State) (lat slot : Nat) (l : Option Latched) (ds : List Dest) (fl : Word) (bad : Bool) : (issueResult s lat slot l ds fl bad).starts = s.starts := rfl
@[simp] theorem issueResult_lateArrivals (s : State) (lat slot : Nat) (l : Option Latched) (ds : List Dest) (fl : Word) (bad : Bool) : (issueResult s lat slot l ds fl bad).lateArrivals = s.lateArrivals := rfl
@[simp] theorem issueResult_offers (s : State) (lat slot : Nat) (l : Option Latched) (ds : List Dest) (fl : Word) (bad : Bool) : (issueResult s lat slot l ds fl bad).offers = s.offers := rfl
@[simp] theorem issueResult_segCopies (s : State) (lat slot : Nat) (l : Option Latched) (ds : List Dest) (fl : Word) (bad : Bool) : (issueResult s lat slot l ds fl bad).segCopies = s.segCopies := rfl
@[simp] theorem issueResult_scrubs (s : State) (lat slot : Nat) (l : Option Latched) (ds : List Dest) (fl : Word) (bad : Bool) : (issueResult s lat slot l ds fl bad).scrubs = s.scrubs := rfl
@[simp] theorem issueResult_hostReply (s : State) (lat slot : Nat) (l : Option Latched) (ds : List Dest) (fl : Word) (bad : Bool) : (issueResult s lat slot l ds fl bad).hostReply = s.hostReply := rfl
@[simp] theorem issueResult_peerReply (s : State) (lat slot : Nat) (l : Option Latched) (ds : List Dest) (fl : Word) (bad : Bool) : (issueResult s lat slot l ds fl bad).peerReply = s.peerReply := rfl
@[simp] theorem issueResult_peerUndo (s : State) (lat slot : Nat) (l : Option Latched) (ds : List Dest) (fl : Word) (bad : Bool) : (issueResult s lat slot l ds fl bad).peerUndo = s.peerUndo := rfl
@[simp] theorem issueResult_handovers (s : State) (lat slot : Nat) (l : Option Latched) (ds : List Dest) (fl : Word) (bad : Bool) : (issueResult s lat slot l ds fl bad).handovers = s.handovers := rfl
@[simp] theorem issueResult_frames (s : State) (lat slot : Nat) (l : Option Latched) (ds : List Dest) (fl : Word) (bad : Bool) : (issueResult s lat slot l ds fl bad).frames = s.frames := rfl
@[simp] theorem issueResult_synced (s : State) (lat slot : Nat) (l : Option Latched) (ds : List Dest) (fl : Word) (bad : Bool) : (issueResult s lat slot l ds fl bad).synced = s.synced := rfl
@[simp] theorem issueResult_ptmLast (s : State) (lat slot : Nat) (l : Option Latched) (ds : List Dest) (fl : Word) (bad : Bool) : (issueResult s lat slot l ds fl bad).ptmLast = s.ptmLast := rfl
@[simp] theorem issueResult_slew (s : State) (lat slot : Nat) (l : Option Latched) (ds : List Dest) (fl : Word) (bad : Bool) : (issueResult s lat slot l ds fl bad).slew = s.slew := rfl
@[simp] theorem issueResult_slewFast (s : State) (lat slot : Nat) (l : Option Latched) (ds : List Dest) (fl : Word) (bad : Bool) : (issueResult s lat slot l ds fl bad).slewFast = s.slewFast := rfl
@[simp] theorem issueResult_timeAdj (s : State) (lat slot : Nat) (l : Option Latched) (ds : List Dest) (fl : Word) (bad : Bool) : (issueResult s lat slot l ds fl bad).timeAdj = s.timeAdj := rfl
@[simp] theorem issueResult_now (s : State) (lat slot : Nat) (l : Option Latched) (ds : List Dest) (fl : Word) (bad : Bool) : (issueResult s lat slot l ds fl bad).now = s.now := rfl
@[simp] theorem issueResult_nextId (s : State) (lat slot : Nat) (l : Option Latched) (ds : List Dest) (fl : Word) (bad : Bool) : (issueResult s lat slot l ds fl bad).nextId = s.nextId := rfl
@[simp] theorem issueResult_free (s : State) (lat slot : Nat) (l : Option Latched) (ds : List Dest) (fl : Word) (bad : Bool) : (issueResult s lat slot l ds fl bad).free = s.free := rfl
@[simp] theorem issueResult_agenda (s : State) (lat slot : Nat) (l : Option Latched) (ds : List Dest) (fl : Word) (bad : Bool) : (issueResult s lat slot l ds fl bad).agenda = s.agenda := rfl

/-! Reading back. -/

@[simp] theorem coreOf_setCore_self (s : State) (id : Nat) (c : Core) : coreOf (setCore s id c) id = c :=
  lookup_assign_self

theorem coreOf_setCore_of_ne (s : State) {id other : Nat} (c : Core) (h : other ≠ id) :
    coreOf (setCore s id c) other = coreOf s other := lookup_assign_of_ne h

@[simp] theorem coreOf_modCore_self (s : State) (id : Nat) (f : Core → Core) :
    coreOf (modCore s id f) id = f (coreOf s id) := lookup_assign_self

theorem coreOf_modCore_of_ne (s : State) {id other : Nat} (f : Core → Core) (h : other ≠ id) :
    coreOf (modCore s id f) other = coreOf s other := lookup_assign_of_ne h

@[simp] theorem taskOf_modTask_self (s : State) (id : Nat) (f : Task → Task) :
    taskOf (modTask s id f) id = f (taskOf s id) := by simp [taskOf, modTask]

theorem coreOf_modTask_of_ne (s : State) {id other : Nat} (f : Task → Task) (h : other ≠ id) :
    coreOf (modTask s id f) other = coreOf s other := coreOf_modCore_of_ne s _ h

@[simp] theorem curTask_modCur (s : State) (f : Task → Task) : curTask (modCur s f) = f (curTask s) := by
  simp [curTask, modCur]

@[simp] theorem barrierOf_setBarrier_self (s : State) (c b : Nat) (x : Barrier) :
    barrierOf (setBarrier s c b x) c b = x := lookup_assign_self

@[simp] theorem sorusOf_modSorus_self (s : State) (c : Nat) (f : Sorus → Sorus) :
    sorusOf (modSorus s c f) c = f (sorusOf s c) := lookup_assign_self

@[simp] theorem issueResult_pend (s : State) (lat slot : Nat) (l : Option Latched) (ds : List Dest) (fl : Word) (bad : Bool) :
    (curTask (issueResult s lat slot l ds fl bad)).pend =
      (curTask s).pend ++ [⟨s.cur.cycle + lat, slot, (curTask s).order, l, ds, fl, bad⟩] := by
  unfold issueResult
  rw [curTask_modCur]
  rfl

end Sys2Proof.Machine
end

