-- ==== Sys2Proof/Laws/Ops.lean ====
section
/-! SUPPORT. What each shared operation can do, said once: the ways an operation issues, and that every operation that
writes memory keeps it in its canonical form. -/

namespace Sys2Proof.Machine

open Sys2Proof

/-! Issue. -/

/-- Whatever an operation does at issue, it answers a next state: its effect, the exception it takes, a pause, or nothing. -/
theorem issue_cases (i : Instr) (s : State) (eff : State → State) :
    ∃ t, issue i s eff = .next t ∧
      ((issues i s = true ∧ t = eff s) ∨
        (∃ st, stopOf i s = some st ∧ s.cur.checked = false ∧ t = stopAtIssue s st) ∨
        (∃ code, holdOf i s = some code ∧ guarded s i = true ∧ s.cur.checked = false ∧ t = pauseGroup s s.cur.gid code) ∨
        (guarded s i = false ∧ t = s)) := by
  unfold issue issues
  cases hc : s.cur.checked <;> cases hg : guarded s i <;> simp
  · cases hs : stopOf i s <;> simp
  · cases hs : stopOf i s <;> simp
    cases hh : holdOf i s <;> simp

/-- An operation that issues has its effect. -/
theorem issue_of_issues {i : Instr} {s : State} (eff : State → State) (h : issues i s = true) :
    issue i s eff = .next (eff s) := by
  unfold issues at h
  unfold issue
  cases hc : s.cur.checked
  · simp only [hc, Bool.false_or, Bool.and_eq_true, Option.isNone_iff_eq_none] at h
    simp [h.1, h.2.1, h.2.2]
  · simp only [hc, Bool.true_or, Bool.and_true] at h
    simp [h]

/-- An operation that meets a stop takes the exception the stop names. -/
theorem issue_of_stop {i : Instr} {s : State} (eff : State → State) {st : Stop} (hc : s.cur.checked = false)
    (h : stopOf i s = some st) : issue i s eff = .next (stopAtIssue s st) := by
  simp [issue, hc, h]

/-- Under a false guard an operation whose form is legal does nothing. -/
theorem issue_of_false {i : Instr} {s : State} (eff : State → State) (hg : guarded s i = false)
    (h : s.cur.checked = true ∨ stopOf i s = none) : issue i s eff = .next s := by
  unfold issue
  rcases h with h | h <;> simp [hg, h]

/-! Memory keeps its canonical form. -/

/-- A property that each item of a fold keeps is kept by the fold. -/
theorem foldl_keeps {α β : Type} (P : α → Prop) (f : α → β → α) (h : ∀ a b, P a → P (f a b)) (l : List β) (a : α)
    (ha : P a) : P (l.foldl f a) := by
  induction l generalizing a with
  | nil => exact ha
  | cons b l ih => exact ih _ (h a b ha)

variable {s : State}

theorem storeRaw_wf (pa : Nat) (bs : List Byte) (h : Memory.wf s.mem) : Memory.wf (storeRaw s pa bs).mem := by
  unfold storeRaw
  dsimp only
  split
  · exact writeCells_wf h
  · exact h

theorem putRecord_wf (core type : Nat) (baddr : Word) (scyc payload : Nat) (h : Memory.wf s.mem) :
    Memory.wf (putRecord s core type baddr scyc payload).mem := storeRaw_wf _ _ h

theorem trace_wf (core type : Nat) (baddr : Word) (scyc payload : Nat) (h : Memory.wf s.mem) :
    Memory.wf (trace s core type baddr scyc payload).mem := by
  unfold trace
  split
  · exact h
  · split
    · exact h
    · refine putRecord_wf _ _ _ _ _ ?_
      split
      · exact h
      · exact putRecord_wf _ _ _ _ _ h

theorem requestSeal_wf (h : Memory.wf s.mem) : Memory.wf (requestSeal s).mem := by
  unfold requestSeal
  split
  · exact h
  · split
    · exact trace_wf _ _ _ _ _ h
    all_goals exact h

@[simp] theorem entangle_mem (f l : Nat) : (entangle s f l).mem = s.mem := by
  unfold entangle; split <;> rfl

@[simp] theorem boundRegion_mem (f l : Nat) : (boundRegion s f l).mem = s.mem := by
  unfold boundRegion; split <;> simp

theorem afterAppend_wf (d : Nat) (h : Memory.wf s.mem) : Memory.wf (afterAppend s d).mem := by
  unfold afterAppend
  split
  · exact requestSeal_wf h
  · exact h

theorem logRegion_wf (w : Writer) (line : Nat) (h : Memory.wf s.mem) : Memory.wf (logRegion s w line).mem := by
  unfold logRegion
  refine foldl_keeps (fun t : State => Memory.wf t.mem) _ (fun a b h => by simpa using h) _ _ ?_
  cases w with
  | other => exact h
  | region f l c =>
    dsimp only
    split
    · exact h
    · exact afterAppend_wf _ (by simpa using h)

theorem logInterval_wf (line : Nat) (h : Memory.wf s.mem) : Memory.wf (logInterval s line).mem := by
  simp only [logInterval]
  split
  · exact h
  · apply afterAppend_wf
    rw [modDie_mem]
    exact h

@[simp] theorem requestRollback_mem : (requestRollback s).mem = s.mem := rfl

@[simp] theorem entangleWriter_mem (w : Writer) : (entangleWriter s w).mem = s.mem := by
  cases w with
  | other => rfl
  | region f l c => exact entangle_mem f l

theorem store_wf (w : Writer) (pa : Nat) (bs : List Byte) (h : Memory.wf s.mem) : Memory.wf (store s w pa bs).mem := by
  unfold store
  dsimp only
  split
  · split
    · simpa using h
    · exact storeRaw_wf _ _ (foldl_keeps (fun t : State => Memory.wf t.mem) _
        (fun a b h => logInterval_wf _ (logRegion_wf _ _ h)) _ _ h)
  · split
    · exact storeRaw_wf _ _ (foldl_keeps (fun t : State => Memory.wf t.mem) _ (fun _ _ h => logRegion_wf _ _ h) _ _ h)
    · exact storeRaw_wf _ _ (by rw [entangleWriter_mem]; exact h)

theorem markPoison_mem (pa : Nat) : (markPoison s pa).mem = s.mem := by
  unfold markPoison; dsimp only; split <;> rfl

theorem storePoison_wf (w : Writer) (pa : Nat) (bs : List Byte) (bad : Bool) (h : Memory.wf s.mem) :
    Memory.wf (storePoison s w pa bs bad).mem := by
  unfold storePoison
  dsimp only
  split
  · exact foldl_keeps (fun t : State => Memory.wf t.mem) _ (fun a b h => by rw [markPoison_mem]; exact h) _ _
      (store_wf _ _ _ h)
  · exact store_wf _ _ _ h

@[simp] theorem forgetKept_mem (pa n : Nat) : (forgetKept s pa n).mem = s.mem := rfl

@[simp] theorem dropVeils_mem (pa n : Nat) : (dropVeils s pa n).mem = s.mem := by
  simp only [dropVeils]
  split <;> rfl

theorem storeTagged_wf (w : Writer) (pa : Nat) (bs : List Byte) (bad : List Bool) (h : Memory.wf s.mem) :
    Memory.wf (storeTagged s w pa bs bad).mem := by
  refine foldl_keeps (fun t : State => Memory.wf t.mem) _ (fun a x h => ?_) _ _ (store_wf _ _ _ (by simpa using h))
  rcases x with ⟨b, i⟩
  cases b
  · exact h
  · simpa [markPoison_mem] using h

@[simp] theorem noteOwnStore_mem (core pa n : Nat) : (noteOwnStore s core pa n).mem = s.mem := by
  simp [noteOwnStore]

theorem storeAll_wf (w : Writer) (pas : List Nat) (bs : List Byte) (h : Memory.wf s.mem) :
    Memory.wf (storeAll s w pas bs).mem :=
  foldl_keeps (fun t : State => Memory.wf t.mem) _ (fun _ _ h => store_wf _ _ _ h) _ _ h

theorem setFrondWord_wf {t : State} {cluster space ptr i : Nat} {v : Word} (h : Memory.wf s.mem)
    (ht : setFrondWord s cluster space ptr i v = some t) : Memory.wf t.mem := by
  unfold setFrondWord at ht
  split at ht
  · cases ht; exact storeAll_wf _ _ _ h
  · cases ht

/-! Remote accesses keep memory in its canonical form. -/

@[simp] theorem dropRequests_mem (cls owner : Nat) : (dropRequests s cls owner).mem = s.mem := rfl

@[simp] theorem twinDiverges_mem (g : Group) (rank : Nat) : (twinDiverges s g rank).mem = s.mem := by
  simp [twinDiverges]

@[simp] theorem noteTwinLoad_mem (core order : Nat) (items : List SigItem) :
    (noteTwinLoad s core order items).mem = s.mem := by
  unfold noteTwinLoad
  split
  · rfl
  · dsimp only
    split
    · rfl
    · split
      · simp
      · split <;> simp

theorem stores_wf {α : Type} (w : Writer) (place : α → Nat) (bytes : α → List Byte) (l : List α) (h : Memory.wf s.mem) :
    Memory.wf (l.foldl (fun s c => store (dropVeils s (place c) (bytes c).length) w (place c) (bytes c)) s).mem := by
  induction l generalizing s with
  | nil => exact h
  | cons c l ih => exact ih (store_wf _ _ _ (by rw [dropVeils_mem]; exact h))

theorem remoteEffect_wf (core : Nat) (r : RemoteAccess) (h : Memory.wf s.mem) :
    Memory.wf (remoteEffect s core r).mem := by
  unfold remoteEffect
  rcases r with ⟨due, order, issued, target, op, asked, acq, bound, early⟩
  cases op <;> dsimp only
  · exact h
  · split
    · exact h
    · exact stores_wf _ (fun c : Nat × List Byte => nearPA target c.1) Prod.snd _ h

theorem performRemote_wf (core : Nat) (r : RemoteAccess) (h : Memory.wf s.mem) :
    Memory.wf (performRemote s core r).mem := by
  unfold performRemote
  dsimp only
  split
  · exact remoteEffect_wf _ _ (foldl_keeps (fun t : State => Memory.wf t.mem) _
      (fun _ _ h => by simpa [dropRemote] using h) _ _ (by simpa using h))
  · rw [noteTwinLoad_mem]
    exact remoteEffect_wf _ _ (by simpa [dropRemote] using h)

/-- The oldest remote access of a core waits, asks for its banks, or performs. -/
theorem serveRemote_cases (core : Nat) : serveRemote s core = s
    ∨ (∃ r f, r ∈ (taskOf s core).remotes ∧ r.asked = false ∧ serveRemote s core
        = modTask { s with bankReqs := s.bankReqs ++ requestsAt r.target 7 (remoteOwner core r.order) r.op.rows } core f)
    ∨ ∃ r, r ∈ (taskOf s core).remotes ∧ r.asked = true ∧ serveRemote s core = performRemote s core r := by
  unfold serveRemote
  split
  · exact .inl rfl
  · next r _ hr =>
    split
    · exact .inl rfl
    · split
      · next h => exact .inr (.inl ⟨r, _, by simp [hr], h, rfl⟩)
      · next h =>
        split
        · exact .inl rfl
        · exact .inr (.inr ⟨r, by simp [hr], by simpa using h, rfl⟩)

theorem serveRemote_wf (core : Nat) (h : Memory.wf s.mem) : Memory.wf (serveRemote s core).mem := by
  rcases serveRemote_cases (s := s) core with e | ⟨r, f, _, _, e⟩ | ⟨r, _, _, e⟩ <;> rw [e]
  · exact h
  · simpa using h
  · exact performRemote_wf _ _ h

theorem storesAfter_wf {α : Type} (w : Writer) (f : State → α → State) (place : α → Nat) (bytes : α → List Byte)
    (hf : ∀ s c, (f s c).mem = s.mem) (l : List α) (h : Memory.wf s.mem) :
    Memory.wf (l.foldl (fun s c => store (f s c) w (place c) (bytes c)) s).mem := by
  induction l generalizing s with
  | nil => exact h
  | cons c l ih => exact ih (store_wf _ _ _ (by rw [hf]; exact h))

theorem standEarly_wf (core now : Nat) (h : Memory.wf s.mem) : Memory.wf (standEarly s core now).mem := by
  unfold standEarly
  rw [modTask_mem]
  refine foldl_keeps (fun t : State => Memory.wf t.mem) _ (fun t r h => ?_) _ _ h
  rcases r with ⟨due, order, issued, target, op, asked, acq, bound, early⟩
  cases op with
  | load a sw fl d => exact h
  | store cs w => exact storesAfter_wf w _ (fun c => nearPA core c.1) Prod.snd (fun _ _ => modTask_mem _ _ _) cs h

theorem ownStands_wf (h : Memory.wf s.mem) : Memory.wf (ownStands s).mem := by
  unfold ownStands
  split
  · exact h
  · exact standEarly_wf _ _ h

/-- A store at scope 0 finds the state as it is. -/
theorem ownStands_scope_zero (h : s.cur.scope = 0) : ownStands s = s := by simp [ownStands, h]

theorem bindAcquires_wf (core : Nat) (h : Memory.wf s.mem) : Memory.wf (bindAcquires s core).mem := by
  unfold bindAcquires
  split
  · exact h
  · simpa using standEarly_wf _ _ h

/-- Results are delivered together, or a remote load that has fallen due holds them. -/
theorem deliverDue_cases (id cycle : Nat) : deliverDue s id cycle = s ∨ deliverDue s id cycle = deliverCore s id cycle := by
  unfold deliverDue
  split
  · exact .inl rfl
  · exact .inr rfl

/-- What a group takes at issue: it is vectored, or it stands stopped while something is still to complete. -/
theorem stopAtIssue_task {g : Group} (st : Stop) (hl : s.cur.lichen = false) (hg : curGroup s = some g) :
    let c : Cause := ⟨st.code, st.detail, [g.rankOf s.cur.core], some (st.tpc.getD s.cur.pc)⟩
    stopAtIssue s st = if drainsStill s g then stopGroup s g c else vector s g c := by
  simp [stopAtIssue, hl, hg]

/-! Reading memory after a store that is not logged. -/

@[simp] theorem homeOf_storeRaw (pa a : Nat) (bs : List Byte) : homeOf (storeRaw s pa bs) a = homeOf s a := by
  unfold storeRaw
  dsimp only
  split <;> rfl

/-- A byte of memory stored reads as stored. -/
theorem readByte_storeRaw_self {pa i : Nat} {bs : List Byte} (hi : i < bs.length) (h : homeOf s pa / 2 ^ 48 < 3)
    (ha : homeOf s (pa + i) = homeOf s pa + i) (hr : (homeOf s pa + i) / 2 ^ 48 < 3) :
    readByte (storeRaw s pa bs) (pa + i) = bs.getD i 0 := by
  unfold readByte
  rw [homeOf_storeRaw, ha]
  simp only [hr, if_true]
  unfold storeRaw
  simp only [h, if_true]
  exact readCell_writeCells_of_inside hi

/-- A byte of memory outside a store reads as before. -/
theorem readByte_storeRaw_outside {pa a : Nat} {bs : List Byte} (h : homeOf s pa / 2 ^ 48 < 3) (hr : homeOf s a / 2 ^ 48 < 3)
    (ho : homeOf s a < homeOf s pa ∨ homeOf s pa + bs.length ≤ homeOf s a) :
    readByte (storeRaw s pa bs) a = readByte s a := by
  unfold readByte
  rw [homeOf_storeRaw]
  simp only [hr, if_true]
  unfold storeRaw
  simp only [h, if_true]
  exact readCell_writeCells_of_outside ho

end Sys2Proof.Machine
end

