-- ==== Sys2Proof/Laws/PerInstr.lean ====
section
/-! SUPPORT. A statement per instruction, as syntax: the queue heads it names are those of the eight queues
(R149, R151). -/

namespace Sys2Proof.Laws

/-- Every queue head the instruction reads is one of q0 to q7 (R149, R151). -/
def Heads.Statement (i : Instr) : Prop := ∀ q ∈ i.queueHeads, q < 8

theorem head_of_scalar (x : SSrc) : ∀ q ∈ Instr.queueHeads.s x, q < 8 := by
  cases x <;> simp [Instr.queueHeads.s]

theorem head_of_vector (x : VSrc) : ∀ q ∈ Instr.queueHeads.v x, q < 8 := by
  cases x <;> simp [Instr.queueHeads.v]

theorem heads_of_scalars (x y : SSrc) : ∀ q ∈ Instr.queueHeads.s x ++ Instr.queueHeads.s y, q < 8 := fun q h =>
  (List.mem_append.mp h).elim (head_of_scalar x q) (head_of_scalar y q)

theorem heads_of_vectors (x y : VSrc) : ∀ q ∈ Instr.queueHeads.v x ++ Instr.queueHeads.v y, q < 8 := fun q h =>
  (List.mem_append.mp h).elim (head_of_vector x q) (head_of_vector y q)

theorem Heads.jmp (g : Guard) (disp : BitVec 21) :
    Heads.Statement (.jmp g disp) := fun _ h => nomatch h

theorem Heads.jmpl (g : Guard) (target : Word) :
    Heads.Statement (.jmpl g target) := fun _ h => nomatch h

theorem Heads.jr (g : Guard) (s : Fin 16) :
    Heads.Statement (.jr g s) := fun _ h => nomatch h

theorem Heads.call (g : Guard) (disp : BitVec 21) :
    Heads.Statement (.call g disp) := fun _ h => nomatch h

theorem Heads.calll (g : Guard) (target : Word) :
    Heads.Statement (.calll g target) := fun _ h => nomatch h

theorem Heads.ret (g : Guard) :
    Heads.Statement (.ret g) := fun _ h => nomatch h

theorem Heads.mbr (g : Guard) (shape : Fin 8) (q0 : Fin 16) (q1 : Fin 16) (q2 : Fin 16) (q3 : Fin 16) (t0 : BitVec 16) (t1 : BitVec 16) (t2 : BitVec 16) (t3 : BitVec 16) :
    Heads.Statement (.mbr g shape q0 q1 q2 q3 t0 t1 t2 t3) := fun _ h => nomatch h

theorem Heads.loop (g : Guard) (c : Fin 16) (exit : BitVec 17) :
    Heads.Statement (.loop g c exit) := fun _ h => nomatch h

theorem Heads.loopi (g : Guard) (exit : BitVec 17) (count : Word) :
    Heads.Statement (.loopi g exit count) := fun _ h => nomatch h

theorem Heads.lexit (g : Guard) :
    Heads.Statement (.lexit g) := fun _ h => nomatch h

theorem Heads.susp (g : Guard) (t : Fin 16) (w : Option (Fin 4)) :
    Heads.Statement (.susp g t w) := fun _ h => nomatch h

theorem Heads.suspTarget (g : Guard) (target : Word) (w : Option (Fin 4)) :
    Heads.Statement (.suspTarget g target w) := fun _ h => nomatch h

theorem Heads.endTask (g : Guard) :
    Heads.Statement (.endTask g) := fun _ h => nomatch h

theorem Heads.spawn (g : Guard) (p : Fin 16) (c : Fin 16) :
    Heads.Statement (.spawn g p c) := fun _ h => nomatch h

theorem Heads.spawnn (g : Guard) (p : Fin 16) (c : Fin 16) (n : Fin 16) :
    Heads.Statement (.spawnn g p c n) := fun _ h => nomatch h

theorem Heads.setfmt (g : Guard) (s : Fin 16) :
    Heads.Statement (.setfmt g s) := fun _ h => nomatch h

theorem Heads.setfmtValue (g : Guard) (value : Word) :
    Heads.Statement (.setfmtValue g value) := fun _ h => nomatch h

theorem Heads.qwait (g : Guard) :
    Heads.Statement (.qwait g) := fun _ h => nomatch h

theorem Heads.drain (g : Guard) :
    Heads.Statement (.drain g) := fun _ h => nomatch h

theorem Heads.trap (g : Guard) (code : BitVec 16) :
    Heads.Statement (.trap g code) := fun _ h => nomatch h

theorem Heads.rft (g : Guard) (s : Fin 16) :
    Heads.Statement (.rft g s) := fun _ h => nomatch h

theorem Heads.csrr (g : Guard) (d : Fin 16) (csr : BitVec 12) :
    Heads.Statement (.csrr g d csr) := fun _ h => nomatch h

theorem Heads.csrw (g : Guard) (s : Fin 16) (csr : BitVec 12) :
    Heads.Statement (.csrw g s csr) := fun _ h => nomatch h

theorem Heads.csrwValue (g : Guard) (csr : BitVec 12) (value : Word) :
    Heads.Statement (.csrwValue g csr value) := fun _ h => nomatch h

theorem Heads.rgopen (g : Guard) (disp : BitVec 17) :
    Heads.Statement (.rgopen g disp) := fun _ h => nomatch h

theorem Heads.rgclose (g : Guard) :
    Heads.Statement (.rgclose g) := fun _ h => nomatch h

theorem Heads.seal (g : Guard) :
    Heads.Statement (.seal g) := fun _ h => nomatch h

theorem Heads.irrev (g : Guard) (t : Fin 16) :
    Heads.Statement (.irrev g t) := fun _ h => nomatch h

theorem Heads.irrevTarget (g : Guard) (target : Word) :
    Heads.Statement (.irrevTarget g target) := fun _ h => nomatch h

theorem Heads.lshare (g : Guard) (share : BitVec 7) :
    Heads.Statement (.lshare g share) := fun _ h => nomatch h

theorem Heads.brk (g : Guard) (code : BitVec 16) :
    Heads.Statement (.brk g code) := fun _ h => nomatch h

theorem Heads.xmovC (g : Guard) (s : Fin 16) (fl : File) (d : Fin 32) :
    Heads.Statement (.xmovC g s fl d) := fun _ h => nomatch h

theorem Heads.kli (g : Guard) (d : Fin 16) (imm : BitVec 17) :
    Heads.Statement (.kli g d imm) := fun _ h => nomatch h

theorem Heads.kliLong (g : Guard) (d : Fin 16) (value : Word) :
    Heads.Statement (.kliLong g d value) := fun _ h => nomatch h

theorem Heads.add (u : UnitAB) (g : Guard) (d : Fin 32) (x : SSrc) (y : SSrc) :
    Heads.Statement (.add u g d x y) := heads_of_scalars x y

theorem Heads.sub (u : UnitAB) (g : Guard) (d : Fin 32) (x : SSrc) (y : SSrc) :
    Heads.Statement (.sub u g d x y) := heads_of_scalars x y

theorem Heads.and (u : UnitAB) (g : Guard) (d : Fin 32) (x : SSrc) (y : SSrc) :
    Heads.Statement (.and u g d x y) := heads_of_scalars x y

theorem Heads.or (u : UnitAB) (g : Guard) (d : Fin 32) (x : SSrc) (y : SSrc) :
    Heads.Statement (.or u g d x y) := heads_of_scalars x y

theorem Heads.xor (u : UnitAB) (g : Guard) (d : Fin 32) (x : SSrc) (y : SSrc) :
    Heads.Statement (.xor u g d x y) := heads_of_scalars x y

theorem Heads.andn (u : UnitAB) (g : Guard) (d : Fin 32) (x : SSrc) (y : SSrc) :
    Heads.Statement (.andn u g d x y) := heads_of_scalars x y

theorem Heads.sll (u : UnitAB) (g : Guard) (d : Fin 32) (x : SSrc) (y : SSrc) :
    Heads.Statement (.sll u g d x y) := heads_of_scalars x y

theorem Heads.srl (u : UnitAB) (g : Guard) (d : Fin 32) (x : SSrc) (y : SSrc) :
    Heads.Statement (.srl u g d x y) := heads_of_scalars x y

theorem Heads.sra (u : UnitAB) (g : Guard) (d : Fin 32) (x : SSrc) (y : SSrc) :
    Heads.Statement (.sra u g d x y) := heads_of_scalars x y

theorem Heads.rol (u : UnitAB) (g : Guard) (d : Fin 32) (x : SSrc) (y : SSrc) :
    Heads.Statement (.rol u g d x y) := heads_of_scalars x y

theorem Heads.min (u : UnitAB) (g : Guard) (d : Fin 32) (x : SSrc) (y : SSrc) :
    Heads.Statement (.min u g d x y) := heads_of_scalars x y

theorem Heads.max (u : UnitAB) (g : Guard) (d : Fin 32) (x : SSrc) (y : SSrc) :
    Heads.Statement (.max u g d x y) := heads_of_scalars x y

theorem Heads.minu (u : UnitAB) (g : Guard) (d : Fin 32) (x : SSrc) (y : SSrc) :
    Heads.Statement (.minu u g d x y) := heads_of_scalars x y

theorem Heads.maxu (u : UnitAB) (g : Guard) (d : Fin 32) (x : SSrc) (y : SSrc) :
    Heads.Statement (.maxu u g d x y) := heads_of_scalars x y

theorem Heads.mul (u : UnitAB) (g : Guard) (d : Fin 32) (x : SSrc) (y : SSrc) :
    Heads.Statement (.mul u g d x y) := heads_of_scalars x y

theorem Heads.mulh (u : UnitAB) (g : Guard) (d : Fin 32) (x : SSrc) (y : SSrc) :
    Heads.Statement (.mulh u g d x y) := heads_of_scalars x y

theorem Heads.mulhu (u : UnitAB) (g : Guard) (d : Fin 32) (x : SSrc) (y : SSrc) :
    Heads.Statement (.mulhu u g d x y) := heads_of_scalars x y

theorem Heads.div (u : UnitAB) (g : Guard) (d : Fin 32) (x : SSrc) (y : SSrc) :
    Heads.Statement (.div u g d x y) := heads_of_scalars x y

theorem Heads.divu (u : UnitAB) (g : Guard) (d : Fin 32) (x : SSrc) (y : SSrc) :
    Heads.Statement (.divu u g d x y) := heads_of_scalars x y

theorem Heads.rem (u : UnitAB) (g : Guard) (d : Fin 32) (x : SSrc) (y : SSrc) :
    Heads.Statement (.rem u g d x y) := heads_of_scalars x y

theorem Heads.remu (u : UnitAB) (g : Guard) (d : Fin 32) (x : SSrc) (y : SSrc) :
    Heads.Statement (.remu u g d x y) := heads_of_scalars x y

theorem Heads.li (u : UnitAB) (g : Guard) (d : Fin 32) (x : SSrc) :
    Heads.Statement (.li u g d x) := head_of_scalar x

theorem Heads.bfx (u : UnitAB) (g : Guard) (d : Fin 32) (x : SSrc) (y : SSrc) :
    Heads.Statement (.bfx u g d x y) := heads_of_scalars x y

theorem Heads.bfxu (u : UnitAB) (g : Guard) (d : Fin 32) (x : SSrc) (y : SSrc) :
    Heads.Statement (.bfxu u g d x y) := heads_of_scalars x y

theorem Heads.bfi (u : UnitAB) (g : Guard) (d : Fin 32) (x : SSrc) (y : SSrc) :
    Heads.Statement (.bfi u g d x y) := heads_of_scalars x y

theorem Heads.clz (u : UnitAB) (g : Guard) (d : Fin 32) (x : SSrc) :
    Heads.Statement (.clz u g d x) := head_of_scalar x

theorem Heads.ctz (u : UnitAB) (g : Guard) (d : Fin 32) (x : SSrc) :
    Heads.Statement (.ctz u g d x) := head_of_scalar x

theorem Heads.popc (u : UnitAB) (g : Guard) (d : Fin 32) (x : SSrc) :
    Heads.Statement (.popc u g d x) := head_of_scalar x

theorem Heads.sel (u : UnitAB) (g : Guard) (d : Fin 32) (n : Fin 16) (x : SSrc) (y : SSrc) :
    Heads.Statement (.sel u g d n x y) := heads_of_scalars x y

theorem Heads.cmp (u : UnitAB) (g : Guard) (k : Fin 8) (c : Cond) (x : SSrc) (y : SSrc) :
    Heads.Statement (.cmp u g k c x y) := heads_of_scalars x y

theorem Heads.lea (u : UnitAB) (g : Guard) (d : Fin 32) (x : SSrc) (y : SSrc) (sh : Fin 16) :
    Heads.Statement (.lea u g d x y sh) := heads_of_scalars x y

theorem Heads.xmovAB (u : UnitAB) (g : Guard) (fl : File) (d : Fin 32) (x : SSrc) :
    Heads.Statement (.xmovAB u g fl d x) := head_of_scalar x

theorem Heads.xmovpGet (u : UnitAB) (g : Guard) (d : Fin 32) :
    Heads.Statement (.xmovpGet u g d) := fun _ h => nomatch h

theorem Heads.xmovpSet (u : UnitAB) (g : Guard) (k : Fin 8) (x : SSrc) :
    Heads.Statement (.xmovpSet u g k x) := head_of_scalar x

theorem Heads.sxt (u : UnitAB) (g : Guard) (d : Fin 32) (x : SSrc) (w1 : Fin 16) :
    Heads.Statement (.sxt u g d x w1) := head_of_scalar x

theorem Heads.zxt (u : UnitAB) (g : Guard) (d : Fin 32) (x : SSrc) (w1 : Fin 16) :
    Heads.Statement (.zxt u g d x w1) := head_of_scalar x

theorem Heads.abs (u : UnitAB) (g : Guard) (d : Fin 32) (x : SSrc) :
    Heads.Statement (.abs u g d x) := head_of_scalar x

theorem Heads.bswap (u : UnitAB) (g : Guard) (d : Fin 32) (x : SSrc) :
    Heads.Statement (.bswap u g d x) := head_of_scalar x

theorem Heads.brev (u : UnitAB) (g : Guard) (d : Fin 32) (x : SSrc) :
    Heads.Statement (.brev u g d x) := head_of_scalar x

theorem Heads.cmpu (u : UnitAB) (g : Guard) (k : Fin 8) (c : Cond) (x : SSrc) (y : SSrc) :
    Heads.Statement (.cmpu u g k c x y) := heads_of_scalars x y

theorem Heads.ldb (g : Guard) (fl : File) (d : Fin 32) (x : SSrc) (y : SSrc) :
    Heads.Statement (.ldb g fl d x y) := heads_of_scalars x y

theorem Heads.ldbu (g : Guard) (fl : File) (d : Fin 32) (x : SSrc) (y : SSrc) :
    Heads.Statement (.ldbu g fl d x y) := heads_of_scalars x y

theorem Heads.ldh (g : Guard) (fl : File) (d : Fin 32) (x : SSrc) (y : SSrc) :
    Heads.Statement (.ldh g fl d x y) := heads_of_scalars x y

theorem Heads.ldhu (g : Guard) (fl : File) (d : Fin 32) (x : SSrc) (y : SSrc) :
    Heads.Statement (.ldhu g fl d x y) := heads_of_scalars x y

theorem Heads.ldw (g : Guard) (fl : File) (d : Fin 32) (x : SSrc) (y : SSrc) :
    Heads.Statement (.ldw g fl d x y) := heads_of_scalars x y

theorem Heads.ldd (g : Guard) (d : Fin 8) (x : SSrc) (y : SSrc) :
    Heads.Statement (.ldd g d x y) := heads_of_scalars x y

theorem Heads.stb (g : Guard) (fl : File) (d : Fin 32) (x : SSrc) (y : SSrc) :
    Heads.Statement (.stb g fl d x y) := heads_of_scalars x y

theorem Heads.sth (g : Guard) (fl : File) (d : Fin 32) (x : SSrc) (y : SSrc) :
    Heads.Statement (.sth g fl d x y) := heads_of_scalars x y

theorem Heads.stw (g : Guard) (fl : File) (d : Fin 32) (x : SSrc) (y : SSrc) :
    Heads.Statement (.stw g fl d x y) := heads_of_scalars x y

theorem Heads.std (g : Guard) (d : Fin 8) (x : SSrc) (y : SSrc) :
    Heads.Statement (.std g d x y) := heads_of_scalars x y

theorem Heads.vld (g : Guard) (u : UnitVW) (d : Fin 28) (x : SSrc) (y : SSrc) (ext : Option Swizzle) :
    Heads.Statement (.vld g u d x y ext) := heads_of_scalars x y

theorem Heads.vst (g : Guard) (u : UnitVW) (d : Fin 28) (x : SSrc) (y : SSrc) (ext : Option Swizzle) :
    Heads.Statement (.vst g u d x y ext) := heads_of_scalars x y

theorem Heads.vldth (g : Guard) (u : UnitVW) (d : Fin 28) (x : SSrc) (y : SSrc) (ext : Option (Fin 7 × Fin 16)) :
    Heads.Statement (.vldth g u d x y ext) := heads_of_scalars x y

theorem Heads.rld (g : Guard) (fl : File) (d : Fin 32) (x : SSrc) (y : SSrc) :
    Heads.Statement (.rld g fl d x y) := heads_of_scalars x y

theorem Heads.rst (g : Guard) (fl : File) (d : Fin 32) (x : SSrc) (y : SSrc) :
    Heads.Statement (.rst g fl d x y) := heads_of_scalars x y

theorem Heads.rvld (g : Guard) (u : UnitVW) (d : Fin 28) (x : SSrc) (y : SSrc) (ext : Option Swizzle) :
    Heads.Statement (.rvld g u d x y ext) := heads_of_scalars x y

theorem Heads.rvst (g : Guard) (u : UnitVW) (d : Fin 28) (x : SSrc) (y : SSrc) (ext : Option Swizzle) :
    Heads.Statement (.rvst g u d x y ext) := heads_of_scalars x y

theorem Heads.qst (g : Guard) (q : Fin 4) (x : SSrc) (y : SSrc) :
    Heads.Statement (.qst g q x y) := fun r h =>
  (List.mem_cons.mp h).elim (fun e => by omega) (heads_of_scalars x y r)

theorem Heads.gld (g : Guard) (d : Fin 32) (x : SSrc) (y : SSrc) (len4 : Fin 1024) (bar : Fin 1024) :
    Heads.Statement (.gld g d x y len4 bar) := heads_of_scalars x y

theorem Heads.gst (g : Guard) (d : Fin 32) (x : SSrc) (y : SSrc) (len4 : Fin 1024) (bar : Fin 1024) :
    Heads.Statement (.gst g d x y len4 bar) := heads_of_scalars x y

theorem Heads.gatom (g : Guard) (d : Fin 32) (x : SSrc) (y : SSrc) (aop : Fin 11) (w64 : Bool) (bar : Fin 1024) :
    Heads.Statement (.gatom g d x y aop w64 bar) := heads_of_scalars x y

theorem Heads.mli (g : Guard) (d : Fin 32) (y : SSrc) :
    Heads.Statement (.mli g d y) := head_of_scalar y

theorem Heads.madd (g : Guard) (d : Fin 32) (x : SSrc) (y : SSrc) :
    Heads.Statement (.madd g d x y) := heads_of_scalars x y

theorem Heads.xmovM (g : Guard) (fl : File) (d : Fin 32) (x : SSrc) :
    Heads.Statement (.xmovM g fl d x) := head_of_scalar x

theorem Heads.irst (g : Guard) (fl : File) (d : Fin 32) (x : SSrc) (y : SSrc) (bar : Word) :
    Heads.Statement (.irst g fl d x y bar) := heads_of_scalars x y

theorem Heads.vstm (g : Guard) (u : UnitVW) (d : Fin 28) (x : SSrc) (y : SSrc) (ext : Option MaskedStore) :
    Heads.Statement (.vstm g u d x y ext) := heads_of_scalars x y

theorem Heads.pld (g : Guard) (vp : Option (Fin 16)) (x : SSrc) (y : SSrc) :
    Heads.Statement (.pld g vp x y) := heads_of_scalars x y

theorem Heads.pst (g : Guard) (vp : Option (Fin 16)) (x : SSrc) (y : SSrc) :
    Heads.Statement (.pst g vp x y) := heads_of_scalars x y

theorem Heads.vadd (u : UnitVW) (lp : Fin 16) (ef : Format) (d : VDst) (a : VSrc) (b : VSrc) :
    Heads.Statement (.vadd u lp ef d a b) := heads_of_vectors a b

theorem Heads.vsub (u : UnitVW) (lp : Fin 16) (ef : Format) (d : VDst) (a : VSrc) (b : VSrc) :
    Heads.Statement (.vsub u lp ef d a b) := heads_of_vectors a b

theorem Heads.vmul (u : UnitVW) (lp : Fin 16) (ef : Format) (d : VDst) (a : VSrc) (b : VSrc) :
    Heads.Statement (.vmul u lp ef d a b) := heads_of_vectors a b

theorem Heads.vfma (u : UnitVW) (lp : Fin 16) (ef : Format) (d : Fin 28) (a : VSrc) (b : VSrc) :
    Heads.Statement (.vfma u lp ef d a b) := heads_of_vectors a b

theorem Heads.vfms (u : UnitVW) (lp : Fin 16) (ef : Format) (d : Fin 28) (a : VSrc) (b : VSrc) :
    Heads.Statement (.vfms u lp ef d a b) := heads_of_vectors a b

theorem Heads.vfnma (u : UnitVW) (lp : Fin 16) (ef : Format) (d : Fin 28) (a : VSrc) (b : VSrc) :
    Heads.Statement (.vfnma u lp ef d a b) := heads_of_vectors a b

theorem Heads.vmin (u : UnitVW) (lp : Fin 16) (ef : Format) (d : VDst) (a : VSrc) (b : VSrc) :
    Heads.Statement (.vmin u lp ef d a b) := heads_of_vectors a b

theorem Heads.vmax (u : UnitVW) (lp : Fin 16) (ef : Format) (d : VDst) (a : VSrc) (b : VSrc) :
    Heads.Statement (.vmax u lp ef d a b) := heads_of_vectors a b

theorem Heads.vabs (u : UnitVW) (lp : Fin 16) (ef : Format) (d : VDst) (a : VSrc) :
    Heads.Statement (.vabs u lp ef d a) := head_of_vector a

theorem Heads.vneg (u : UnitVW) (lp : Fin 16) (ef : Format) (d : VDst) (a : VSrc) :
    Heads.Statement (.vneg u lp ef d a) := head_of_vector a

theorem Heads.vdiv (u : UnitVW) (lp : Fin 16) (ef : Format) (d : VDst) (a : VSrc) (b : VSrc) :
    Heads.Statement (.vdiv u lp ef d a b) := heads_of_vectors a b

theorem Heads.vrcp (u : UnitVW) (lp : Fin 16) (ef : Format) (d : VDst) (a : VSrc) :
    Heads.Statement (.vrcp u lp ef d a) := head_of_vector a

theorem Heads.vsqrt (u : UnitVW) (lp : Fin 16) (ef : Format) (d : VDst) (a : VSrc) :
    Heads.Statement (.vsqrt u lp ef d a) := head_of_vector a

theorem Heads.vrsqrt (u : UnitVW) (lp : Fin 16) (d : VDst) (a : VSrc) :
    Heads.Statement (.vrsqrt u lp d a) := head_of_vector a

theorem Heads.vexp2 (u : UnitVW) (lp : Fin 16) (d : VDst) (a : VSrc) :
    Heads.Statement (.vexp2 u lp d a) := head_of_vector a

theorem Heads.vlog2 (u : UnitVW) (lp : Fin 16) (d : VDst) (a : VSrc) :
    Heads.Statement (.vlog2 u lp d a) := head_of_vector a

theorem Heads.vsin (u : UnitVW) (lp : Fin 16) (d : VDst) (a : VSrc) :
    Heads.Statement (.vsin u lp d a) := head_of_vector a

theorem Heads.vcos (u : UnitVW) (lp : Fin 16) (d : VDst) (a : VSrc) :
    Heads.Statement (.vcos u lp d a) := head_of_vector a

theorem Heads.vtanh (u : UnitVW) (lp : Fin 16) (d : VDst) (a : VSrc) :
    Heads.Statement (.vtanh u lp d a) := head_of_vector a

theorem Heads.vround (u : UnitVW) (lp : Fin 16) (ef : Format) (d : VDst) (a : VSrc) :
    Heads.Statement (.vround u lp ef d a) := head_of_vector a

theorem Heads.vtrunc (u : UnitVW) (lp : Fin 16) (ef : Format) (d : VDst) (a : VSrc) :
    Heads.Statement (.vtrunc u lp ef d a) := head_of_vector a

theorem Heads.vcvt (u : UnitVW) (lp : Fin 16) (ef : Format) (sf : Format) (d : VDst) (a : VSrc) (h : Fin 4) :
    Heads.Statement (.vcvt u lp ef sf d a h) := head_of_vector a

theorem Heads.vcmpeq (u : UnitVW) (lp : Fin 16) (ef : Format) (k : Fin 8) (a : VSrc) (b : VSrc) (wit : Option (Fin 16)) :
    Heads.Statement (.vcmpeq u lp ef k a b wit) := heads_of_vectors a b

theorem Heads.vcmpne (u : UnitVW) (lp : Fin 16) (ef : Format) (k : Fin 8) (a : VSrc) (b : VSrc) (wit : Option (Fin 16)) :
    Heads.Statement (.vcmpne u lp ef k a b wit) := heads_of_vectors a b

theorem Heads.vcmplt (u : UnitVW) (lp : Fin 16) (ef : Format) (k : Fin 8) (a : VSrc) (b : VSrc) (wit : Option (Fin 16)) :
    Heads.Statement (.vcmplt u lp ef k a b wit) := heads_of_vectors a b

theorem Heads.vcmple (u : UnitVW) (lp : Fin 16) (ef : Format) (k : Fin 8) (a : VSrc) (b : VSrc) (wit : Option (Fin 16)) :
    Heads.Statement (.vcmple u lp ef k a b wit) := heads_of_vectors a b

theorem Heads.vcmpgt (u : UnitVW) (lp : Fin 16) (ef : Format) (k : Fin 8) (a : VSrc) (b : VSrc) (wit : Option (Fin 16)) :
    Heads.Statement (.vcmpgt u lp ef k a b wit) := heads_of_vectors a b

theorem Heads.vcmpge (u : UnitVW) (lp : Fin 16) (ef : Format) (k : Fin 8) (a : VSrc) (b : VSrc) (wit : Option (Fin 16)) :
    Heads.Statement (.vcmpge u lp ef k a b wit) := heads_of_vectors a b

theorem Heads.vsel (u : UnitVW) (lp : Fin 16) (n : Fin 16) (d : VDst) (a : VSrc) (b : VSrc) :
    Heads.Statement (.vsel u lp n d a b) := heads_of_vectors a b

theorem Heads.vmov (u : UnitVW) (lp : Fin 16) (d : VDst) (a : VSrc) :
    Heads.Statement (.vmov u lp d a) := head_of_vector a

theorem Heads.vbcast (u : UnitVW) (lp : Fin 16) (i : Fin 16) (d : VDst) (a : VSrc) :
    Heads.Statement (.vbcast u lp i d a) := head_of_vector a

theorem Heads.vpbc (u : UnitVW) (lp : Fin 16) (k : Fin 8) (n : Fin 16) :
    Heads.Statement (.vpbc u lp k n) := fun _ h => nomatch h

theorem Heads.vperm (u : UnitVW) (lp : Fin 16) (d : VDst) (a : VSrc) (x : VSrc) :
    Heads.Statement (.vperm u lp d a x) := heads_of_vectors a x

theorem Heads.gxch (u : UnitVW) (lp : Fin 16) (d : VDst) (a : VSrc) (map : BitVec 24) :
    Heads.Statement (.gxch u lp d a map) := head_of_vector a

theorem Heads.vxld (u : UnitVW) (lp : Fin 16) (d : VDst) (a : VSrc) (x : VSrc) (j : Fin 16) :
    Heads.Statement (.vxld u lp d a x j) := heads_of_vectors a x

theorem Heads.vsum (u : UnitVW) (lp : Fin 16) (ef : Format) (d : VDst) (a : VSrc) :
    Heads.Statement (.vsum u lp ef d a) := head_of_vector a

theorem Heads.vsumc (u : UnitVW) (lp : Fin 16) (ef : Format) (d : VDst) (a : VSrc) :
    Heads.Statement (.vsumc u lp ef d a) := head_of_vector a

theorem Heads.vrmin (u : UnitVW) (lp : Fin 16) (ef : Format) (d : VDst) (a : VSrc) :
    Heads.Statement (.vrmin u lp ef d a) := head_of_vector a

theorem Heads.vrmax (u : UnitVW) (lp : Fin 16) (ef : Format) (d : VDst) (a : VSrc) :
    Heads.Statement (.vrmax u lp ef d a) := head_of_vector a

theorem Heads.vpack (u : UnitVW) (lp : Fin 16) (ef : Format) (d : VDst) (a : VSrc) :
    Heads.Statement (.vpack u lp ef d a) := head_of_vector a

theorem Heads.vunpk (u : UnitVW) (lp : Fin 16) (ef : Format) (d : VDst) (a : VSrc) :
    Heads.Statement (.vunpk u lp ef d a) := head_of_vector a

theorem Heads.visab (u : UnitVW) (lp : Fin 16) (ef : Format) (k : Fin 8) (a : VSrc) :
    Heads.Statement (.visab u lp ef k a) := head_of_vector a

theorem Heads.vmkab (u : UnitVW) (lp : Fin 16) (ef : Format) (d : VDst) (a : VSrc) (n : Fin 16) :
    Heads.Statement (.vmkab u lp ef d a n) := head_of_vector a

theorem Heads.vand (u : UnitVW) (lp : Fin 16) (ef : Format) (d : VDst) (a : VSrc) (b : VSrc) :
    Heads.Statement (.vand u lp ef d a b) := heads_of_vectors a b

theorem Heads.vor (u : UnitVW) (lp : Fin 16) (ef : Format) (d : VDst) (a : VSrc) (b : VSrc) :
    Heads.Statement (.vor u lp ef d a b) := heads_of_vectors a b

theorem Heads.vxor (u : UnitVW) (lp : Fin 16) (ef : Format) (d : VDst) (a : VSrc) (b : VSrc) :
    Heads.Statement (.vxor u lp ef d a b) := heads_of_vectors a b

theorem Heads.vshl (u : UnitVW) (lp : Fin 16) (ef : Format) (d : VDst) (a : VSrc) (b : VSrc) :
    Heads.Statement (.vshl u lp ef d a b) := heads_of_vectors a b

theorem Heads.vshr (u : UnitVW) (lp : Fin 16) (ef : Format) (d : VDst) (a : VSrc) (b : VSrc) :
    Heads.Statement (.vshr u lp ef d a b) := heads_of_vectors a b

theorem Heads.vsra (u : UnitVW) (lp : Fin 16) (ef : Format) (d : VDst) (a : VSrc) (b : VSrc) :
    Heads.Statement (.vsra u lp ef d a b) := heads_of_vectors a b

theorem Heads.vpand (u : UnitVW) (lp : Fin 16) (k : Fin 8) (a : Fin 16) (b : Fin 16) :
    Heads.Statement (.vpand u lp k a b) := fun _ h => nomatch h

theorem Heads.vpor (u : UnitVW) (lp : Fin 16) (k : Fin 8) (a : Fin 16) (b : Fin 16) :
    Heads.Statement (.vpor u lp k a b) := fun _ h => nomatch h

theorem Heads.vpxor (u : UnitVW) (lp : Fin 16) (k : Fin 8) (a : Fin 16) (b : Fin 16) :
    Heads.Statement (.vpxor u lp k a b) := fun _ h => nomatch h

theorem Heads.vpnot (u : UnitVW) (lp : Fin 16) (k : Fin 8) (a : Fin 16) :
    Heads.Statement (.vpnot u lp k a) := fun _ h => nomatch h

theorem Heads.vlane (u : UnitVW) (lp : Fin 16) (d : VDst) :
    Heads.Statement (.vlane u lp d) := fun _ h => nomatch h

theorem Heads.vscl (u : UnitVW) (lp : Fin 16) (ef : Format) (d : VDst) (a : VSrc) (b : VSrc) :
    Heads.Statement (.vscl u lp ef d a b) := heads_of_vectors a b

theorem Heads.vclamp (u : UnitVW) (lp : Fin 16) (ef : Format) (d : Fin 28) (a : VSrc) (b : VSrc) :
    Heads.Statement (.vclamp u lp ef d a b) := heads_of_vectors a b

theorem Heads.vsgnj (u : UnitVW) (lp : Fin 16) (ef : Format) (d : VDst) (a : VSrc) (b : VSrc) :
    Heads.Statement (.vsgnj u lp ef d a b) := heads_of_vectors a b

theorem Heads.vsigm (u : UnitVW) (lp : Fin 16) (d : VDst) (a : VSrc) :
    Heads.Statement (.vsigm u lp d a) := head_of_vector a

theorem Heads.vpcnt (u : UnitVW) (lp : Fin 16) (d : VDst) (n : Fin 16) :
    Heads.Statement (.vpcnt u lp d n) := fun _ h => nomatch h

theorem Heads.xmovV (u : UnitVW) (lp : Fin 16) (fl : File) (d : Fin 32) (a : VSrc) :
    Heads.Statement (.xmovV u lp fl d a) := head_of_vector a

theorem Heads.mcall (g : Guard) (idx : Fin 64) :
    Heads.Statement (.mcall g idx) := fun _ h => nomatch h

theorem Heads.mload (g : Guard) (s : Fin 8) (b : Fin 8) :
    Heads.Statement (.mload g s b) := fun _ h => nomatch h

theorem Heads.xli (g : Guard) (d : Fin 8) (v : Imm16) :
    Heads.Statement (.xli g d v) := fun _ h => nomatch h

theorem Heads.xlih (g : Guard) (d : Fin 8) (v : Imm16) :
    Heads.Statement (.xlih g d v) := fun _ h => nomatch h

theorem Heads.xadd (g : Guard) (d : Fin 8) (s : Fin 8) (v : Imm15) :
    Heads.Statement (.xadd g d s v) := fun _ h => nomatch h

theorem Heads.xins (g : Guard) (d : Fin 8) (s : Fin 8) (pos : Fin 64) (len1 : Fin 64) :
    Heads.Statement (.xins g d s pos len1) := fun _ h => nomatch h

theorem Heads.xmovX (g : Guard) (s : Fin 8) (fl : File) (d : Fin 32) (hi : Bool) :
    Heads.Statement (.xmovX g s fl d hi) := fun _ h => nomatch h

theorem Heads.mqclr (g : Guard) (mask : BitVec 4) :
    Heads.Statement (.mqclr g mask) := fun _ h => nomatch h

theorem Heads.mcancel (g : Guard) :
    Heads.Statement (.mcancel g) := fun _ h => nomatch h

theorem Heads.cpy (g : Guard) (slot : Fin 16) (x : SSrc) (y : SSrc) (nb : Bool) (rel : Bool) (acq : Bool) :
    Heads.Statement (.cpy g slot x y nb rel acq) := heads_of_scalars x y

theorem Heads.cpy2d (g : Guard) (slot : Fin 16) (x : SSrc) (y : SSrc) (nb : Bool) (rel : Bool) (acq : Bool) :
    Heads.Statement (.cpy2d g slot x y nb rel acq) := heads_of_scalars x y

theorem Heads.cpyt (g : Guard) (slot : Fin 16) (x : SSrc) (y : SSrc) (nb : Bool) (rel : Bool) (acq : Bool) :
    Heads.Statement (.cpyt g slot x y nb rel acq) := heads_of_scalars x y

theorem Heads.cpyg (g : Guard) (slot : Fin 16) (x : SSrc) (y : SSrc) (nb : Bool) (rel : Bool) (acq : Bool) :
    Heads.Statement (.cpyg g slot x y nb rel acq) := heads_of_scalars x y

theorem Heads.cpys (g : Guard) (slot : Fin 16) (x : SSrc) (y : SSrc) (nb : Bool) (rel : Bool) (acq : Bool) :
    Heads.Statement (.cpys g slot x y nb rel acq) := heads_of_scalars x y

theorem Heads.strm (g : Guard) (slot : Fin 16) (x : SSrc) (y : SSrc) (nb : Bool) (rel : Bool) (acq : Bool) :
    Heads.Statement (.strm g slot x y nb rel acq) := heads_of_scalars x y

theorem Heads.strmx (g : Guard) (slot : Fin 16) (x : SSrc) (y : SSrc) (nb : Bool) (rel : Bool) (acq : Bool) :
    Heads.Statement (.strmx g slot x y nb rel acq) := heads_of_scalars x y

theorem Heads.cpyx (g : Guard) (slot : Fin 16) (x : SSrc) (y : SSrc) (nb : Bool) (rel : Bool) (acq : Bool) :
    Heads.Statement (.cpyx g slot x y nb rel acq) := heads_of_scalars x y

theorem Heads.mcast (g : Guard) (slot : Fin 16) (x : SSrc) (y : SSrc) (nb : Bool) (rel : Bool) (acq : Bool) :
    Heads.Statement (.mcast g slot x y nb rel acq) := heads_of_scalars x y

theorem Heads.rot (g : Guard) (x : SSrc) (y : SSrc) (cnt : Bool) (dir : Bool) (len1 : Fin 1024) (bar : Fin 1024) :
    Heads.Statement (.rot g x y cnt dir len1 bar) := heads_of_scalars x y

theorem Heads.binit (g : Guard) (x : SSrc) (y : SSrc) (scope : Fin 7) :
    Heads.Statement (.binit g x y scope) := heads_of_scalars x y

theorem Heads.bidle (g : Guard) (x : SSrc) :
    Heads.Statement (.bidle g x) := head_of_scalar x

theorem Heads.barv (g : Guard) (x : SSrc) (y : SSrc) :
    Heads.Statement (.barv g x y) := heads_of_scalars x y

theorem Heads.qpush (g : Guard) (x : SSrc) (y : SSrc) (q : Fin 4) :
    Heads.Statement (.qpush g x y q) := heads_of_scalars x y

theorem Heads.tsort (g : Guard) (slot : Fin 16) (x : SSrc) (y : SSrc) (nb : Bool) (rel : Bool) (acq : Bool) :
    Heads.Statement (.tsort g slot x y nb rel acq) := heads_of_scalars x y

theorem Heads.fli (g : Guard) (d : Fin 16) (x : SSrc) :
    Heads.Statement (.fli g d x) := head_of_scalar x

theorem Heads.fadd (g : Guard) (d : Fin 16) (x : SSrc) (y : SSrc) :
    Heads.Statement (.fadd g d x y) := heads_of_scalars x y

theorem Heads.fsub (g : Guard) (d : Fin 16) (x : SSrc) (y : SSrc) :
    Heads.Statement (.fsub g d x y) := heads_of_scalars x y

theorem Heads.fsll (g : Guard) (d : Fin 16) (x : SSrc) (y : SSrc) :
    Heads.Statement (.fsll g d x y) := heads_of_scalars x y

theorem Heads.xmovF (g : Guard) (fl : File) (d : Fin 32) (x : SSrc) :
    Heads.Statement (.xmovF g fl d x) := head_of_scalar x

theorem Heads.cpstat (g : Guard) (d : Fin 16) (x : SSrc) :
    Heads.Statement (.cpstat g d x) := head_of_scalar x

theorem Heads.cpfill (g : Guard) (slot : Fin 16) (x : SSrc) (y : SSrc) (nb : Bool) (rel : Bool) (acq : Bool) :
    Heads.Statement (.cpfill g slot x y nb rel acq) := heads_of_scalars x y

theorem Heads.sqcfg (g : Guard) (slot : Fin 16) (x : SSrc) (y : SSrc) (nb : Bool) (rel : Bool) (acq : Bool) :
    Heads.Statement (.sqcfg g slot x y nb rel acq) := heads_of_scalars x y

theorem Heads.sqbind (g : Guard) (slot : Fin 16) (x : SSrc) (y : SSrc) (nb : Bool) (rel : Bool) (acq : Bool) :
    Heads.Statement (.sqbind g slot x y nb rel acq) := heads_of_scalars x y

theorem Heads.sqstage (g : Guard) (slot : Fin 16) (x : SSrc) (y : SSrc) (nb : Bool) (rel : Bool) (acq : Bool) :
    Heads.Statement (.sqstage g slot x y nb rel acq) := heads_of_scalars x y

theorem Heads.sqtake (g : Guard) (slot : Fin 16) (x : SSrc) (y : SSrc) (nb : Bool) (rel : Bool) (acq : Bool) :
    Heads.Statement (.sqtake g slot x y nb rel acq) := heads_of_scalars x y

theorem Heads.sqjudge (g : Guard) (slot : Fin 16) (y : SSrc) (nb : Bool) (rel : Bool) (acq : Bool) :
    Heads.Statement (.sqjudge g slot y nb rel acq) := head_of_scalar y

theorem Heads.sqstat (g : Guard) (slot : Fin 16) (x : SSrc) (y : SSrc) (nb : Bool) (rel : Bool) (acq : Bool) :
    Heads.Statement (.sqstat g slot x y nb rel acq) := heads_of_scalars x y

theorem Heads.bnet (g : Guard) (d : Fin 16) (x : SSrc) (y : SSrc) (pat : Fin 8) :
    Heads.Statement (.bnet g d x y pat) := heads_of_scalars x y

theorem Heads.bnld (g : Guard) (x : SSrc) (y : SSrc) (pat : Fin 8) :
    Heads.Statement (.bnld g x y pat) := heads_of_scalars x y

theorem Heads.nfill (g : Guard) (d : Fin 16) (x : SSrc) (wc : Fin 3) :
    Heads.Statement (.nfill g d x wc) := head_of_scalar x

theorem Heads.nli (g : Guard) (d : Fin 16) (x : SSrc) :
    Heads.Statement (.nli g d x) := head_of_scalar x

theorem Heads.nadd (g : Guard) (d : Fin 16) (x : SSrc) (y : SSrc) :
    Heads.Statement (.nadd g d x y) := heads_of_scalars x y

theorem Heads.xmovN (g : Guard) (fl : File) (d : Fin 32) (x : SSrc) :
    Heads.Statement (.xmovN g fl d x) := head_of_scalar x

theorem Heads.idleBundle : Heads.Statement .idleBundle := fun _ h => nomatch h

theorem Heads.loopEndMark : Heads.Statement .loopEndMark := fun _ h => nomatch h

theorem Heads.segmentMark : Heads.Statement .segmentMark := fun _ h => nomatch h

theorem Heads.queuePop (mask : BitVec 8) :
    Heads.Statement (.queuePop mask) := fun _ h => nomatch h

theorem Heads.mend : Heads.Statement .mend := fun _ h => nomatch h

theorem Heads.mstep (sw : Fin 16) :
    Heads.Statement (.mstep sw) := fun _ h => nomatch h

theorem Heads.mclr : Heads.Statement .mclr := fun _ h => nomatch h

theorem Heads.mloop (endAddr : Fin 2048) (count : Fin 512) :
    Heads.Statement (.mloop endAddr count) := fun _ h => nomatch h

theorem Heads.mloopZ (z : Fin 8) (sh : Fin 16) (endAddr : Fin 2048) :
    Heads.Statement (.mloopZ z sh endAddr) := fun _ h => nomatch h

theorem Heads.mendl : Heads.Statement .mendl := fun _ h => nomatch h

theorem Heads.madv (d : Fin 8) (imm : BitVec 24) :
    Heads.Statement (.madv d imm) := fun _ h => nomatch h

theorem Heads.madvParam (d : Fin 8) (pw : Fin 16) :
    Heads.Statement (.madvParam d pw) := fun _ h => nomatch h

theorem Heads.mshape : Heads.Statement .mshape := fun _ h => nomatch h

theorem Heads.mdrain (pw : Fin 16) (clr : Bool) :
    Heads.Statement (.mdrain pw clr) := fun _ h => nomatch h

theorem Heads.mwaitb (z : Fin 8) (inc : Bool) :
    Heads.Statement (.mwaitb z inc) := fun _ h => nomatch h

theorem Heads.msig (z : Fin 8) (bytes : BitVec 12) :
    Heads.Statement (.msig z bytes) := fun _ h => nomatch h

theorem Heads.mset (d : Fin 8) (imm : BitVec 24) :
    Heads.Statement (.mset d imm) := fun _ h => nomatch h

theorem Heads.msetParam (d : Fin 8) (pw : Fin 16) :
    Heads.Statement (.msetParam d pw) := fun _ h => nomatch h

theorem Heads.mmad (d : Fin 8) (z : Fin 8) (pw : Fin 16) :
    Heads.Statement (.mmad d z pw) := fun _ h => nomatch h

theorem Heads.mskz (z : Fin 8) (n : BitVec 8) :
    Heads.Statement (.mskz z n) := fun _ h => nomatch h

theorem Heads.mjmp (target : Fin 2048) :
    Heads.Statement (.mjmp target) := fun _ h => nomatch h

theorem Heads.mnop : Heads.Statement .mnop := fun _ h => nomatch h

theorem Heads.mfence : Heads.Statement .mfence := fun _ h => nomatch h

theorem Heads.mcallAccept (core : Nat) :
    Heads.Statement (.mcallAccept core) := fun _ h => nomatch h

theorem Heads.drainPush (core : Nat) :
    Heads.Statement (.drainPush core) := fun _ h => nomatch h

theorem Heads.mloadInstall (core : Nat) :
    Heads.Statement (.mloadInstall core) := fun _ h => nomatch h

theorem Heads.nopPacket (q : Nat) :
    Heads.Statement (.nopPacket q) := fun _ h => nomatch h

theorem Heads.launchPacket (q : Nat) :
    Heads.Statement (.launchPacket q) := fun _ h => nomatch h

theorem Heads.graphPacket (q : Nat) :
    Heads.Statement (.graphPacket q) := fun _ h => nomatch h

theorem Heads.sealPacket (q : Nat) :
    Heads.Statement (.sealPacket q) := fun _ h => nomatch h

theorem Heads.copyPacket (q : Nat) :
    Heads.Statement (.copyPacket q) := fun _ h => nomatch h

theorem Heads.signalPacket (q : Nat) :
    Heads.Statement (.signalPacket q) := fun _ h => nomatch h

theorem Heads.waitPacket (q : Nat) :
    Heads.Statement (.waitPacket q) := fun _ h => nomatch h

theorem Heads.fencePacket (q : Nat) :
    Heads.Statement (.fencePacket q) := fun _ h => nomatch h

theorem Heads.waitPoll (q : Nat) :
    Heads.Statement (.waitPoll q) := fun _ h => nomatch h

theorem Heads.packetAcceptance (q : Nat) :
    Heads.Statement (.packetAcceptance q) := fun _ h => nomatch h

theorem Heads.packetCompletion (seq : Nat) :
    Heads.Statement (.packetCompletion seq) := fun _ h => nomatch h

theorem Heads.graphNodeDispatch (seq : Nat) (node : Nat) :
    Heads.Statement (.graphNodeDispatch seq node) := fun _ h => nomatch h

theorem Heads.qtailNotification (q : Nat) (value : Dword) :
    Heads.Statement (.qtailNotification q value) := fun _ h => nomatch h

theorem Heads.queueEnable (q : Nat) (value : Dword) :
    Heads.Statement (.queueEnable q value) := fun _ h => nomatch h

theorem Heads.queueDisable (q : Nat) (value : Dword) :
    Heads.Statement (.queueDisable q value) := fun _ h => nomatch h

theorem Heads.handleEntryWrite (die : Nat) (h : Nat) (word : Fin 4) (value : Dword) :
    Heads.Statement (.handleEntryWrite die h word value) := fun _ h => nomatch h

theorem Heads.tlbinvAll (die : Nat) :
    Heads.Statement (.tlbinvAll die) := fun _ h => nomatch h

theorem Heads.tlbinvProgram (die : Nat) (program : BitVec 16) :
    Heads.Statement (.tlbinvProgram die program) := fun _ h => nomatch h

theorem Heads.tlbinvPage (die : Nat) (program : BitVec 16) (page : BitVec 36) :
    Heads.Statement (.tlbinvPage die program page) := fun _ h => nomatch h

theorem Heads.tlbinvComplete (die : Nat) :
    Heads.Statement (.tlbinvComplete die) := fun _ h => nomatch h

theorem Heads.attestationRequest : Heads.Statement .attestationRequest := fun _ h => nomatch h

theorem Heads.attestationComplete : Heads.Statement .attestationComplete := fun _ h => nomatch h

theorem Heads.debugUnlock : Heads.Statement .debugUnlock := fun _ h => nomatch h

theorem Heads.debugStopRequest (core : Nat) :
    Heads.Statement (.debugStopRequest core) := fun _ h => nomatch h

theorem Heads.debugPreemptRequest (core : Nat) :
    Heads.Statement (.debugPreemptRequest core) := fun _ h => nomatch h

theorem Heads.debugResume (core : Nat) :
    Heads.Statement (.debugResume core) := fun _ h => nomatch h

theorem Heads.dbgdataWrite (core : Nat) (value : Dword) :
    Heads.Statement (.dbgdataWrite core value) := fun _ h => nomatch h

theorem Heads.replayGo (value : Dword) :
    Heads.Statement (.replayGo value) := fun _ h => nomatch h

theorem Heads.traceEnable (value : Dword) :
    Heads.Statement (.traceEnable value) := fun _ h => nomatch h

theorem Heads.alarmClear (value : Dword) :
    Heads.Statement (.alarmClear value) := fun _ h => nomatch h

theorem Heads.lclkWrite (die : Nat) (value : Dword) :
    Heads.Statement (.lclkWrite die value) := fun _ h => nomatch h

theorem Heads.clockRatioChange (die : Nat) (far : Bool) :
    Heads.Statement (.clockRatioChange die far) := fun _ h => nomatch h

theorem Heads.wdcfgWrite (value : Dword) :
    Heads.Statement (.wdcfgWrite value) := fun _ h => nomatch h

theorem Heads.cstateWrite (core : Nat) (value : Word) :
    Heads.Statement (.cstateWrite core value) := fun _ h => nomatch h

theorem Heads.lossCounterClear (core : Nat) (cls : Nat) (bank : Nat) :
    Heads.Statement (.lossCounterClear core cls bank) := fun _ h => nomatch h

theorem Heads.registerWrite (offset : Nat) (value : Dword) :
    Heads.Statement (.registerWrite offset value) := fun _ h => nomatch h

theorem Heads.hostRead (bar : Nat) (offset : Nat) (n : Nat) :
    Heads.Statement (.hostRead bar offset n) := fun _ h => nomatch h

theorem Heads.hostWrite (bar : Nat) (offset : Nat) (n : Nat) (value : Dword) :
    Heads.Statement (.hostWrite bar offset n value) := fun _ h => nomatch h

theorem Heads.coldBoot (verdict : Bool) :
    Heads.Statement (.coldBoot verdict) := fun _ h => nomatch h

theorem Heads.selfTest (failing : List BankFailure) :
    Heads.Statement (.selfTest failing) := fun _ h => nomatch h

theorem Heads.functionLevelReset : Heads.Statement .functionLevelReset := fun _ h => nomatch h

theorem Heads.resultDue (core : Nat) :
    Heads.Statement (.resultDue core) := fun _ h => nomatch h

theorem Heads.remoteLoadDelivery (core : Nat) :
    Heads.Statement (.remoteLoadDelivery core) := fun _ h => nomatch h

theorem Heads.bankArbitration (core : Nat) (layer : Nat) (bank : Nat) :
    Heads.Statement (.bankArbitration core layer bank) := fun _ h => nomatch h

theorem Heads.lichenCycle (core : Nat) (work : LichenWork) :
    Heads.Statement (.lichenCycle core work) := fun _ h => nomatch h

theorem Heads.rotDelivery (gid : Nat) :
    Heads.Statement (.rotDelivery gid) := fun _ h => nomatch h

theorem Heads.messageArrival (core : Nat) :
    Heads.Statement (.messageArrival core) := fun _ h => nomatch h

theorem Heads.pageTableWalk (cluster : Nat) (program : Nat) (page : Nat) :
    Heads.Statement (.pageTableWalk cluster program page) := fun _ h => nomatch h

theorem Heads.globalAccessPerform (id : Nat) :
    Heads.Statement (.globalAccessPerform id) := fun _ h => nomatch h

theorem Heads.engineCommandStart (engine : Nat) :
    Heads.Statement (.engineCommandStart engine) := fun _ h => nomatch h

theorem Heads.engineCommandCompletion (engine : Nat) (id : Nat) :
    Heads.Statement (.engineCommandCompletion engine id) := fun _ h => nomatch h

theorem Heads.segmentCopyLands (core : Nat) (slot : Fin 4) :
    Heads.Statement (.segmentCopyLands core slot) := fun _ h => nomatch h

theorem Heads.sorusDispatch (cluster : Nat) :
    Heads.Statement (.sorusDispatch cluster) := fun _ h => nomatch h

theorem Heads.steal (cluster : Nat) :
    Heads.Statement (.steal cluster) := fun _ h => nomatch h

theorem Heads.stealTake (cluster : Nat) :
    Heads.Statement (.stealTake cluster) := fun _ h => nomatch h

theorem Heads.suspensionPointComplete (gid : Nat) :
    Heads.Statement (.suspensionPointComplete gid) := fun _ h => nomatch h

theorem Heads.trapVectoring (gid : Nat) :
    Heads.Statement (.trapVectoring gid) := fun _ h => nomatch h

theorem Heads.taskLimitExpiry (gid : Nat) :
    Heads.Statement (.taskLimitExpiry gid) := fun _ h => nomatch h

theorem Heads.saveModeCutoff (gid : Nat) :
    Heads.Statement (.saveModeCutoff gid) := fun _ h => nomatch h

theorem Heads.rollback : Heads.Statement .rollback := fun _ h => nomatch h

theorem Heads.sealPeriodExpiry : Heads.Statement .sealPeriodExpiry := fun _ h => nomatch h

theorem Heads.sealRequestMessage (device : Nat) :
    Heads.Statement (.sealRequestMessage device) := fun _ h => nomatch h

theorem Heads.quiesceWindowExpiry : Heads.Statement .quiesceWindowExpiry := fun _ h => nomatch h

theorem Heads.sealCheckpoint : Heads.Statement .sealCheckpoint := fun _ h => nomatch h

theorem Heads.quiescedReport : Heads.Statement .quiescedReport := fun _ h => nomatch h

theorem Heads.quiescedMessage (device : Nat) :
    Heads.Statement (.quiescedMessage device) := fun _ h => nomatch h

theorem Heads.cutMessage : Heads.Statement .cutMessage := fun _ h => nomatch h

theorem Heads.readyReport : Heads.Statement .readyReport := fun _ h => nomatch h

theorem Heads.readyMessage (device : Nat) :
    Heads.Statement (.readyMessage device) := fun _ h => nomatch h

theorem Heads.commitMessage : Heads.Statement .commitMessage := fun _ h => nomatch h

theorem Heads.abortMessage : Heads.Statement .abortMessage := fun _ h => nomatch h

theorem Heads.sealTimeout : Heads.Statement .sealTimeout := fun _ h => nomatch h

theorem Heads.settleWalkComplete (interval : Nat) :
    Heads.Statement (.settleWalkComplete interval) := fun _ h => nomatch h

theorem Heads.egressGapExpiry : Heads.Statement .egressGapExpiry := fun _ h => nomatch h

theorem Heads.scrubPass (core : Nat) (layer : Nat) (bank : Nat) (corrected : Option Nat) (bad : List Nat) :
    Heads.Statement (.scrubPass core layer bank corrected bad) := fun _ h => nomatch h

theorem Heads.bankSubstitutionComplete (core : Nat) (layer : Nat) (bank : Nat) (lane : Option (Fin 8 × Fin 256)) :
    Heads.Statement (.bankSubstitutionComplete core layer bank lane) := fun _ h => nomatch h

theorem Heads.quarantineTest (core : Nat) (fails : Bool) :
    Heads.Statement (.quarantineTest core fails) := fun _ h => nomatch h

theorem Heads.ptmMeasurement (granted : Bool) (offset : Int) :
    Heads.Statement (.ptmMeasurement granted offset) := fun _ h => nomatch h

theorem Heads.thermalSample (die : Nat) (column : Nat) (raw : Int) :
    Heads.Statement (.thermalSample die column raw) := fun _ h => nomatch h

theorem Heads.clockThrottle (die : Nat) (level : Fin 4) :
    Heads.Statement (.clockThrottle die level) := fun _ h => nomatch h

theorem Heads.flitRetry (link : Nat) :
    Heads.Statement (.flitRetry link) := fun _ h => nomatch h

theorem Heads.linkDown (link : Nat) :
    Heads.Statement (.linkDown link) := fun _ h => nomatch h

theorem Heads.peerUnreachable (device : Nat) :
    Heads.Statement (.peerUnreachable device) := fun _ h => nomatch h

theorem Heads.frameReceive (addr : Nat) (bytes : List Byte) :
    Heads.Statement (.frameReceive addr bytes) := fun _ h => nomatch h

theorem Heads.glitchSensor : Heads.Statement .glitchSensor := fun _ h => nomatch h

theorem Heads.allocationHandover (base : Nat) (extent : Extent) :
    Heads.Statement (.allocationHandover base extent) := fun _ h => nomatch h

theorem Heads.peerAccessArrival (device : Nat) (access : PeerAccess) :
    Heads.Statement (.peerAccessArrival device access) := fun _ h => nomatch h

end Sys2Proof.Laws
end

