-- ==== Sys2Proof/Tests/Slice0.lean ====
section
/-! SUPPORT. Tests on small states: words the spec writes out, ill-formed terms, single steps with results worked out from
the spec's rules, and for each statement with hypotheses a state that meets them. -/

namespace Sys2Proof.Tests

open Sys2Proof Sys2Proof.Machine

set_option Elab.async false

/-! Decoding. The words are those of the spec's worked programs, or are laid out field by field from R147 to R150. -/

def decodesTo (x : Slot × Nat × List Nat × Instr) : Bool :=
  match decodeSlot x.1 x.2.1 x.2.2.1 with
  | .ok j => j == x.2.2.2
  | .error _ => false

/-- R206, 22: `csrr k1, TCAUSE`, `(p3) trap 2`, `susp stub`; 20: `susp mc, k4`; 24: `irrev done`. -/
theorem test_words_of_C : ([(.c, 0x50020031, [], .csrr (.p 0) 1 0x031), (.c, 0x48600002, [], .trap (.p 3) 2),
    (.c, 0x2C004000, [0x100], .suspTarget (.p 0) 0x100 none), (.c, 0x2C008000, [0x100], .suspTarget (.p 0) 0x100 (some 1)),
    (.c, 0x64000000, [0x100], .irrevTarget (.p 0) 0x100)].all decodesTo) = true := by decide +kernel

/-- R218 and 22, 24, 26: compares and bit fields, in slot B too (R147: the same word in either slot). -/
theorem test_words_of_A_and_B : ([(.a, 0x780213F2, [0x64], .cmp .a (.p 0) 2 .lt (.reg 4) (.lit 100)),
    (.b, 0x780213F2, [0x64], .cmp .b (.p 0) 2 .lt (.reg 4) (.lit 100)),
    (.a, 0x780107C0, [], .cmp .a (.p 0) 1 .eq (.reg 1) (.const 12)),
    (.a, 0x60165BF0, [0x112], .bfxu .a (.p 0) 22 (.reg 22) (.lit 0x112))].all decodesTo) = true := by decide +kernel

/-- 13 (R230, R231), 14, 22, 24, 26: loads and stores. -/
theorem test_words_of_M : ([(.m, 0x2404207F, [0x2000], .stw (.p 0) .c 4 (.reg 1) (.lit 0x2000)),
    (.m, 0x1401407F, [0x400], .ldw (.p 0) .v 1 (.reg 1) (.lit 0x400)),
    (.m, 0x2C014070, [], .vld (.p 0) .v 1 (.reg 1) (.const 0) none), (.m, 0x5C023085, [], .madd (.p 0) 2 (.reg 2) (.reg 5)),
    (.m, 0x300540B0, [0xC], .vst (.p 0) .v 5 (.reg 2) (.const 0) (some ⟨4, true⟩)),
    (.m, 0x340740F0, [4], .vldth (.p 0) .v 7 (.reg 3) (.const 0) (some (4, 0))),
    (.m, 0x640931C8, [0x3200], .irst (.p 0) .m 9 (.reg 7) (.reg 8) 0x3200)].all decodesTo) = true := by decide +kernel

/-- R274, R280 and 26: a compare with a witness, an exchange of groups, a negation; W decodes as V (R147). -/
theorem test_words_of_V_and_W : ([(.v, 0x32020C50, [0xC], .vcmplt .v 0 .fp32 2 (.reg 3) (.reg 5) (some 12)),
    (.w, 0x32020C50, [0xC], .vcmplt .w 0 .fp32 2 (.reg 3) (.reg 5) (some 12)),
    (.v, 0x44020400, [0x00DE54C1], .gxch .v 0 (.reg 2) (.reg 1) 0xDE54C1),
    (.v, 0x14020400, [], .vneg .v 0 .fp32 (.reg 2) (.reg 1))].all decodesTo) = true := by decide +kernel

/-- 17, 22: the forms of X with and without an extension word. -/
theorem test_words_of_X : ([(.x, 0x0C000000, [], .xli (.p 0) 0 (.imm 0)), (.x, 0x10002000, [], .xlih (.p 0) 0 (.imm 0x2000)),
    (.x, 0x100C0000, [0x00820000], .xlih (.p 0) 3 (.ext 0x00820000)), (.x, 0x04000000, [], .mcall (.p 0) 0),
    (.x, 0x24000000, [], .mcancel (.p 0))].all decodesTo) = true := by decide +kernel

/-- 14, 18, 20, 24, 25: engine commands and barriers. -/
theorem test_words_of_F : ([(.f, 0x08031052, [], .cpy2d (.p 0) 3 (.reg 4) (.reg 5) false true false),
    (.f, 0x0400C020, [], .cpy (.p 0) 0 (.const 0) (.reg 2) false false false),
    (.f, 0x1403FF05, [0x6000], .cpys (.p 0) 3 (.lit 0x6000) (.const 0) true false true),
    (.f, 0x2C400842, [], .binit (.p 2) (.reg 2) (.reg 4) 2),
    (.f, 0x2C00FF46, [0x3200], .binit (.p 0) (.lit 0x3200) (.const 4) 6),
    (.f, 0x2401FC31, [0x2000], .mcast (.p 0) 1 (.lit 0x2000) (.reg 3) false false true),
    (.f, 0x3C000420, [], .tsort (.p 0) 0 (.reg 1) (.reg 2) false false false),
    (.f, 0x7003_0304, [], .sqjudge (.p 0) 3 (.const 0) true false false)].all decodesTo) = true := by decide +kernel

/-- R291: the two words of the worked pattern load. -/
theorem test_words_of_N : ([(.n, 0x08000B05, [], .bnld (.p 0) (.reg 2) (.const 0) 5),
    (.n, 0x04030445, [], .bnet (.p 0) 3 (.reg 1) (.reg 4) 5)].all decodesTo) = true := by decide +kernel

/-- 17 and 18: the two worked routines. -/
theorem test_words_of_the_store : ([(.micro, 0x20000000, [], .mclr), (.micro, 0x3C000A00, [], .mloopZ 4 0 5),
    (.micro, 0x11000000, [], .mstep 1), (.micro, 0x51300000, [], .madvParam 0 3), (.micro, 0x53500000, [], .madvParam 1 5),
    (.micro, 0x40000000, [], .mendl), (.micro, 0x77000000, [], .mdrain 7 false), (.micro, 0x00000000, [], .mend),
    (.micro, 0x60000000, [], .mshape), (.micro, 0xB3CC0000, [], .mmad 1 7 3),
    (.micro, 0x3D502E00, [], .mloopZ 5 5 23)].all decodesTo) = true := by decide +kernel

/-- R142's example, an idle bundle, a loop-end mark (20: 0x8000_0000 over a slot), and the guard word of R174. -/
theorem test_header_words : decodeSlot .header 0 [] = .ok .idleBundle ∧ decodeSlot .header 0x80000000 [] = .ok .loopEndMark
    ∧ decodeSlot .header 0x40000000 [] = .ok .segmentMark ∧ decodeSlot .header 0x00400000 [] = .ok (.queuePop 1)
    ∧ bundleLength 0x0052081B = 28 ∧ decodeHeader 0x00060000 = .error .cxReserved := ⟨rfl, rfl, rfl, rfl, rfl, rfl⟩

/-- R142: the bundle of 24's store and command: header 0x0000_8888 has M and F, each with an extension word. -/
theorem test_bundle_of_two_slots : (match decodeBundle [0x00008888, 0x2404003F, 0xF8, 0x2C00FF46, 0x3200] with
    | .ok b => b.len == 20 && b.ops == [(.m, .stw (.p 0) .a 4 (.reg 0) (.lit 0xF8)), (.f, .binit (.p 0) (.lit 0x3200) (.const 4) 6)]
    | .error _ => false) = true := by decide +kernel

/-- R145, R148, R152, R155, R173: words that are no instruction, each by the rule it breaks. -/
theorem test_reserved_words : decodeSlot .c 0x56A00031 [] = .error .guardCode ∧ decodeSlot .c 0x48650002 [] = .error .unusedField
    ∧ decodeSlot .a 0x780107F0 [] = .error .extensionWord ∧ decodeSlot .v 0x14020409 [] = .error .formatCode
    ∧ decodeSlot .c 0x50020FFF [] = .error .csrNumber := ⟨rfl, rfl, rfl, rfl, rfl⟩

/-- The encoder gives the worked words back, and a table word without a slot of its own reads as its row (R147). -/
theorem test_encode_and_table : encode (.vst (.p 0) .v 5 (.reg 2) (.const 0) (some ⟨4, true⟩)) = some ⟨.m, 0x300540B0, [0xC]⟩
    ∧ encode (.mloopZ 4 0 5) = some ⟨.micro, 0x3C000A00, []⟩
    ∧ decodeTableWord 32 0x50020031 = some (.csrr (.p 0) 1 0x031) := ⟨rfl, rfl, rfl⟩

/-! Well-formedness: a term for each check, which the check refuses, beside one that it takes. -/

theorem test_ill_formed_control : ([.jmp (.t 1) 0, .jmpl (.p 0) 2, .suspTarget (.p 0) 6 none,
    .mbr (.p 0) 0 1 2 0 0 0 0 0 0, .csrr (.p 0) 0 0xFFF, .lshare (.p 0) 65, .xmovC (.p 0) 0 .x 9].all
      fun i => !Instr.wf i) = true := by decide +kernel

theorem test_ill_formed_scalar_and_memory : ([.add .a (.p 0) 1 (.lit 1) (.lit 2), .ldw (.p 0) .x 9 (.reg 1) (.reg 2),
    .stw (.p 0) .c 31 (.reg 1) (.reg 2), .vld (.p 0) .v 1 (.lit 4) (.reg 0) (some ⟨1, false⟩),
    .gld (.p 0) 1 (.lit 4) (.reg 0) 0 0, .gatom (.p 0) 1 (.reg 1) (.reg 0) 3 true 0,
    .vstm (.p 0) .v 1 (.reg 1) (.reg 0) (some ⟨0, false, 2, some .b32⟩)].all fun i => !Instr.wf i) = true := by decide +kernel

theorem test_ill_formed_vector : ([.vabs .v 0 .b8 (.reg 1) (.reg 1), .vadd .v 0 .fp32 (.reg 1) (.lit 1) (.lit 2),
    .vsqrt .v 0 .i32 (.reg 1) (.reg 1), .vcvt .v 0 .fp32 .fp32 (.reg 1) (.reg 1) 0, .vcmpeq .v 0 .fp16 2 (.reg 1) (.reg 2) none,
    .vcmpeq .v 0 .fp32 2 (.reg 1) (.reg 2) (some 4), .vcmpeq .v 0 .fp32 2 (.lit 1) (.reg 2) (some 12),
    .vpbc .v 0 3 2, .gxch .v 0 (.reg 1) (.lit 1) 0, .vsumc .v 0 .fp16 (.reg 1) (.reg 1), .vpack .v 0 .fp32 (.reg 1) (.reg 1),
    .vsum .v 0 .bx9 (.reg 1) (.reg 1), .xmovV .v 2 .a 1 (.reg 1)].all fun i => !Instr.wf i) = true := by decide +kernel

theorem test_ill_formed_others : ([.xins (.p 0) 0 0 60 4, .xmovX (.p 0) 0 .v 0 true, .rot (.p 0) (.lit 0) (.reg 1) true false 0 0,
    .cpy (.p 0) 0 (.reg 16) (.reg 1) false false false, .nli (.p 0) 0 (.reg 31), .queuePop 0, .mskz 0 0].all
      fun i => !Instr.wf i) = true := by decide +kernel

theorem test_well_formed : ([.jmp (.p 1) 0, .jmpl (.p 0) 4, .mbr (.p 0) 0 1 0 0 0 0 0 0 0, .csrr (.p 0) 0 0x031, .lshare (.p 0) 64,
    .add .a (.p 0) 1 (.lit 1) (.lit 1), .vabs .v 0 .i8 (.reg 1) (.reg 1), .vpbc .v 0 4 2, .xins (.p 0) 0 0 60 3,
    .queuePop 255, .mskz 0 1].all Instr.wf) = true := by decide +kernel

/-! Single steps, with results worked out from the rules. -/

/-- The cursor of core 0 at pc 0x100, cycle count 10, that pops every queue and has not made its checks. -/
def cursor : Cursor where
  core := 0
  gid := 1
  pc := 0x100
  seq := 0x108
  scope := 0
  pop := 0xFF
  path := 4
  checked := false
  cycle := 10
  lichen := false
  marked := false
  target := none
  post := []
  external := true
  sig := []


/-- The state after reset with a privileged task of width 1 on core 0. -/
def running : State := { placeBundle State.reset [0] with cur := cursor, agenda := [] }

/-- A task changed on core 0. -/
def withTask (f : Task → Task) : State := modTask running 0 f

/-- `exec` answers a next state of which `p` holds. -/
def runs (s : State) (i : Instr) (p : State → Bool) : Bool :=
  match exec i s with
  | .next t => p t
  | _ => false

/-- `exec` puts one result in flight, due after `lat` cycles. -/
def gives (s : State) (i : Instr) (lat : Nat) (ds : List Dest) : Bool :=
  runs s i fun t => (curTask t).pend.map (fun p => (p.due, p.dsts)) == [(10 + lat, ds)]

/-- One scalar value computed in slot A from two literals or registers. -/
def computes (x : Word × Word × (SSrc → SSrc → Instr) × Nat × Word) : Bool :=
  let s := withTask fun t => { t with a := (t.a.set 1 x.1).set 2 x.2.1 }
  gives s (x.2.2.1 (.reg 1) (.reg 2)) x.2.2.2.1 [.word .a 3 x.2.2.2.2]

/-- R218: a wrap, a borrow, shifts by 33 and 4, signed and unsigned order, a scaled sum, a 5-bit sign extension. -/
theorem test_scalar_sums : ([(0xFFFFFFFF, 1, .add .a (.p 0) 3, 1, 0), (0, 1, .sub .a (.p 0) 3, 1, 0xFFFFFFFF),
    (0xF0F0, 0xFF00, .andn .a (.p 0) 3, 1, 0x00F0), (1, 33, .sll .a (.p 0) 3, 1, 2),
    (0x80000000, 4, .sra .a (.p 0) 3, 1, 0xF8000000), (0x80000001, 4, .rol .a (.p 0) 3, 1, 0x18),
    (0xFFFFFFFF, 1, .min .a (.p 0) 3, 1, 0xFFFFFFFF), (0xFFFFFFFF, 1, .minu .a (.p 0) 3, 1, 1),
    (16, 3, (fun x y => .lea .a (.p 0) 3 x y 4), 1, 64), (0x10, 0, (fun x _ => .sxt .a (.p 0) 3 x 4), 1, 0xFFFFFFF0),
    (0x80000000, 0, (fun x _ => .abs .a (.p 0) 3 x), 1, 0x80000000)].all computes) = true := by decide +kernel

/-- R218 and R219: high halves, and the corners of division. -/
theorem test_products_and_quotients : ([(0xFFFFFFFF, 0xFFFFFFFF, .mulh .a (.p 0) 3, 3, 0),
    (0xFFFFFFFF, 0xFFFFFFFF, .mulhu .a (.p 0) 3, 3, 0xFFFFFFFE), (0x10001, 0x10001, .mul .a (.p 0) 3, 3, 0x00020001),
    (7, 0, .div .a (.p 0) 3, 12, 0xFFFFFFFF), (0xFFFFFFF9, 2, .div .a (.p 0) 3, 12, 0xFFFFFFFD),
    (0xFFFFFFF9, 2, .rem .a (.p 0) 3, 12, 0xFFFFFFFF), (0x80000000, 0xFFFFFFFF, .div .a (.p 0) 3, 12, 0x80000000),
    (0x80000000, 0xFFFFFFFF, .rem .a (.p 0) 3, 12, 0), (7, 0, .rem .a (.p 0) 3, 12, 7),
    (0xFFFFFFF9, 2, .divu .a (.p 0) 3, 12, 0x7FFFFFFC), (7, 0, .remu .a (.p 0) 3, 12, 7)].all computes) = true := by
  decide +kernel

/-- R218 and R220: 22's field of TCAUSE (position 16, length 8), a signed field, an inserted field, counts and reversals. -/
theorem test_bit_fields : ([(0x000C0005, 240, .bfxu .a (.p 0) 3, 1, 12), (0x00800000, 240, .bfx .a (.p 0) 3, 1, 0xFFFFFF80),
    (0x12, 240, .bfi .a (.p 0) 3, 1, 0x00120000), (0, 0, (fun x _ => .clz .a (.p 0) 3 x), 1, 32),
    (0x100, 0, (fun x _ => .ctz .a (.p 0) 3 x), 1, 8), (0xF0F, 0, (fun x _ => .popc .a (.p 0) 3 x), 1, 8),
    (0x11223344, 0, (fun x _ => .bswap .a (.p 0) 3 x), 1, 0x44332211), (1, 0, (fun x _ => .brev .a (.p 0) 3 x), 1, 0x80000000)].all
      computes) = true := by decide +kernel

/-- R221: signed and unsigned compares write a predicate and its complement; R165: a copy to V fills every lane. -/
theorem test_compares_and_copies :
    (let s := withTask fun t => { t with a := t.a.set 1 0xFFFFFFFF }
     gives s (.cmp .a (.p 0) 2 .lt (.reg 1) (.const 1)) 2 [.pair 2 true false]
      && gives s (.cmpu .a (.p 0) 2 .lt (.reg 1) (.const 1)) 2 [.pair 2 false true]
      && gives s (.xmovAB .a (.p 0) .c 5 (.reg 1)) 2 [.word .c 5 0xFFFFFFFF]
      && gives s (.kli (.p 0) 4 0x1FFFF) 1 [.word .c 4 0xFFFFFFFF]
      && gives s (.xadd (.p 0) 2 3 (.imm 0x7FFF)) 1 [.wide 2 0xFFFFFFFFFFFFFFFF]) = true := by decide +kernel

/-- R152: a false guard does nothing; p1 is hard-wired false (R15). -/
theorem test_false_guard : runs running (.add .a (.p 1) 1 (.const 1) (.const 1)) (fun t => t == running) = true := by decide +kernel

/-- R182, R185: displacements count words from the bundle's own address; `call` saves the next address. -/
theorem test_transfers : (runs running (.jmp (.p 0) (BitVec.ofInt 21 (-2))) (fun t => t.cur.target == some 0xF8)
    && runs running (.call (.p 0) 4) (fun t => t.cur.target == some 0x110 && (curTask t).link.head? == some 0x108
      && (curTask t).cd == 1)
    && runs (withTask fun t => { t with cd := 1, link := [0x240] }) (.ret (.p 0)) (fun t => t.cur.target == some 0x240
      && (curTask t).cd == 0)) = true := by decide +kernel

/-- R188 to R190: 12's loop of 3: the push, and the mark that goes back while the count is above 1. -/
theorem test_loop : (runs running (.loopi (.p 0) 8 3) (fun t => (curTask t).loopA.head? == some 0x108
      && (curTask t).loopB.head? == some 0x120 && (curTask t).loopC.head? == some 3 && (curTask t).ld == 1)
    && runs (withTask fun t => { t with ld := 1, loopA := [0x108], loopC := [3] }) .loopEndMark (fun t =>
      t.cur.target == some 0x108 && (curTask t).loopC.head? == some 2)
    && runs (withTask fun t => { t with ld := 1, loopA := [0x108], loopC := [1] }) .loopEndMark (fun t =>
      t.cur.target == none && (curTask t).ld == 0)) = true := by decide +kernel

/-- R348, R351: a software trap with code 2: cause 15, the bundle's own address, save mode, the handler at TVEC. -/
theorem test_trap : runs (withTask fun t => { t with tvec := 0x4000, k := t.k.set 14 7 }) (.trap (.p 0) 2) (fun t =>
    bits (curTask t).tcause 16 8 == 15 && bits (curTask t).tcause 0 16 == 2 && (curTask t).tpc == 0x100
      && (curTask t).pc == 0x4000 && (curTask t).k.getD 14 1 == 0
      && t.groups.map (fun g => (g.saveMode, g.counter)) == [(true, 0)]) = true := by decide +kernel

/-- R202, R225: `rft` returns from save mode to its register; a misaligned word load takes cause 1 outside it. -/
theorem test_return_and_misaligned_load :
    (runs { withTask (fun t => { t with k := t.k.set 3 0x200 }) with
        groups := running.groups.map fun g => { g with saveMode := true, lastCause := 15 } } (.rft (.p 0) 3)
        (fun t => t.cur.target == some 0x200 && t.groups.map Group.saveMode == [false])
      && runs running (.ldw (.p 0) .a 1 (.const 2) (.const 0)) (fun t => bits (curTask t).tcause 16 8 == 1)) = true := by
  decide +kernel

/-- R2, R224, R227: a stored word lies with its low byte first, and a signed byte load extends its sign. -/
theorem test_store_and_load : (runs (withTask fun t => { t with a := t.a.set 1 0x11223380, m := t.m.set 1 0x40 })
    (.stw (.p 0) .a 1 (.reg 1) (.const 4)) (fun t => readBytes t (nearPA 0 0x44) 4 == [0x80, 0x33, 0x22, 0x11]
      && readByte t (nearPA 0 0x43) == 0 && readByte t (nearPA 0 0x48) == 0
      && gives t (.ldb (.p 0) .a 2 (.reg 1) (.const 4)) 3 [.word .a 2 0xFFFFFF80]
      && gives t (.ldhu (.p 0) .a 2 (.reg 1) (.const 4)) 3 [.word .a 2 0x3380])) = true := by decide +kernel

/-- R74: the near layer of core 0 begins at region 1, layer 2. -/
theorem test_unmapped_near_address : runs (withTask fun t => { t with m := t.m.set 1 0x40000 })
    (.ldw (.p 0) .a 2 (.reg 1) (.const 0)) (fun t => bits (curTask t).tcause 16 8 == 7) = true := by decide +kernel

/-- A vector register with one value in every lane. -/
def every (v : Word) : Lanes := List.replicate 128 v

/-- Lane 0 of the one result in flight, and its flags. -/
def laneZero (s : State) (i : Instr) : Option (Word × Word) :=
  match exec i s with
  | .next t => match (curTask t).pend with
    | [p] => match p.dsts with
      | [.lanes _ _ v _] => some (v.getD 0 0, p.flags)
      | _ => none
    | _ => none
  | _ => none

def onLanes (a b : Word) : State :=
  withTask fun t => { t with v := (t.v.set 1 (every a)).set 2 (every b) }

/-- R267, R44, R41: 1.0 + 2.0 in fp32, an absent operand that leaves 3.0, a quieted signalling NaN (04), the symmetric
saturation of i8, and the raw sum that wraps. -/
theorem test_vector_arithmetic :
    (laneZero (onLanes 0x3F800000 0x40000000) (.vadd .v 0 .fp32 (.reg 3) (.reg 1) (.reg 2)) == some (0x40400000, 0)
      && laneZero (onLanes 0xFFFFFFFF 0x40400000) (.vadd .v 0 .fp32 (.reg 3) (.reg 1) (.reg 2)) == some (0x40400000, 0)
      && laneZero (onLanes 0xFFBFFFFF 0x40400000) (.vadd .v 0 .fp32 (.reg 3) (.reg 1) (.reg 2)) == some (0x7FC00000, stickyFlags flagNV)
      && laneZero (onLanes 0x64646481 0x64010181) (.vadd .v 0 .i8 (.reg 3) (.reg 1) (.reg 2)) == some (0x7F656581, 0)
      && laneZero (onLanes 0xFFFFFFFF 2) (.vadd .v 0 .b32 (.reg 3) (.reg 1) (.reg 2)) == some (1, 0)) = true := by decide +kernel

/-- R267: 1 / 3 in fp32 rounds to nearest even and is inexact; 1 / 0 is infinite and raises divide by zero. -/
theorem test_vector_division :
    (laneZero (onLanes 0x3F800000 0x40400000) (.vdiv .v 0 .fp32 (.reg 3) (.reg 1) (.reg 2)) == some (0x3EAAAAAB, stickyFlags flagNX)
      && laneZero (onLanes 0x3F800000 0) (.vdiv .v 0 .fp32 (.reg 3) (.reg 1) (.reg 2)) == some (0x7F800000, stickyFlags flagDZ)) = true := by
  decide +kernel

/-- R274's worked compare, lanes 0 to 3: 1.0, absent, a quiet NaN and 3.0 below 2.0. -/
theorem test_vector_compare : runs (withTask fun t => { t with
      v := (t.v.set 3 ([0x3F800000, 0xFFFFFFFF, 0x7FC00000] ++ List.replicate 125 0x40400000)).set 5 (every 0x40000000) })
    (.vcmplt .v 0 .fp32 2 (.reg 3) (.reg 5) (some 12)) (fun t => match (curTask t).pend with
      | [p] => match p.dsts with
        | [.vpair 2 (some lo) (some hi) _, .vsingle 12 wit _] =>
          lo == 1 && hi == ~~~1 && wit == 2 && p.flags == stickyFlags flagNV
        | _ => false
      | _ => false) = true := by decide +kernel

/-- R280: 16's exchange of neighbouring groups; lane 0 receives lane 16. -/
theorem test_group_exchange : laneZero (withTask fun t => { t with v := t.v.set 1 ((List.range 128).map (BitVec.ofNat 32)) })
    (.gxch .v 0 (.reg 2) (.reg 1) 0xDE54C1) = some (16, 0) := by decide +kernel

/-- 04: sixteen values encode into one BX6 group, inexact, and its elements 4, 5 and 6 decode as printed. -/
theorem test_block_encoding :
    (encodeBlock .bx6 .rne [.real false 3 1 0, .real true 5 4 0, .real false 0 1 0, .real false 0 1 0, .real false 3 10 0,
        .real true 1 10 0, .absent, .real false 0 1 0, .real false 0 1 0, .real false 0 1 0, .real false 0 1 0,
        .real false 0 1 0, .real false 0 1 0, .real false 0 1 0, .real false 0 1 0, .real false 0 1 0]
      == (0x43AA0036CFC80, flagNX)
      && (encodeFloat .fp32 Env.plain 24 (blockElem .bx6 0x43AA0036CFC80 4)).1 == 0x3EA00000
      && (encodeFloat .fp32 Env.plain 24 (blockElem .bx6 0x43AA0036CFC80 5)).1 == 0xBDC00000
      && !(blockElem .bx6 0x43AA0036CFC80 6).present) = true := by decide +kernel

/-- 04: the compensated sum of 2^24, 1, 1 and -2^24 keeps 2 in c, with four contributors. -/
theorem test_compensated_sum : ([0x4B800000, 0x3F800000, 0x3F800000, 0xCB800000].foldl (fun c p => (addProduct c p).1)
    Triple.absent) = ⟨0, 0x40000000, 4⟩ := by decide +kernel

/-- 04: the mean of a row of three whose sum is 1 drains to bf16 0.333984375. -/
theorem test_normalised_drain : (drainElem .bf16 Env.plain (drainVal ⟨0x3F800000, 0, 3⟩ true false)).1 = 0x3EAB := by
  decide +kernel

/-- 16 and R291: pattern 4 repacks the second quad of that group. -/
theorem test_bit_network : gives (withTask fun t => { t with
      n := (t.n.set 1 0x036CFC80).set 2 0x00043AA0,
      patterns := t.patterns.set 4 ([0x24, 0x25, 0x26, 0x27, 0x28, 0x28, 0x28, 0x28, 0x29, 0x2A, 0x2B, 0x2C, 0x2D, 0x2D, 0x2D,
        0x2D, 0x2E, 0x2F, 0x30, 0x31, 0x32, 0x32, 0x32, 0x32, 0x33, 0x34, 0x35, 0x36, 0x37, 0x37, 0x37, 0x37]) })
    (.bnet (.p 0) 3 (.reg 1) (.reg 2) 4) 2 [.word .n 3 0x00F0FD0A] = true := by decide +kernel

/-- R103: a barrier that expects 32 bytes fires when the second 16 arrive. -/
theorem test_barrier : (let s := { running with dom := { running.dom with
      barriers := [(barKey 0 40, ⟨32, 16, 6, true, false, 2, 0, none⟩)] } }
    runs s (.barv (.p 0) (.lit 0x2800) (.lit 16)) (fun t => barrierOf t 0 40 == ⟨32, 0, 7, true, false, 2, 0, none⟩)) = true := by
  decide +kernel

/-- 12: a wait entry of die 1, cluster 7, barrier 40, generation 6 holds until the generation is 7 (R22, R25). -/
theorem test_wait_entry : (let s := { running with dom := { running.dom with
      barriers := [(barKey 31 40, ⟨0, 0, 6, false, false, 2, 0, none⟩)] } }
    let t := { running with dom := { running.dom with barriers := [(barKey 31 40, ⟨0, 0, 7, false, false, 2, 0, none⟩)] } }
    !waitSatisfied s 0xA7002806 && waitSatisfied t 0xA7002806) = true := by decide +kernel

/-- R26: a step after reset runs the placed word: `cmp.eq p2, a1, 12` with a1 = 0 writes p2 false, p3 true. -/
theorem test_step_runs_the_placed_bundle : (match step (State.reset.withFetchWord 32 0x780107C0) with
    | .next t => (taskOf t 0).pend.map Pending.dsts == [[.pair 1 false true]] && (taskOf t 0).pc == 8
    | _ => false) = true := by decide +kernel

/-- R300: a step after reset runs the placed micro-op: `mset z3, 5`. -/
theorem test_step_runs_the_placed_micro_op : (match step (State.reset.withFetchWord 32 0xA6000005) with
    | .next t => (coreOf t 0).mx.routine.map (fun r => (r.z.getD 3 0, r.pc)) == some (5, 1)
    | _ => false) = true := by decide +kernel

/-! Witnesses: for each statement with hypotheses, states and operands that meet them, clause by clause. -/

/-- Every instruction of the list issues in the state: its guard holds and its checks find nothing. -/
def ready (s : State) (l : List Instr) : Bool := l.all fun i => issues i s

/-- What `TakesTrap` asks of a state and an instruction. -/
def trapsFrom (s : State) (l : List Instr) : Bool := l.all fun i =>
  !s.cur.checked && !s.cur.lichen && (groupOf s s.cur.gid).isSome && guarded s i
    && i.queueHeads.all fun q => s.cur.pop.getLsbD q && !queueEmpty s q

/-- The running state with its cursor changed. -/
def withCursor (f : Cursor → Cursor) : State := { running with cur := f cursor }

/-- The running state with its group changed. -/
def withGroup (f : Group → Group) : State := { running with groups := running.groups.map f }

/-- The running state with its cursor in the lichen context. -/
def inLichen : State := withCursor fun c => { c with lichen := true, gid := 0 }

/-- The running state, tracing every type into a ring of 4 records at 0x8000. -/
def tracing (s : State) : State := { s with pkg := { s.pkg with trctl := 0x800000020000FFFF, trbase := 0x8000 } }

/-- The running state whose logs have no room. -/
def noRoom (s : State) : State := { s with pkg := { s.pkg with logcfg := 0x8000003000000000 } }

/-- A state that has logged nothing, with the reset capacity, has room in every log. -/
theorem roomy_of_empty {s : State} (n : Nat) (hn : n ≤ 67108864) (hc : logCapacity s = 2 ^ 26) (hd : s.dies = running.dies)
    (hr : s.dom.regionLog = []) : Roomy s n := by
  refine Or.inr fun d => ?_
  have hu : (die s d).undo = [] := by
    unfold die
    rw [hd]
    match d with
    | 0 | 1 | 2 | 3 => rfl
    | d + 4 => rfl
  simp [logUsed, hu, hr, hc, hn]

theorem witness_room_in_the_logs : Roomy running 1024 ∧ Roomy running (2 ^ 26) :=
  ⟨roomy_of_empty _ (by decide) (by decide) rfl rfl, roomy_of_empty _ (by decide) (by decide) rfl rfl⟩

theorem witness_ScalarSumsAndLogicGiveTheTabledResult : (let r : SSrc := .reg 31
    ready running [.add .a (.p 0) 31 r r, .sub .a (.p 0) 0 r r, .and .b (.p 0) 1 r r, .or .b (.p 0) 1 r r, .xor .a (.p 0) 1 r r,
      .andn .a (.p 0) 1 r r, .sll .a (.p 0) 1 r r, .srl .a (.p 0) 1 r r, .sra .a (.p 0) 1 r r, .rol .a (.p 0) 1 r r,
      .min .a (.p 0) 1 r r, .max .a (.p 0) 1 r r, .minu .a (.p 0) 1 r r, .maxu .a (.p 0) 1 r r, .li .a (.p 0) 1 r,
      .lea .a (.p 0) 1 r r 15, .sel .a (.p 0) 1 15 r r, .sxt .a (.p 0) 1 r 15, .zxt .a (.p 0) 1 r 0, .abs .a (.p 0) 1 r]) = true := by
  decide +kernel

theorem witness_ProductsAndQuotientsGiveTheTabledResult : (let r : SSrc := .reg 31
    ready running [.mul .a (.p 0) 1 r r, .mulh .b (.p 0) 1 r r, .mulhu .a (.p 0) 1 r r, .div .a (.p 0) 1 r r, .rem .a (.p 0) 1 r r,
      .divu .a (.p 0) 1 r r, .remu .a (.p 0) 1 r r]) = true := by decide +kernel

theorem witness_BitFieldsAndCountsGiveTheTabledResult : (let r : SSrc := .lit 0x3FF
    ready running [.bfxu .a (.p 0) 1 r r, .bfx .b (.p 0) 1 r r, .bfi .a (.p 0) 1 r r, .clz .a (.p 0) 1 r, .ctz .a (.p 0) 1 r,
      .popc .a (.p 0) 1 r, .bswap .a (.p 0) 1 r, .brev .a (.p 0) 1 r]) = true := by decide +kernel

theorem witness_ComparesWriteAPredicateAndItsComplement : (let r : SSrc := .reg 31
    ready running [.cmp .a (.p 0) 7 .ge r r, .cmpu .b (.p 0) 0 .lt r r, .xmovpSet .a (.p 0) 7 r, .xmovpGet .b (.p 0) 31]) = true := by
  decide +kernel

theorem witness_RegisterFormsOfTheOtherSlotsGiveTheirResult_copies : (let r : SSrc := .reg 1
    [File.v, .w, .a, .x].all fun fl => ready running [.xmovAB .a (.p 0) fl 7 r, .xmovC (.p 0) 15 fl 7, .xmovM (.p 0) fl 7 r,
      .xmovF (.p 0) fl 7 r, .xmovN (.p 0) fl 7 r]) = true := by decide +kernel

theorem witness_RegisterFormsOfTheOtherSlotsGiveTheirResult : (let r : SSrc := .reg 15
    ready running [.kli (.p 0) 15 0, .kliLong (.p 0) 15 0, .mli (.p 0) 31 r, .madd (.p 0) 1 r r, .fli (.p 0) 15 r, .fadd (.p 0) 1 r r,
      .fsub (.p 0) 1 r r, .fsll (.p 0) 1 r r, .cpstat (.p 0) 1 r, .nli (.p 0) 15 r, .nadd (.p 0) 1 r r, .nfill (.p 0) 1 r 2,
      .xli (.p 0) 7 (.imm 0), .xlih (.p 0) 7 (.ext 0), .xadd (.p 0) 7 7 (.imm 0), .xadd (.p 0) 7 7 (.ext 0), .xins (.p 0) 7 7 60 3,
      .xins (.p 0) 7 7 0 63, .xmovX (.p 0) 7 .x 7 false, .xmovX (.p 0) 7 .x 7 true, .xmovX (.p 0) 7 .a 31 false]) = true := by
  decide +kernel

theorem witness_ControlRegisterFormsReadAtIssueAndWriteLater : ([0, 5, 0x34].all (fun n => ready running
      [.csrw (.p 0) 15 n, .csrwValue (.p 0) n 1, .csrr (.p 0) 15 n])
    && ready running [.setfmt (.p 0) 15, .setfmtValue (.p 0) 0, .lshare (.p 0) 64] && !running.cur.lichen
    && ready inLichen [.lshare (.p 0) 64] && inLichen.cur.lichen
    && decide (leadingValue running 15 = none)
    && [5, 6, 7, 0x34, 0x35].all (fun n =>
      let pair (sig : List SigItem) : State := withGroup fun g =>
        { g with members := [1], trailing := [0], twin := true, signatures := [sig] }
      ready (pair [⟨66, n, 9⟩]) [.csrr (.p 0) 15 (BitVec.ofNat 12 n)] && ready (pair []) [.csrr (.p 0) 15 (BitVec.ofNat 12 n)]
        && (curGroup (pair [⟨66, n, 9⟩])).any fun g => g.trailing.contains 0 && g.rankOf 0 == 0 && g.signatures == [[⟨66, n, 9⟩]]))
      = true := by decide +kernel

theorem witness_HardWiredAndControlRegistersReadAsStated_csrs : (let s := { running with cur := { cursor with core := 8191 - 2048 + 1152 } }
    identity s % 2048 == 1151 && decide (identity s < 8192) && decide ((curTask s).status < 0x4000)) = true := by decide +kernel

theorem witness_TransfersSelectTheNextBundle : (ready running [.jmp (.p 0) 0, .jmpl (.p 0) 0, .jr (.p 0) 15, .call (.p 0) 0,
      .calll (.p 0) 0, .mbr (.p 0) 5 0 0 0 0 0 0 0 0]
    && ready (withTask fun t => { t with cd := 1 }) [.ret (.p 0)]
    && ready (withTask fun t => { t with cd := 8 }) [.ret (.p 0)]) = true := by decide +kernel

theorem witness_HardwareLoopsPushCountAndLeave : (ready running [.loopi (.p 0) 0 0, .loopi (.p 0) 0 1, .loop (.p 0) 3 0]
    && ready (withTask fun t => { t with ld := 3, k := t.k.set 3 1 }) [.loop (.p 0) 3 0]
    && ready (withCursor fun c => { c with marked := true }) [.loopi (.p 0) 0 1]
    && ready (withTask fun t => { t with ld := 1 }) [.lexit (.p 0)] && !traced running 5
    && (let s := withTask fun t => { t with ld := 1, loopC := [2] }
        decide (s.cur.target = none) && decide ((curTask s).ld ≠ 0) && decide (1 < ((curTask s).loopC.getD 0 0).toNat))
    && (let s := withTask fun t => { t with ld := 4, loopC := [0, 0, 0, 1] }
        decide (((curTask s).loopC.getD 3 0).toNat ≤ 1) && !traced s 5)
    && (withCursor fun c => { c with target := some 0 }).cur.target.isSome
    && decide ((curTask running).ld = 0) && running.cur.target.isNone
    && (let s := tracing (withTask fun t => { t with ld := 1, loopC := [1] })
        traced s 5 && ready s [.lexit (.p 0)] && (coreOf s 0).loss == [] && (coreOf s 0).traceDropped == 0
          && decide (bits s.pkg.trbase 5 47 * 32 + 32 * (s.pkg.trhead % 2 ^ bits s.pkg.trctl 32 5) + 32 ≤ lpddrSize)
          && decide (Memory.wf s.mem))) = true := by decide +kernel

theorem witness_SuspensionsWaitForTheirPoint : ((groupOf running 1).isSome && ready running [.susp (.p 0) 15 none,
      .susp (.p 0) 15 (some 3), .suspTarget (.p 0) 4 (some 0), .endTask (.p 0), .irrev (.p 0) 15, .irrevTarget (.p 0) 4]) = true := by
  decide +kernel

theorem witness_SpawnClaimsAndOffersRecords : ((groupOf running 1).isSome && ready running [.spawn (.p 0) 15 15, .spawnn (.p 0) 1 2 3]
    && ready (withCursor fun c => { c with external := false }) [.spawn (.p 0) 15 15, .spawnn (.p 0) 1 2 3]
    && (let o : Offer := ⟨0, 1, 0, 1, 0, true, 0, 256⟩
        let wide := withCursor fun c => { c with scope := 1 }
        let busy : State := modTask wide 0 fun t => { t with remotes := [⟨34, 0, 0, 47, .load 0 none .m 1, true, false, none, false⟩] }
        running.cur.external && running.offers == [] && Offer.ready running { o with scope := 0 } && Offer.ready wide o
          && !Offer.ready busy o && ready busy [.spawn (.p 0) 15 15, .spawnn (.p 0) 1 2 3]
          && ({ running with offers := [o] } : State).offers.any (fun o => o.core == 0)
          && ready { running with offers := [o] } [.spawn (.p 0) 15 15])) = true := by decide +kernel

theorem witness_TakingAnExceptionSavesAndEntersTheHandler : (running.groups.map fun g =>
    ((groupOf running g.gid == some g) && !g.saveMode && decide g.all.Nodup)) = [true] := by decide +kernel

theorem witness_TakingAnExceptionSavesAndEntersTheHandler_in_save_mode : (let s := withGroup fun g => { g with saveMode := true }
    s.groups.map fun g => groupOf s g.gid == some g && g.saveMode) = [true] := by decide +kernel

theorem witness_TrapTakesTheSoftwareTrap : (trapsFrom running [.trap (.p 0) 0, .trap (.p 0) 0xFFFF]
    && (let late := withTask fun t => { t with remotes := [⟨34, 0, 0, 47, .load 0 none .m 1, true, false, none, false⟩] }
        trapsFrom late [.trap (.p 0) 0] && late.groups.all (drainsStill late) && running.groups.all (fun g => !drainsStill running g))
    && !running.cur.lichen && !guardHolds running (.p 1)) = true := by decide +kernel

theorem witness_ReturnFromExceptionLeavesSaveMode : ([15, 12].all (fun code =>
      let s := withGroup fun g => { g with saveMode := true, lastCause := code }
      (groupOf s 1).isSome && ready s [.rft (.p 0) 15])
    && trapsFrom running [.rft (.p 0) 15] && (running.groups.all fun g => !g.saves 0)
    && (let s := withGroup fun g => { g with members := [1], trailing := [0], twin := true, trailingSave := true, lastCause := 15 }
        s.groups.all (fun g => g.saves 0 && g.trailing.contains 0) && ready s [.rft (.p 0) 15])) = true := by decide +kernel

theorem witness_PrivilegedFormsTrapOutsidePrivilegedMode : (let s := withGroup fun g => { g with privProgram := false }
    !privileged s && trapsFrom s [.lshare (.p 0) 0, .mload (.p 0) 0 7, .mcancel (.p 0), .csrw (.p 0) 0 0x008, .csrw (.p 0) 0 0x00C,
      .csrw (.p 0) 0 0x030, .csrw (.p 0) 0 0x035, .csrwValue (.p 0) 0x040 0, .csrwValue (.p 0) 0x04F 0]
      && (withCursor fun c => { c with lichen := true }).cur.lichen && (groupOf s s.cur.gid).isSome && !s.cur.lichen) = true := by
  decide +kernel

/-- The running state with two M registers set. -/
def atAddress (a : Word) : State := withTask fun t => { t with m := t.m.set 1 a }

theorem witness_NearAccessesTrapOnBadAddresses : (let x : SSrc := .reg 1
    let y : SSrc := .const 0
    let lost (s : State) : State := modCore s 0 fun c => { c with lost := 2 }
    trapsFrom (atAddress 1) [.ldh (.p 0) .a 1 x y, .ldhu (.p 0) .a 1 x y, .sth (.p 0) .a 1 x y]
      && trapsFrom (atAddress 2) [.ldw (.p 0) .a 1 x y, .stw (.p 0) .a 1 x y]
      && trapsFrom (atAddress 4) [.ldd (.p 0) 1 x y, .std (.p 0) 1 x y]
      && trapsFrom (atAddress 0x40000) [.ldb (.p 0) .a 1 x y, .ldbu (.p 0) .a 1 x y, .stb (.p 0) .a 1 x y, .ldh (.p 0) .a 1 x y,
        .sth (.p 0) .a 1 x y, .ldw (.p 0) .a 1 x y, .stw (.p 0) .a 1 x y, .ldd (.p 0) 1 x y, .std (.p 0) 1 x y]
      && trapsFrom (lost (atAddress 8)) [.ldb (.p 0) .a 1 x y, .ldd (.p 0) 1 x y]
      && !mapped (lost (atAddress 8)) (nearPA 0 8)) = true := by decide +kernel

theorem witness_StacksTrapAtTheirLimits :
    (trapsFrom (withTask fun t => { t with cd := 8 }) [.call (.p 0) 0, .calll (.p 0) 4]
      && (let s := withTask fun t => { t with cd := 7 }
          decide ((curTask s).cd < 8) && !s.cur.checked && !s.cur.lichen && guardHolds s (.p 0))
      && trapsFrom running [.ret (.p 0), .lexit (.p 0), .rgclose (.p 0)]
      && (let s := withTask fun t => { t with cd := 1, link := [8] }
          decide (((curTask s).link.getD 0 0).toNat % 4 = 0) && guardHolds s (.p 0))
      && (let s := withTask fun t => { t with ld := 4, k := t.k.set 3 1 }
          trapsFrom s [.loop (.p 0) 3 0, .loopi (.p 0) 0 1] && kVal s 3 != 0)
      && trapsFrom (withTask fun t => { t with depth := 4 }) [.rgopen (.p 0) 0]
      && trapsFrom (withTask fun t => { t with depth := 1 }) [.susp (.p 0) 0 none, .suspTarget (.p 0) 4 none, .endTask (.p 0),
        .irrev (.p 0) 0, .irrevTarget (.p 0) 4]) = true := by decide +kernel

theorem witness_AFalseGuardPerformsNothing : (let i : Instr := .add .a (.p 1) 1 (.reg 1) (.reg 1)
    !guarded running i && (stopOf i running).isNone && (withCursor fun c => { c with checked := true }).cur.checked
      && !guarded (withCursor fun c => { c with checked := true }) i) = true := by decide +kernel

theorem witness_RegionsSealsAndDebugStopsTakeTheirPlace : ((groupOf running 1).isSome
    && (let s := modCore running 0 fun c => { c with dbg := { c.dbg with en := true } }
        (coreOf s 0).dbg.en && ready s [.brk (.p 0) 0xFFFF])
    && ready running [.brk (.p 0) 0, .rgopen (.p 0) 0, .qwait (.p 0), .drain (.p 0), .seal (.p 0)]
    && ready (withTask fun t => { t with depth := 3 }) [.rgopen (.p 0) 0]
    && ready (withTask fun t => { t with depth := 1 }) [.rgclose (.p 0)]
    && ready (withTask fun t => { t with depth := 4 }) [.rgclose (.p 0)]
    && (let s := { running with pkg := { running.pkg with firstEnable := true } }
        ready s [.seal (.p 0)] && s.cur.external && s.pkg.firstEnable && decide (s.seals.phase = .none))
    && (let s := { running with pkg := { running.pkg with firstEnable := true }, seals := { running.seals with phase := .agreement } }
        ready s [.seal (.p 0)])
    && [SealPhase.quiesce, .checkpoint].all (fun p => ready { running with seals := { running.seals with phase := p } } [.seal (.p 0)])
    && ready (withCursor fun c => { c with external := false, scope := 1 }) [.seal (.p 0), .drain (.p 0), .drain (.p 0)]
    && (let s := { withTask (fun t => { t with depth := 4 }) with dom := { running.dom with entangled := [(0, 4)] } }
        ready s [.rgclose (.p 0)] && s.dom.entangled.contains (0, 4) && s.groups.all fun g => g.frond == 0)) = true := by
  decide +kernel

theorem witness_NearLoadsGiveTheirBytes : (let x : SSrc := .reg 1
    let y : SSrc := .const 0
    ready (atAddress 0x3FFFF) [.ldb (.p 0) .a 31 x y, .ldbu (.p 0) .m 1 x y]
      && ready (atAddress 0x3FFFE) [.ldh (.p 0) .c 15 x y, .ldhu (.p 0) .f 1 x y, .pld (.p 0) none x y]
      && ready (atAddress 0x3FFFC) [.ldw (.p 0) .v 27 x y] && ready (atAddress 0x3FFF8) [.ldd (.p 0) 7 x y]
      && ready (atAddress 0x3FFF0) [.pld (.p 0) (some 1) x y, .pld (.p 0) (some 2) x y, .pld (.p 0) (some 15) x y]
      && (let s := atAddress 0x3FFF0
          (List.range 16).all fun j => (0 : Mask).extractLsb' (8 * j) 8 == readByte s (nearPA 0 0x3FFF0 + j))) = true := by
  decide +kernel

theorem witness_NearStoresWriteTheirBytesAlone : (let x : SSrc := .reg 1
    let y : SSrc := .const 0
    let near (s : State) (n : Nat) : Bool := decide (s.cur.core < 8192) && decide (s.cur.core % 2048 < 1152)
      && decide (nearAddr s x y + n ≤ 262144)
    ready (atAddress 0x3FFFF) [.stb (.p 0) .a 31 x y] && near (atAddress 0x3FFFF) 1
      && ready (atAddress 0x3FFFE) [.sth (.p 0) .c 15 x y, .pst (.p 0) none x y] && near (atAddress 0x3FFFE) 2
      && ready (atAddress 0x3FFFC) [.stw (.p 0) .v 27 x y] && near (atAddress 0x3FFFC) 4
      && ready (atAddress 0x3FFF8) [.std (.p 0) 7 x y] && near (atAddress 0x3FFF8) 8
      && ready (atAddress 0x3FFF0) [.pst (.p 0) (some 0) x y, .pst (.p 0) (some 15) x y] && near (atAddress 0x3FFF0) 16
      && (let s := { noRoom (atAddress 0x3FFFC) with cur := { cursor with checked := true } }
          ready s [.stw (.p 0) .v 27 x y] && logFull s (writerOf s) (linesOf (nearPA 0 0x3FFFC) 4))
      && (let s := { atAddress 0x3FFFC with cur := { cursor with scope := 1 } }
          let own : State := modTask s 0 fun t =>
            { t with remotes := [⟨34, 0, 0, 0, .store [(64, [1, 2, 3, 4])] .other, true, false, none, false⟩] }
          ready s [.stw (.p 0) .v 27 x y] && logCapacity s == 2 ^ 26 && s.dom.regionLog == [] && s.cur.scope != 0
            && ready { own with now := 9 } [.stw (.p 0) .v 27 x y] && own.dom.regionLog == [])
      && (List.range 16).all fun j => (0xAAA9 : BitVec 16).getLsbD j == readPred (curTask running) j) = true := by decide +kernel

theorem witness_VectorLoadsReadOneRowOfEveryBank : (let x : SSrc := .reg 1
    let y : SSrc := .const 0
    ready (atAddress 511) [.vld (.p 0) .v 27 x y none, .vld (.p 0) .w 0 x y (some ⟨4, true⟩)]
      && ready (atAddress 496) [.vldth (.p 0) .v 27 x y (some (4, 15)), .vldth (.p 0) .v 0 x y (some (6, 0))]
      && ready (atAddress (47 * 2 ^ 18 + 0x3FFFC)) [.rld (.p 0) .m 31 x y] && ready (atAddress (47 * 512 + 511)) [.rvld (.p 0) .w 27 x y none]
      && [0, 1].all (fun n =>
        let s : State := { atAddress (47 * 512 + 511) with cur := { cursor with scope := n } }
        let late := modTask { s with now := 9 } 0 fun t => { t with fences := [4], remotes := [⟨34, 0, 3, 47, .load 0 none .m 1, true, false, none, false⟩] }
        ready s [.rvld (.p 0) .w 27 x y none] && ready late [.rvld (.p 0) .w 27 x y none] && fenced late 0 9 && !fenced s 0 9)) = true := by
  decide +kernel

theorem witness_VectorStoresWriteOneRowOfEveryBank : (let x : SSrc := .reg 1
    let y : SSrc := .const 0
    let inside (s : State) : State := { s with cur := { s.cur with external := false } }
    ready (atAddress 511) [.vst (.p 0) .v 27 x y none, .vstm (.p 0) .w 0 x y (some ⟨4, true, 3, some .i8⟩)]
      && decide (nearAddr (atAddress 511) x y < 512) && !(atAddress 511).pkg.trctl.getLsbD 63
      && ready (atAddress (47 * 512 + 511)) [.rvst (.p 0) .w 27 x y none] && decide ((47 * 512 + 511) / 512 % 64 < 48)
      && ready (atAddress (47 * 2 ^ 18 + 0x3FFFC)) [.rst (.p 0) .m 31 x y] && decide ((47 * 2 ^ 18 + 0x3FFFC) % 2 ^ 18 + 4 ≤ 2 ^ 18)
      && ready (inside (atAddress 511)) [.rvst (.p 0) .w 27 x y none] && ready (inside (atAddress 0)) [.rst (.p 0) .m 31 x y]
      && decide (running.cur.core < 8192)) = true := by decide +kernel

theorem witness_VectorElementFormsActOnEveryActiveLane : (let a : VSrc := .reg 27
    let d : VDst := .reg 0
    ready running [.vadd .v 0 .fp32 .latchOnly a a, .vsub .w 15 .i8 d a a, .vmul .v 0 .b16 d a a, .vmin .v 0 .fp16 d a a,
      .vmax .v 0 .bf16 d a a, .vdiv .v 0 .i32 d a a, .vscl .v 0 .fp32 d a a, .vsgnj .v 0 .fp32 d a a, .vand .v 0 .b32 d a a,
      .vor .v 0 .b32 d a a, .vxor .v 0 .b32 d a a, .vshl .v 0 .b8 d a a, .vshr .v 0 .b8 d a a, .vsra .v 0 .b8 d a a,
      .vfma .v 0 .fp32 27 a a, .vfms .v 0 .fp32 0 a a, .vfnma .v 0 .fp32 0 a a, .vclamp .v 0 .fp32 0 a a, .vabs .v 0 .i8 d a,
      .vneg .v 0 .i8 d a, .vrcp .v 0 .fp32 d a, .vsqrt .v 0 .fp32 d a, .vround .v 0 .fp32 d a, .vtrunc .v 0 .fp32 d a,
      .vrsqrt .v 0 d a, .vexp2 .v 0 d a, .vlog2 .v 0 d a, .vsin .v 0 d a, .vcos .v 0 d a, .vtanh .v 0 d a, .vsigm .v 0 d a,
      .vcvt .v 0 .i8 .fp32 d a 3]) = true := by decide +kernel

theorem witness_ElementArithmeticFollowsItsClass : ([(Format.b8, 255, 0), (.b32, 0, 2 ^ 32 - 1), (.i8, 128, 0), (.i32, 2 ^ 31, 2 ^ 32 - 1)].all
    fun x => decide (x.2.1 < 2 ^ x.1.width) && decide (x.2.2 < 2 ^ x.1.width) && !x.1.isFloat) = true := by decide +kernel

theorem witness_VectorMovementCopiesPatterns : (let a : VSrc := .reg 27
    let d : VDst := .reg 0
    ready running [.vsel .v 0 15 .latchOnly a a, .vmov .w 0 d a, .vbcast .v 0 15 d a, .vlane .v 15 d, .vperm .v 0 d a a,
      .gxch .v 0 d a 0xDE54C1, .vpcnt .v 0 d 15, .vmkab .v 0 .i8 d a 15, .vxld .v 0 d a a 2, .vxld .v 0 .latchOnly a a 0,
      .xmovV .v 0 .w 27 a, .xmovV .w 0 .v 0 a, .xmovV .v 0 .a 31 a]
      && (List.range 128).all (fun k => (BitVec.allOnes 128).getLsbD k
        == (decide ((laneVal running .v a k).toNat < 16) && (readVPred (curTask running) 0).getLsbD (k / 16 * 16 + (laneVal running .v a k).toNat)))) = true := by
  decide +kernel

theorem witness_VectorComparesAndPredicatesWritePairs : (let a : VSrc := .reg 27
    let b : VSrc := .reg 1
    ready running [.vcmpeq .v 0 .fp32 7 a b none, .vcmpne .w 0 .i32 0 a b (some 15), .vcmplt .v 15 .b32 2 a b (some 2),
      .vcmple .v 0 .fp32 2 a b none, .vcmpgt .v 0 .fp32 2 a b none, .vcmpge .v 0 .fp32 2 a b none, .visab .v 0 .i8 7 a,
      .vpand .v 0 7 15 0, .vpor .v 0 0 1 2, .vpxor .v 0 1 1 2, .vpnot .v 0 1 15, .vpbc .v 0 7 15]
      && (List.range 128).all (fun k => (BitVec.allOnes 128).getLsbD k == (laneVal running .v a k == laneVal running .v b k)
        && !isAbsent .fp32 (laneVal running .v a k).toNat)) = true := by decide +kernel

theorem witness_ReductionsAndBlockFormsActOnLaneGroups : (let a : VSrc := .reg 27
    let d : VDst := .reg 0
    ready running [.vsum .v 0 .fp32 d a, .vrmin .w 15 .i8 d a, .vrmax .v 0 .b16 .latchOnly a, .vsumc .v 0 .i32 d a, .vpack .v 0 .bx9 d a,
      .vunpk .v 0 .bx4 d a] && !Format.i8.isFloat && Format.i8.isInt && !Format.b8.isFloat && !Format.b8.isInt) = true := by
  decide +kernel

/-- The running state with one barrier of cluster 0 that expects and holds given bytes. -/
def withBarrier (expected arrived : Nat) : State :=
  { running with dom := { running.dom with barriers := [(barKey 0 40, ⟨expected, arrived, 255, true, false, 2, 0, none⟩)] } }

theorem witness_BarriersArriveStartAndIdle : (let x : SSrc := .lit 0x2800
    let n : SSrc := .const 8
    let clear (s : State) : Nat := (barrierOf s 0 40).arrived
    let in' (f : Cursor → Cursor) (s : State) : State := { s with cur := f s.cur }
    let lichen := in' (fun _ => inLichen.cur)
    let waiting : State := modTask (withBarrier 32 16) 0 fun t => { t with remotes := [⟨34, 0, 0, 47, .load 0 none .m 1, true, false, none, false⟩] }
    let all : List Instr := [.barv (.p 0) x n, .binit (.p 0) x n 6, .bidle (.p 0) x]
    ready (withBarrier 32 16) all && accessesDone running 0 running.now && !running.gather && !running.cur.lichen
      && ready waiting [.barv (.p 0) x n] && !accessesDone waiting 0 waiting.now
      && ready { withBarrier 32 16 with gather := true } all
      && ready (lichen (withBarrier 32 16)) all && ready (lichen (withBarrier 16 9)) all && inLichen.cur.lichen
      && decide (8 < clear (withBarrier 32 16)) && decide (clear (withBarrier 8 7) < 8) && clear (withBarrier 16 8) == 8
      && ready (withBarrier 8 7) [.binit (.p 0) x n 0] && ready (withBarrier 16 8) [.binit (.p 0) x n 0]
      && ready (withBarrier 16 9) [.binit (.p 0) x n 0]
      && ready (in' (fun c => { c with external := false }) (withBarrier 8 0)) [.barv (.p 0) x n, .binit (.p 0) x n 0, .bidle (.p 0) x]) = true := by
  decide +kernel

/-- The running state with F registers set. -/
def withF (a b : Word) : State := withTask fun t => { t with f := (t.f.set 1 a).set 2 b }

theorem witness_RotationsAndMessagesGoInFlight : ((curGroup running).isSome && (curGroup inLichen).isNone
    && ready (withF 0x3C000 0) [.rot (.p 0) (.reg 1) (.reg 2) true true 1023 1023]
    && ready { withF 0x3C000 0 with cur := inLichen.cur } [.rot (.p 0) (.const 0) (.const 0) false false 0 0]
    && ready (withF 0x3FFF0 47) [.qpush (.p 0) (.reg 1) (.reg 2) 3]
    && ready { withF 0x3FFF0 47 with cur := { cursor with external := false } } [.qpush (.p 0) (.reg 1) (.reg 2) 3]) = true := by
  decide +kernel

/-- Every engine command with its opcode. -/
def engineCommands : List (Nat × Option SSrc × Instr) :=
  let x : SSrc := .reg 1
  let y : SSrc := .const 0
  [(0x01, x, .cpy (.p 0) 15 x y false true true), (0x02, x, .cpy2d (.p 0) 15 x y false true true),
    (0x03, x, .cpyt (.p 0) 15 x y false true true), (0x04, x, .cpyg (.p 0) 15 x y false true true),
    (0x05, x, .cpys (.p 0) 15 x y false true true), (0x06, x, .strm (.p 0) 15 x y false true true),
    (0x07, x, .strmx (.p 0) 15 x y false true true), (0x08, x, .cpyx (.p 0) 15 x y false true true),
    (0x09, x, .mcast (.p 0) 15 x y false true true), (0x0F, x, .tsort (.p 0) 15 x y false true true),
    (0x16, x, .cpfill (.p 0) 15 x y false true true), (0x18, x, .sqcfg (.p 0) 15 x y false true true),
    (0x19, x, .sqbind (.p 0) 15 x y false true true), (0x1A, x, .sqstage (.p 0) 15 x y false true true),
    (0x1B, x, .sqtake (.p 0) 15 x y false true true), (0x1C, none, .sqjudge (.p 0) 15 y false true true),
    (0x1D, x, .sqstat (.p 0) 15 x y false true true)]

/-- The engine a command of the running state goes to, or the reason it is refused. -/
def routed (s : State) (c : Nat × Option SSrc × Instr) : Nat ⊕ Nat :=
  match engineFor s (captureCommand s c.1 15 c.2.1 (.const 0) false true true) with
  | .ok e => .inl e
  | .error r => .inr r

/-- The running state with handles of program 0: 0 over core 0's near layer, 1 over its mid layer. -/
def withHandle : State :=
  let h : Handle := ⟨BitVec.ofNat 64 (2 ^ 63 + 2 ^ 60 + 2 ^ 59 + nearPA 0 0), 2 ^ 18, 0, 0⟩
  let m : Handle := ⟨BitVec.ofNat 64 (2 ^ 63 + 2 ^ 61 + 2 ^ 60 + 2 ^ 59 + towerAddr 0 3 0), 2 ^ 18, BitVec.ofNat 64 (2 ^ 24 + 2 ^ 18), 0⟩
  let s := modDie running 0 fun d => { d with handles := [(0, h), (1, m)] }
  modTask s 0 fun t => { t with f := t.f.set 1 0x3FFC0 }

theorem witness_EngineCommandsEnterTheirEngine : (let is := engineCommands.map fun c => c.2.2
    let s := modTask running 0 fun t => { t with f := t.f.set 1 0x3FFC0 }
    !running.cur.lichen && running.groups.all (fun g => !g.twin && g.trailing == [])
      && decide (15 < (taskOf running 0).slots.length) && decide (15 < (taskOf running 0).slotCmds.length)
      && ready withHandle (is.filter fun i => match i with
        | .cpyt .. => false
        | _ => true) && ready s is && ready { s with cur := { cursor with external := false } } is
      && (engineCommands.map (routed withHandle) == [.inl 2, .inl 2, .inl 2, .inl 2, .inl 2, .inl 1024, .inl 1024, .inl 1024, .inl 2, .inl 5,
        .inl 2, .inl 6, .inl 6, .inl 6, .inl 6, .inl 6, .inl 6])
      && routed s (0x01, some (.reg 1), .mend) == .inr 1
      && ready { s with cur := inLichen.cur } is
      && [([0], [1]), ([1], [0])].all (fun p =>
        let pair : State := { withGroup fun g => { g with members := p.1, trailing := p.2, twin := true, signatures := [[]] } with
          cur := { cursor with external := p.2 == [0] } }
        ready pair is && decide (insiders pair 0 = p.1 ++ p.2))) = true := by
  decide +kernel

/-- The running state in which the page at 0 translates to a frame that every access may use. -/
def withPage (frame : Nat) : State :=
  let s := withTask fun t => { t with m := t.m.set 1 0x100 }
  { s with tlb := [⟨0, 0, 0, BitVec.ofNat 64 (frame + 15), 1⟩] }

theorem witness_GlobalAccessesGoInFlight : (let d : Fin 32 := 0
    let gst : Instr := .gst (.p 0) d (.reg 1) (.reg 0) 1023 1023
    let atom : Instr := .gatom (.p 0) d (.reg 1) (.reg 0) 1 true 0
    let irst : Instr := .irst (.p 0) .m 31 (.reg 1) (.reg 0) 0x2800
    let is : List Instr := [.gld (.p 0) d (.reg 1) (.reg 0) 1023 1023, gst, atom, irst]
    let answers (s : State) (n : Need) : Option Nat := match translate s 0 0 0x100 n with
      | .ok pa => some pa
      | .error _ => none
    let pages (s : State) : Option (List Nat) := match translateAll s 0 0 0x100 0x400 ⟨false, true, false⟩ with
      | .ok pas => some pas
      | .error _ => none
    let domain := withPage (4 * 2 ^ 48)
    let tower := withPage (nearPA 0 0)
    ready (withPage 0x10000) is && ready (atAddress 0x100) [gst, atom, irst] && ready { withPage 0 with cur := { cursor with external := false } } is
      && running.cur.external && decide (dieOf 0 < running.dies.length) && (answers (withPage 0x10000) ⟨false, false, true⟩ == some 0x10100)
      && (pages (withPage 0x10000)).any (fun pas => pas.any fun pa => !irrevocable running pa) && !irrevocable running 0x10100
      && (answers (atAddress 0x100) ⟨false, true, false⟩).isNone && (pages (atAddress 0x100)).isNone
      && ready domain is && (pages domain).any (fun pas => pas.length == 0x400 && pas.all fun pa => irrevocable domain pa)
      && decide ((die domain 0).egress.length + 0x400 ≤ 8192)
      && (let both : State := { atAddress 0xF00 with
            tlb := [⟨0, 0, 0, BitVec.ofNat 64 (0x10000 + 15), 1⟩, ⟨0, 0, 1, BitVec.ofNat 64 (4 * 2 ^ 48 + 15), 1⟩] }
          ready both [gst] && match translateAll both 0 0 0xF00 0x400 ⟨false, true, false⟩ with
            | .ok pas => pas.any (irrevocable both) && !pas.all (irrevocable both)
            | .error _ => false)
      && (pageOf tower 0 0 0x100).any (fun p => decide (1 ≤ p.2 / 2 ^ 48 ∧ p.2 / 2 ^ 48 ≤ 3))
      && (match translateHeld domain 0 0 0x100, translateHeld tower 0 0 0x100 with
        | .ok _, .error _ => true
        | _, _ => false)
      && (match answers domain ⟨false, false, true⟩, answers domain ⟨false, true, false⟩ with
        | some pa, some pb => irrevocable domain pa && decide (4 ≤ pb / 2 ^ 48)
        | _, _ => false)
      && (answers (withPage 0x10000) ⟨false, true, false⟩).any (fun pa => decide (pa / 2 ^ 48 = 0))
      && ready tower [irst] && (answers tower ⟨false, true, false⟩).any (fun pa => decide (pa / 2 ^ 48 = 1))
      && (let late (s : State) : State := modTask { s with cur := { cursor with scope := 1 } } 0 fun t =>
            { t with remotes := [⟨34, 0, 0, 47, .load 0 none .m 1, true, false, none, false⟩] }
          !entryWaits domain && entryWaits (late domain) && ready (late domain) is)
      && running.cur.external && !(barrierOf running 0 40).fault) = true := by decide +kernel

theorem witness_QueueStoresWriteTheirEntry : (let e (f : Format) (layout : Nat) : QEntry := ⟨0, List.replicate 128 1, f, layout, true, 1, 2⟩
    [(Format.fp32, 0), (.fp16, 1), (.i8, 2), (.bx9, 3)].all fun p =>
      let s := modTask (atAddress 0x3DFE0) 0 fun t => { t with queues := [[], [], [], [e p.1 p.2]] }
      ready s [.qst (.p 0) 3 (.reg 1) (.const 0)] && ((curTask s).queues.getD 3 []).head? == some (e p.1 p.2)
        && ((curTask s).queues.getD 3 []).all (fun z => decide (z.since ≤ s.now)) && decide (nearAddr s (.reg 1) (.const 0) < 2 ^ 18) && decide (nearAddr s (.reg 1) (.const 0) / 16 % 512 + 1 < 512)
        && !s.pkg.trctl.getLsbD 63 && logCapacity s == 2 ^ 26 && s.dom.regionLog == []
        && decide ((List.range 32).map (fun j => (0x3DFE0 / 8192 + j * (p.1.width / 8) / 16) % 32 * 8192
          + 0x3DFE0 / 16 % 512 * 16 + j * (p.1.width / 8) % 16)).Nodup) = true := by decide +kernel

/-! Arithmetic over the reals. -/

/-- The numbers that some patterns of fp32 stand for: 1, 2, 0, minus 1, 128, minus 151. -/
theorem witness_values : finiteValue .fp32 0x3F800000 = 1 ∧ finiteValue .fp32 0x40000000 = 2 ∧ finiteValue .fp32 0 = 0
    ∧ finiteValue .fp32 0xBF800000 = -1 ∧ finiteValue .fp32 0x43000000 = 128 ∧ finiteValue .fp32 0xC3170000 = -151 := by
  refine ⟨?_, ?_, ?_, ?_, ?_, ?_⟩ <;> norm_num [finiteValue, minusSign, expField, fracField, ieeeBits]

theorem witness_FiniteArithmeticRoundsTheExactResultOnce : IsFinite .fp32 0x3F800000 ∧ IsFinite .fp16 0x3C00 ∧ IsFinite .bf16 1
    ∧ Format.fp32.isFloat = true ∧ Format.i8.isInt = true ∧ Format.i8.isFloat = false
    ∧ valueRead .fp32 true 0x40000000 ≠ 0 ∧ 0 < valueRead .fp32 false 0x3F800000 ∧ valueRead .fp32 false 0 = 0
    ∧ (2 : ℝ) ^ (0 : ℤ) ≤ |1| ∧ |(1 : ℝ)| < 2 ^ ((0 : ℤ) + 1) ∧ RoundsTo .rne (1 / 2 ^ ((0 : ℤ) - 23)) (2 ^ 23)
    ∧ RoundsTo .rtz 1.5 1 ∧ RoundsTo .rup 1.5 2 ∧ RoundsTo .rdn (-1.5) (-2) ∧ RoundsTo .rne 2.5 2 := by
  refine ⟨⟨?_, ?_⟩, ⟨?_, ?_⟩, ⟨?_, ?_⟩, ?_⟩
  any_goals decide
  refine ⟨rfl, rfl, rfl, ?_, ?_, ?_, ?_⟩
  · have h : asRead .fp32 true 0x40000000 = 0x40000000 := by decide
    norm_num [valueRead, h, witness_values.2.1]
  · have h : asRead .fp32 false 0x3F800000 = 0x3F800000 := by decide
    norm_num [valueRead, h, witness_values.1]
  · have h : asRead .fp32 false 0 = 0 := by decide
    norm_num [valueRead, h, witness_values.2.2.1]
  · norm_num [RoundsTo, abs_of_nonneg, abs_of_neg]

theorem witness_AbsentNaNAndInfiniteOperandsFollowTheirTables :
    (∀ f ∈ [Format.fp32, .fp16, .bf16], IsInf f (infPattern f true) ∧ IsInf f (infPattern f false)
        ∧ infPattern f true ≤ absentPattern f ∧ absentPattern f ≠ infPattern f true)
      ∧ IsNaN .fp32 0x7F800001 ∧ IsNaN .fp32 0xFFFFFFFE ∧ ¬IsNaN .fp32 0xFFFFFFFF ∧ IsFinite .fp32 0x80000000
      ∧ (valueRead .fp32 false 0 = 0 ∧ valueRead .fp32 false 0x3F800000 ≠ 0 ∧ minusSign .fp32 0xBF800000 = true
        ∧ valueRead .fp32 false 0xBF800000 ≠ 0 ∧ 128 ≤ valueRead .fp32 false 0x43000000
        ∧ valueRead .fp32 false 0xC3170000 < -150 ∧ valueRead .fp32 false 0x40000000 = (2 : ℤ)) := by
  have h (x : Nat) : valueRead .fp32 false x = finiteValue .fp32 x := rfl
  obtain ⟨h1, h2, h0, hm, hb, hl⟩ := witness_values
  refine ⟨by unfold IsInf; decide, ⟨by decide, by decide, by decide⟩, ⟨by decide, by decide, by decide⟩, ?_, ⟨by decide, by decide⟩, ?_⟩
  · exact fun x => absurd x.1 (by decide)
  · rw [h, h, h, h, h, h, h1, h2, h0, hm, hb, hl]
    norm_num
    decide

theorem witness_BlockGroupsEncodeAndDecodeTheirValues : Format.bx4.isBlock = true
    ∧ (let xs := 0x7F800000 :: 0xFFFFFFFF :: 0x7F800001 :: List.replicate 13 0x3F800000
       xs.length = 16 ∧ (∀ x ∈ xs, x ≤ absentPattern .fp32) ∧ IsInf .fp32 0x7F800000 ∧ IsFinite .fp32 0x3F800000
         ∧ ¬(IsFinite .fp32 0xFFFFFFFF ∨ IsInf .fp32 0xFFFFFFFF))
    ∧ |(1 : ℚ)| < 2 ^ ((0 : ℤ) + 1) ∧ (2 : ℚ) ^ (0 : ℤ) ≤ |1|
    ∧ RoundsTo .rne ((1 / 2 ^ ((127 : ℤ) - 127 - 0 - 4 + 1) : ℚ) : ℝ) 8 := by
  refine ⟨rfl, ⟨rfl, by decide, by unfold IsInf; decide, ⟨by decide, by decide⟩, ?_⟩, ?_⟩
  · rintro (⟨_, h⟩ | h) <;> revert h <;> first | (unfold IsInf; decide) | decide
  · norm_num [RoundsTo]

/-- A command of engine 2 (cluster 0, near layer) over handle 0, as core 0 issued it. -/
def commandOf (op : Nat) (block : List Word) (judged : Bool) : Command :=
  { id := 6, op := op, block := block ++ List.replicate (16 - block.length) 0, stageIdx := 1, program := 0, die := 0,
    handles := [(0, handleOf withHandle 0 0), (1, handleOf withHandle 0 1)], core := some 0, issuer := 0, gid := 1, issued := 0,
    slot := 15, packet := none, node := none, barCluster := 0, bar := 40, nb := false, rel := false, acq := false, scope := 0,
    writer := .other, kept := [], judged := judged, asked := judged,
    hurt := false, list := [], done := 0, written := 0, job := none, flags := 0 }

/-- The state in which the command is running on an engine, and moves on next. -/
def movesNext (e : Nat) (c : Command) : State :=
  { withHandle with
    agenda := [.advance e 6 1]
    dom := { withHandle.dom with
      engines := [(e, ⟨[], [c]⟩)]
      croziers := [(0, { Crozier.initial with
        configured := true, bound := true, stages := 2, ns := 1, n := 1, taken := 6, tableau := List.replicate 64 0,
        bindings := [(1, 0), (1, 64), (0, 0), (0, 64), (0, 128), (0, 192)],
        samples := [(0, ⟨1, 0, 0x3F800000, 0x3F800000, false, 0, 0⟩)] })] } }

/-- What a running command asks for, before it is judged or after. -/
def mayMove (e : Nat) (c : Command) : Bool :=
  let s := movesNext e c
  let t : State := { s with agenda := [] }
  !s.pkg.held && (engineOf t e).running.find? (fun d => d.id == c.id) == some c && !commandHolds t e c && (c.asked || !c.judged)
    && !commandAsks t c.id && hiddenFrom t c.reader == [] && (s.dom.sori.all fun e => e.2.fronds.all fun f => decide (f.st ≠ .waiting)) && logCapacity s == 2 ^ 26 && s.dom.regionLog == []

theorem witness_RunningCommandsWriteTheBytesTheirBlocksName : (let copy : Command := commandOf 1 [0, 0, 0, 64, 0, 64] true
    let open' (pa n : Nat) : Bool := extentMapped withHandle pa n && decide (pa / 2 ^ 48 < 2) && (twinAlso withHandle pa).isNone
    let piece : Piece := ⟨nearPA 0 64, [1, 2], [false, false]⟩
    let part : SourcePart := ⟨0, 2, ⟨BitVec.ofNat 64 (2 ^ 63 + 2 ^ 60 + nearPA 0 0), 128, 0, 0⟩, 0, 2⟩
    let job : Command := { commandOf 8 [] true with job := some ⟨[piece], 2, 0, 0, 0, 0, none, [part]⟩ }
    let asks (op : Nat) (block : List Word) : Bool :=
      let c := { commandOf op block false with asked := true }
      let s := movesNext (if 0x18 ≤ op then 6 else if op = 0xF then 5 else if op < 6 then 2 else 1024) c
      let v := viewOf { s with agenda := [] } c
      let e := if 0x18 ≤ op then 6 else if op = 0xF then 5 else if op < 6 then 2 else 1024
      mayMove e c && (judgeSpans v e c).all (spanAnswers s) && match commandBegins v e c, judgeCommand v e c with
        | .ok _, .ok _ => true
        | _, _ => false
    mayMove 2 copy && copy.copies && decide (copy.done < copy.count)
      && (List.range copy.count).all (fun k => open' (nearPA 0 (64 + 4 * k)) 4 && open' (nearPA 0 (4 * k)) 4)
      && mayMove 2 (commandOf 3 [0, 0, 0, 0, 0, 2, 2, 8, 8, 2] true) && mayMove 1024 job && part.mapped (movesNext 1024 job) && !job.copies && open' piece.pa 2
      && piece.pa / 64 == (piece.pa + 2 - 1) / 64
      && asks 4 [0, 0, 0, 64, 0, 1, 4, 4, 4, 0, 0, 128, 1] && asks 5 [0, 0, 0, 64, 0, 1, 4, 4, 4, 0x10, 0, 128, 1]
      && asks 6 [0, 0, 0, 64, 0, 4, 0, 0, 0, 0] && asks 7 [0, 0, 0, 0x200, 0, 1, 0, 0, 0, 1, 0, 0x300]
      && asks 8 [0, 0, 0, 64, 0, 8] && asks 0xF [0, 0, 64, 0, 128, 192, 4, 1] && asks 0x1D [0, 0] && asks 0x1A [] && asks 0x1B []) = true := by
  decide +kernel

/-- The running state with a routine on core 0's matrix unit. -/
def withRoutine (r : Routine) : State := modCore running 0 fun c => { c with mx := { c.mx with routine := some r } }

/-- A routine of FMT's reset value (BX9) at micro-op 0, with its micro registers. -/
def routine (prog : List Word) (z : List Word) : Routine := ⟨List.replicate 16 0, 0x20008800, prog, z, 0, [], 0, true, false⟩

def unitZ (z : List Word) : State := withRoutine (routine [] z)

/-- `exec` answers a next state, for each instruction. -/
def answers (s : State) (l : List Instr) : Bool := l.all fun i => runs s i fun _ => true

theorem witness_MicroOpsMoveAlongTheirRoutine : (let r := routine [0, 0x40000000] []
    let isEnd (a : Nat) : Bool := (r.prog.getD a 0).toNat / 2 ^ 28 == 4
    let deep (n : Nat) : Routine := { r with loops := List.replicate n (1, 2) }
    (coreOf (withRoutine r) 0).mx.routine == some r && (coreOf (withRoutine r) 0).mx.drain == []
      && !isEnd 0 && isEnd 1 && decide (r.pc < 1) && ({ r with pc := 1 } : Routine).pc == 1
      && (deep 3).loops.length == 3 && (deep 4).loops.length == 4 && (deep 1).loops == [(1, 2)] && r.loops == []
      && (coreOf (modCore (withRoutine r) 0 fun c => { c with mx := { c.mx with drain := [(0, ⟨0, [], .fp32, 0, false, 0, 0⟩)] } }) 0).mx.drain != []
      && answers (withRoutine (deep 3)) [.mloop 1 0, .mloop 1 1, .mloop 0 1, .mloopZ 0 15 1, .mendl, .mskz 7 255, .mmad 7 7 15]) = true := by
  decide +kernel

theorem witness_MstepAddsItsProductsToEveryCell : (let plain (fmt : Word) (z0 z1 : Word) : Routine := { routine [] [z0, z1] with fmt := fmt }
    let spansIn (r : Routine) : Bool := (aSpans r 0).all (fun p => decide (p.1 + p.2 ≤ 2 ^ 18))
    let recIn (r : Routine) : Bool := decide ((r.z.getD 1 0).toNat + recordBytes r ≤ 16384)
    let r := plain 0x20008800 0x3FFEE 0x3FD0
    (fmtA r.fmt).isBlock && spansIn r && recIn r
      && (aSpans r 0).all (fun p => extentMapped running (nearPA 0 p.1) p.2 && !poisonedAt running (nearPA 0 p.1) p.2)
      && extentMapped running (towerAddr 0 1 (16384 * 31 + 0x3FD0)) (recordBytes r)
      && !(fmtA 0x1100).isBlock && decide ((plain 0x1100 1 0).z.getD 0 0 = 1)
      && !spansIn (plain 0x1100 0x3FFE2 0) && !recIn (plain 0x1100 0 0x3FE2)
      && (let s := { withRoutine (plain 0x1100 0 0) with poison := [granule (nearPA 0 0)] }
          poisonedAt s (nearPA 0 0) 32)
      && (let s := modCore (withRoutine (plain 0x1100 0 0)) 0 fun c => { c with lost := 1 }
          !extentMapped s (towerAddr 0 1 0) 32 && extentMapped s (nearPA 0 0) 32)) = true := by decide +kernel

/-- 18's soft error in miniature: one cell whose s shows 384.0 where the checks of its row and column hold 192.0. -/
def softError (both : Bool) : Task :=
  let k (n : Nat) : Check := addCheck Check.zero [(decodeFloat .fp32 false n, decodeFloat .fp32 false 0x3F800000)]
  { Task.initial with
    cells := [(37, ⟨0x43C00000, 0, 1⟩)]
    rows := [(1, k 0x43400000)]
    cols := [(5, k (if both then 0x43400000 else 0x43C00000))] }

theorem witness_MicroOpsClearDrainShapeWaitAndSignal : (let s (w : Word) : State := unitZ [w, 0, 0, 0, w]
    let fault (w : Nat) : Bool := decide (24 ≤ w / 2 ^ 24 % 32)
    descOk 0x000A2000 && !descOk 1 && !descOk 0xF0000000
      && (match checkTile Task.initial 2 with
        | .released => true
        | _ => false)
      && (match checkTile (softError true) 2 with
        | .corrected k v => k == 37 && v == ⟨0x43400000, 0, 1⟩
        | _ => false)
      && (match checkTile (softError false) 2 with
        | .uncorrectable => true
        | _ => false)
      && answers (s 8) [.mshape, .mwaitb 0 true, .mclr, .mdrain 0 true] && answers (s 0x40000) [.mshape] && answers (s 0x3FFF0) [.mshape]
      && extentMapped running (nearPA 0 0x3FFF0) 16
      && poisonedAt { running with poison := [nearPA 0 0x3FFF0] } (nearPA 0 0x3FFF0) 16
      && !extentMapped (modCore running 0 fun c => { c with lost := 2 }) (nearPA 0 0x3FFF0) 16
      && fault 0x98000000 && !fault 0x97000000 && (0x80040000 / 2 ^ 18 % 64 != 0)
      && (barrierOf { running with dom := { running.dom with barriers := [(40, { Barrier.initial with fault := true })] } } 0 40).fault
      && ((1 + 256 - 0) % 256 == 1) && ((0 + 256 - 128) % 256 == 128) && ((0 + 256 - 127) % 256 == 129)
      && actsOutside running 0
      && !actsOutside (withGroup fun g => { g with twin := true, trailing := [2] }) 0) = true := by decide +kernel

/-- An image of one micro-op with entry 0, at LPDDR-6 address 0x20000, and the request of core 0 for it. -/
def withImage (valid : Bool) : State :=
  let image := leBytes 4 0x584D0001 ++ leBytes 4 1 ++ leBytes 2 0x8000 ++ List.replicate 126 0 ++ leBytes 4 0x20000000
  let h : Handle := ⟨BitVec.ofNat 64 ((if valid then 2 ^ 63 else 0) + 2 ^ 60 + 0x20000), 204, 0, 0⟩
  let s := modDie { running with mem := writeCells running.mem 0x20000 image } 0 fun d => { d with handles := [(5, h)] }
  { s with dom := { s.dom with loads := [⟨0, [0], 0, h, 0, 0, 40, .other, 1, none, none⟩] } }

/-- The cause that the image of a request meets, if any. -/
def imageCause (s : State) (l : LoadReq) : Option Nat := match imageOf (outside s noCore) l with
  | .ok _ => none
  | .error c => some c

/-- The request for an image in the near layer of core 0, or in the middle of a slice that a core of no cluster has, with some
requests at the banks. -/
def inTower (reqs : List BankRequest) (there : Bool) : State :=
  let h : Handle := ⟨BitVec.ofNat 64 (2 ^ 63 + 2 ^ 60 + nearPA (if there then 0 else 1152) 0), 2048, 0, 0⟩
  let image := leBytes 4 0x584D0001 ++ leBytes 4 1 ++ leBytes 2 0x8000 ++ List.replicate 126 0 ++ leBytes 4 0x20000000
  { running with
    mem := writeCells running.mem (nearPA 0 0) image, bankReqs := reqs,
    dom := { running.dom with loads := [⟨0, [0], 0, h, 0, 0, 40, .other, 1, some 9, none⟩] } }

theorem witness_CallsImagesAndQueueEntriesReachTheUnit : (let e : QEntry := ⟨0, List.replicate 128 0, .fp32, 0, false, 0, 0⟩
    let mod (s : State) (f : Matrix → Matrix) : State := modCore s 0 fun c => { c with mx := f c.mx }
    let call : Call := ⟨0, List.replicate 16 0, 0x20008800, 0, true⟩
    let queue (n : Nat) (discard : Bool) : State := modTask (mod running fun mx => { mx with drain := [(3, e)], discard := discard }) 0
      fun t => { t with queues := [[], [], [], List.replicate n e] }
    let x (v : Dword) : State := withTask fun t => { t with x := t.x.set 7 v }
    ready (mod running fun mx => { mx with entries := mx.entries.set 63 (some 2047) }) [.mcall (.p 0) 63]
      && ready (mod (unitZ []) fun mx => { mx with entries := mx.entries.set 63 (some 0) }) [.mcall (.p 0) 63]
      && (groupOf running 1).isSome && ready (x 0x1FFFFFFFFFFFFF) [.mload (.p 0) 7 0] && decide (0x1FFFFFFFFFFFFF / 2 ^ 53 = 0)
      && ready (x 0x20000000000000) [.mload (.p 0) 7 0] && !(barrierOf running 0 0).fault
      && (curTask running).queues.length == 4 && ready running [.mqclr (.p 0) 15, .mcancel (.p 0)]
      && ready (unitZ []) [.mcancel (.p 0)] && ready (withRoutine { routine [] [] with asked := false }) [.mcancel (.p 0)]
      && (let s := mod running fun mx => { mx with waiting := some call }
          (coreOf s 0).mx.waiting == some call && (coreOf s 0).mx.routine == none)
      && (coreOf running 0).mx.waiting == none && (coreOf running 0).mx.drain == []
      && [(63, false), (64, true), (64, false)].all (fun p => (coreOf (queue p.1 p.2) 0).mx.drain == [(3, e)]
        && (coreOf (queue p.1 p.2) 0).mx.discard == p.2 && ((taskOf (queue p.1 p.2) 0).queues.getD 3 []).length == p.1)
      && (let s := withImage true
          s.dom.loads.all (fun l => l.core == 0 && imageCause s l == none && l.image.isNone && !crossingShut s l.entry.base
              && l.asked == none && towerRequests s 4 s.nextId ((List.range 204).map fun i => l.entry.pa (l.offset + i)) == [])
            && decide (s.seals.phase ≠ .checkpoint) && (s.dom.sori.all fun e => e.2.fronds.all fun f => decide (f.st ≠ .waiting))
            && ({ s with seals := { s.seals with phase := .checkpoint } } : State).seals.phase == .checkpoint)
      && (let idle (s : State) (id : Nat) : Bool := (coreOf s id).mx.routine.isNone && (coreOf s id).mx.waiting.isNone
          idle running 0 && !idle (unitZ []) 0)
      && (withImage false).dom.loads.all (fun l => imageCause (withImage false) l == some 3)
      && (inTower [] false).dom.loads.all (fun l => imageCause (inTower [] false) l == some 5)
      && (inTower [⟨0, 2, 0, 4, 9, 0⟩] true).dom.loads.all (fun l => imageCause (inTower [] true) l == none && l.asked == some 9
        && commandAsks (inTower [⟨0, 2, 0, 4, 9, 0⟩] true) 9
        && !commandAsks (inTower [] true) 9 && !({ l with asked := none } : LoadReq).asked.any fun _ => true)
      && ready { running with cur := { cursor with external := false } } [.mload (.p 0) 7 0]) = true := by decide +kernel

/-- The running state whose program has a segment 1 behind segment 0, for overlay slot 1. -/
def withSegments : State :=
  let m := writeCells running.mem 16 (leBytes 8 2)
  let m := writeCells m 68 (leBytes 4 (2 ^ 31 + 1))
  let m := writeCells m 80 (leBytes 4 (2 ^ 31 + 2 ^ 29 + 8) ++ leBytes 4 0 ++ leBytes 4 5 ++ leBytes 4 0)
  let h : Handle := ⟨BitVec.ofNat 64 (2 ^ 63 + 2 ^ 60 + 0x20000), 8, 0, 0⟩
  modDie { running with mem := m } 0 fun d => { d with handles := [(5, h)] }

theorem witness_BitNetworkHeaderEffectsAndSegments : (let e : QEntry := ⟨0, List.replicate 128 0, .fp32, 0, false, 0, 0⟩
    let s := withSegments
    let held : State := { s with segCopies := [⟨0, 1, 0, 2, none, none⟩] }
    let landing : State := { s with segCopies := [⟨0, 1, 0, 1, some (0, 1), none⟩] }
    let asking : State := { s with segCopies := [⟨0, 1, 0, 1, none, some 9⟩], bankReqs := [⟨0, 2, 0, 4, 9, 0⟩] }
    let t := modDie s 0 fun d => { d with handles := [(5, ⟨BitVec.ofNat 64 (2 ^ 63 + 2 ^ 60 + nearPA 0 0), 8, 0, 0⟩)] }
    let full : State := modCore (withTask fun t => { t with queues := List.replicate 4 [e] }) 0 fun c =>
      { c with inbound := List.replicate 4 [List.replicate 16 0] }
    ready running [.bnet (.p 0) 15 (.reg 1) (.reg 2) 7] && ready (withTask fun t => { t with n := t.n.set 1 0x3DFF0 }) [.bnld (.p 0) (.reg 1) (.const 0) 7]
      && (List.range 32).all (fun i => (0 : Word).getLsbD i == false)
      && (List.range 8).all (fun q => !queueEmpty full q)
      && (segmentEntry running 0 0).bind Segment.next == none
      && (segmentEntry s 0 0).bind Segment.next == some 1 && (segmentEntry s 0 1).isSome && residentSlot s 0 0 1 == none
      && residentSlot s 0 0 0 == some 0 && !copyInFlight s 0 0 1 && !copyInFlight held 0 0 1
      && held.segCopies.any (fun c => c.core == 0 && c.slot == 1) && s.segCopies == []
      && (landing.segCopies.find? fun c => c.core == 0 && c.slot == 1).isSome && commandAsks asking 9 && !commandAsks s 9
      && landing.segCopies.all (fun c => segmentRequests s c s.nextId == [] && segmentRequests t c t.nextId != [] && !segmentHeld t c)
      && ((segmentEntry t 0 1).bind (segmentImage t 0 0)).isSome
      && ((segmentEntry s 0 1).bind (segmentImage s 0 0)).isSome && ((segmentEntry s 0 2).bind (segmentImage s 0 0)).isNone) = true := by
  decide +kernel

/-- A packet of queue 1 with a journal entry. -/
def packet (words : List Nat) (nodes : List Node) : Packet :=
  ⟨3, 1, 0, words ++ List.replicate (16 - words.length) 0, .accepted, none, nodes, 0, 0, false⟩

/-- The running state with queue 1 enabled, its ring at 0x40000, the journal at 0x80000, a page at 0, and packets. -/
def withPackets (ps : List Packet) : State :=
  { withPage 0x10000 with
    pkg := { running.pkg with jbase := 0x80000, jsize := 4 },
    queues := [(1, ⟨0x40000, BitVec.ofNat 64 (2 ^ 63 + 4 * 2 ^ 16), 5, []⟩)],
    journal := ps.map fun p => ⟨p.seq, 1, p.index, 1, 1, false, false, 0⟩,
    dom := { running.dom with packets := ps } }

/-- What `Turn` asks, of queue 1's one packet. -/
def turn (type : Nat) (p : Packet) : Bool :=
  nextOfType (withPackets [p]) 1 type == some p && (withPackets [p]).journal.any (fun m => m.seq == p.seq)
    && !(p.words.getD 0 0).testBit 9

theorem witness_PacketsAreAcceptedDispatchedAndCompleted : (let sig (w : List Nat) : Packet := packet w []
    let reaches (s : State) (p : Packet) (i : Nat) : Option Nat :=
      match translate s 0 0 (packetVA (p.words.getD i 0) (p.words.getD (i + 1) 0)) ⟨false, true, false⟩ with
      | .ok pa => some pa
      | .error _ => none
    let node (type : Nat) : Node := ⟨type :: List.replicate 15 0, .accepted, false, none, 0⟩
    let wait (p : Packet) : Option Bool := match waitHolds (withPackets [p]) p with
      | .ok b => some b
      | .error _ => none
    let done (w : List Nat) : Packet := { packet w [] with st := .dispatched, ready := true, detail := 0xFFFF }
    let graph (type : Nat) : Packet := packet [2] [node type]
    let running' (type : Nat) : Packet := { graph type with st := .dispatched }
    let bare : State := withPackets []
    [(0, [0]), (1, [1]), (3, [3]), (4, [4]), (5, [5, 0x100]), (6, [6]), (7, [7])].all (fun x => turn x.1 (packet x.2 []))
      && freeSlot bare == some 0 && [0, 1, 3, 4].all (fun t => turn 2 (graph t) && canBegin (withPackets [graph t]) 1 [t])
      && decide ((engineOf bare (streamEngine 0)).queue.length < 16)
      && reaches (markDispatched (withPackets [sig [5, 0x100]]) (sig [5, 0x100])) (sig [5, 0x100]) 1 == some 0x10100
      && reaches (markDispatched (withPackets [sig [5, 0x1000]]) (sig [5, 0x1000])) (sig [5, 0x1000]) 1 == none
      && wait (packet [6, 0, 0x40000] []) == some true && wait (packet [6, 0x80000000, 0x40000] []) == some false
      && wait (packet [6, 0x1000, 0, 1, 1] []) == none
      && turn 6 { packet [6] [] with ready := true, detail := 0xFFFF } && acceptsNow bare 1
      && extentMapped bare 0x40000 64 && poisonedAt { bare with poison := [0x40000] } 0x40000 64 && !poisonedAt bare 0x40000 64
      && acceptsNow { bare with poison := [0x40000] } 1 && logCapacity bare == 2 ^ 26 && bare.dom.regionLog == []
      && packetOk (blockWords (readBytes bare 0x40000 64)) && programValid bare 0 && decide (snapshotUse bare ≤ 4096)
      && packetEnd (withPackets [done [0]]) (done [0]) == some 0xFFFF && packetOf (withPackets [done [0]]) 3 == some (done [0])
      && (let p := done ([0x200] ++ List.replicate 12 0 ++ [0x100, 0, 7])
          (p.words.getD 0 0).testBit 9 && reaches (withPackets [p]) p 13 == some 0x10100)
      && (let p := done ([0x200] ++ List.replicate 12 0 ++ [0x1000, 0, 7])
          reaches (withPackets [p]) p 13 == none)
      && [0, 1, 3, 4].all (fun t => let u := settleGraph (withPackets [running' t]) 3
        match packetOf u 3 with
        | some p => p.st == .dispatched && p.readyNodes.head? == some 0 && canBegin u 1 [t]
        | none => false)) = true := by decide +kernel

theorem witness_DecodingInvertsEncoding : ([Instr.suspTarget (.p 15) 0xFFFFFFFC (some 3),
    .vstm (.p 0) .w 27 (.reg 31) (.reg 0) (some ⟨6, true, 15, some .i8⟩), .msetParam 7 15, .queuePop 255].all (fun i =>
      i.wf && (encode i).isSome)) = true := by decide +kernel

theorem witness_EncodingInvertsDecoding : (decodesTo (.n, 0x04030445, [], .bnet (.p 0) 3 (.reg 1) (.reg 4) 5)
    && decodesTo (.f, 0x2C00FF46, [0xFFFFFFFF], .binit (.p 0) (.lit 0xFFFFFFFF) (.const 4) 6)
    && decodesTo (.micro, 0x00000000, [], .mend)) = true := by decide +kernel

/-- The state in which core 0's next step issues the bundle of one word. -/
def placed (sl : Slot) (w : Nat) : State := placeBundle State.reset (bundleWords sl w [])

theorem witness_AStepTakesTheHeadOfTheAgenda : (let s := { unitZ [] with agenda := [.micro 0] }
    !s.pkg.held && (coreOf s 0).mx.routine.all (fun r => decide (r.pc < 2048) && match decodeMicro (r.prog.getD r.pc 0).toNat with
      | .ok i =>
        let s1 : State := { s with agenda := [], cur := unitCursor { s with agenda := [] } 0 }
        (microAsks s1 0 r i).isNone && runs s1 i (fun _ => true)
      | .error _ => false)
    && (let r : Routine := { routine [0x10000000] [0, 0, 0, 0] with asked := false }
        let s1 : State := withRoutine r
        (match decodeMicro 0x10000000 with
          | .ok i => (microAsks s1 0 r i).isSome
          | .error _ => false))
    && (coreOf s 1).mx.routine == none && groupOf s 9 == none && groupOf { s with groups := [] } 1 == none) = true := by decide +kernel

theorem witness_AStepRunsTheDecodedBundle : (let s := placed .a 0x780107C0
    let s0 : State := { s with agenda := [] }
    !s.pkg.held && s.agenda == [.bundle 1] && match groupOf s0 1 with
      | none => false
      | some g0 =>
        let d := deliverGroup (landDue s0 g0) g0
        match groupOf d 1, fetchBundle d 0 0 (taskOf d 0).pc.toNat with
        | some g, .words ws => g0.frozen == none && g.members == [0] && g.trailing == [] && !g.twin && g.pending == []
            && g.susp == none && g.stopping == none && !g.saveMode && !stretchUsed g && g.pauseCode == 0 && !g.lichenHold && (earlierHold d g).isNone && !(coreOf d 0).dbg.en
            && (match decodeBundle ws with
              | .error _ => false
              | .ok b => match b.ops with
                | [(sl, i)] =>
                  let cur := bundleCursor d g 0 b.header b.len
                  let looking : State := { d with cur := cur }
                  let lane : Lane := ⟨{ cur with checked := true }, b.ops, []⟩
                  let ready := useBanks (charge (bindBefore { d with cur := lane.cur } lane) 0 1) lane
                  sl == .a && !egressCrowded d [lane] && b.header.effects == [] && stopsOf i looking == [] && guarded looking i && (holdOf i looking).isNone
                    && runs ready i fun r =>
                      let moved := closeBundle (advanceLane (runPost r) { lane with cur := (runPost r).cur }) g
                        [{ lane with cur := (runPost r).cur }] [] []
                      (groupOf moved 1).all fun x => !stretchUsed x
                | _ => false)
        | _, _ => false) = true := by decide +kernel

theorem witness_EveryStepKeepsMemoryCanonical : (let s := placed .a 0x780107C0
    decide (Memory.wf s.mem) && match step s with
      | .next _ => true
      | _ => false) = true := by decide +kernel

theorem witness_HardWiredAndControlRegistersReadAsStated : (let t := Task.initial
    [(t.a.length, 31), (t.b.length, 31), (t.m.length, 31), (t.k.length, 15), (t.f.length, 15), (t.n.length, 15)].all fun x =>
      decide (x.2 < x.1)) = true := by decide +kernel

theorem witness_ResultsAreWrittenWhenTheyFallDue : (let p : Pending := ⟨0, 1, 0, some (.scalar .a 7), [.word .a 31 7], 0, true⟩
    let late : Pending := ⟨1000, 1, 1, none, [], 0, false⟩
    let s := withTask fun t => { t with pend := [late, p, late] }
    let first (o slot : Nat) (d : Dest) : Pending := ⟨0, slot, o, none, [d], 1, false⟩
    let both (x y : Dest) (inOrder : Bool) : State := withTask fun t =>
      { t with pend := if inOrder then [first 4 0 x, first 5 0 y, late] else [first 5 0 y, first 4 0 x, late] }
    let l : Lanes := List.replicate 128 1
    let sized (d : Dest) : Bool := match d with
      | .lanes _ _ l _ => l.length == 128
      | .pair k _ _ => decide (k < 8)
      | .vpair k _ _ _ => decide (2 * k + 1 < (taskOf running 0).vpreds.length)
      | .vsingle r _ _ => decide (r < (taskOf running 0).vpreds.length)
      | _ => true
    let combos : List (Dest × Dest) := [(.word .a 31 1, .word .a 31 2), (.word .a 31 1, .word .b 0 2), (.wide 7 1, .wide 7 2),
      (.pair 7 true false, .pair 7 false true), (.pair 0 true false, .pair 1 false true), (.lanes .v 31 l 1, .lanes .v 31 l 3),
      (.vpair 7 (some 1) (some 2) 3, .vpair 7 (some 4) (some 5) 6), (.vsingle 2 1 1, .vpair 1 (some 4) (some 5) 6),
      (.vpair 7 (some 1) (some 2) 3, .vsingle 14 1 1), (.vpair 7 (some 1) (some 2) 3, .vsingle 15 1 1)]
    (groupOn s 0).all (fun g => decide (p.due ≤ g.cycleOf 0) && decide (g.cycleOf 0 < late.due)) && (groupOn s 0).isSome
      && groupOn s 5 == none && (taskOf s 0).remotes.all (fun r => !r.late 10)
      && (⟨10, 0, 0, 47, .load 0 none .m 1, true, false, none, false⟩ : RemoteAccess).late 10
      && [Dest.word .c 15 1, .wide 7 1, .lanes .w 31 l 0, .pair 7 true true, .vpair 7 (some 1) (some 1) 1, .vsingle 15 1 1, .fmt 1,
        .pattern 7 [], .csr 0x001 1].all sized
      && [Dest.vsingle 4 1 1, .vsingle 5 1 1].all (fun w =>
        let l : List Dest := [.vpair 2 (some 1) (some 2) 3, w]
        decide (2 * 2 + 1 < (taskOf running 0).vpreds.length) && l.all sized)
      && combos.all (fun x => [true, false].all fun b =>
          (taskOf (both x.1 x.2 b) 0).pend.length == 3 && sized x.1 && sized x.2)
      && (taskOf running 0).vpreds.length == 16) = true := by decide +kernel

theorem witness_QueueRegistersHandlesAndTlbTakeTheirWrites : (let s := withPackets []
    let size (v : Dword) : Nat := v.toNat / 2 ^ 16 % 32
    let good (v : Dword) : Bool := decide (4 ≤ size v) && decide (size v ≤ 16) && programValid s (v.toNat / 2 ^ 32 % 2 ^ 16)
    (queueOf s 1).enabled && !(queueOf s 63).enabled && haltOf s 1 == 0
      && decide ((queueOf s 1).size < (17 + 2 ^ 32 - headOf s 1) % 2 ^ 32) && !decide ((queueOf s 1).size < (16 + 2 ^ 32 - headOf s 1) % 2 ^ 32)
      && good 0x8000000000040000 && good 0x8000000000100000 && !good 0x8000000000110000 && !good 0x8000000100040000
      && s.dies.length == 4 && !(die s 3).tlbinv.getLsbD 63
      && (die (modDie s 3 fun d => { d with tlbinv := 0xC000000000000000 }) 3).tlbinv.getLsbD 63
      && (let e : Handle := ⟨BitVec.ofNat 64 (2 ^ 63 + 2 ^ 60 + 2 ^ 59 + 0x10000), 64, 0, 0⟩
          e.valid && handleChecked s e && !handleChecked s { e with w3 := 1 } && !awaitsHandover s e
            && awaitsHandover { s with handovers := [⟨0x10000, .linear 64, 1⟩] } e)
      && !s.pkg.firstEnable && decide (s.seals.phase = .none)
      && answers s [.qtailNotification 63 17, .qtailNotification 64 0, .queueEnable 63 0x8000000000040000, .queueDisable 1 0,
        .handleEntryWrite 3 4095 3 0, .tlbinvPage 3 0xFFFF 0xFFFFFFFFF]) = true := by decide +kernel

/-- The running state with debugging unlocked and its group frozen by a debug stop. -/
def frozenTask : State :=
  { withGroup (fun g => { g with frozen := some ⟨[(0, 1, 2)]⟩ }) with pkg := { running.pkg with dbgunlk := 1 } }

theorem witness_AttestationDebugAndReplayTakeTheirRequests : (let s := frozenTask
    let sel (v : Dword) : State := modCore s 0 fun c => { c with dbg := { c.dbg with sel := v } }
    let file (v : Dword) : Option File := File.ofCode ((coreOf (sel v) 0).dbg.sel.toNat / 2 ^ 8 % 16)
    !running.pkg.attctl.getLsbD 63 && ({ running.pkg with attctl := 0x8000000000000000 } : Package).attctl.getLsbD 63
      && !running.pkg.dbgunlk.getLsbD 0 && s.pkg.dbgunlk.getLsbD 0 && groupOn running 5 == none && (groupOn running 0).isSome
      && (groupOn s 0).all (fun g => g.frozen == some ⟨[(0, 1, 2)]⟩ && g.members.headD 9 == 0)
      && (groupOn running 0).all (fun g => g.frozen == none)
      && file 0x200 == some .c && file 0x607 == some .x && file 0x01F == some .a && file 0x000 == some .a && file 0x90F == some .preds
      && (0x8000000000000000 : Dword).getLsbD 63 && answers s [.debugResume 0, .dbgdataWrite 0 1, .replayGo 0x8000000000000001]) = true := by
  decide +kernel

theorem witness_RegisterWritesStoreTheirDefinedBits : (let on : Package := { running.pkg with trctl := 0x8000000000000000, firstCut := true }
    !running.pkg.firstCut && on.firstCut && !running.pkg.trctl.getLsbD 63 && on.trctl.getLsbD 63
      && locateReg 0x0FFFF8 == none && !(0x7FFFFFFFFFFFFFFF : Dword).getLsbD 63 && decide ((3 : Word).toNat % 4 = 3)
      && decide ((2 : Word).toNat % 4 ≠ 3) && decide (3 < running.dies.length)) = true := by decide +kernel

theorem witness_HostAccessesAndBootsActOnTheModule : (let s := running
    let slice (o : Nat) : Nat := towerAddr (coreId (o / 2 ^ 34 % 4) (o / 2 ^ 21 % 2 ^ 11)) (o / 2 ^ 32 % 4 + 1) (o % 2 ^ 21)
    barAddr 1 0 == none && barAddr 0 (2 ^ 27) == none && !s.pkg.held && decide (768 * 2 ^ 30 - 8 + 8 ≤ 768 * 2 ^ 30)
      && extentMapped s (slice (2 ^ 32 + 0x3FFF8)) 8 && !extentMapped s (slice (2 ^ 32 + 0x40000)) 8
      && !crossingShut s (slice (2 ^ 32 + 0x3FFF8)) && (twinAlso s (slice (2 ^ 32 + 0x3FFF8))).isNone
      && logCapacity s == 2 ^ 26 && s.dom.regionLog == []
      && (List.range 8).all (fun i => (locateReg (0x100000 + i)).isSome) && ({ s.pkg with held := true } : Package).held
      && s.dies.all (fun d => d.bist.getLsbD 63) && !((s.dies.map fun d => { d with bist := 0 }).all fun d => d.bist.getLsbD 63)) = true := by decide +kernel

/-- A frond of width 1 at pointer 4 (virtual address 0x100), of the page at 0. -/
def frond (st : FrondState) : Frond := { placedFrond with ptr := 4, st := st, base := 63, tie := 9 }

/-- The running state, with that frond in the sorus of a cluster and the page in the TLB of clusters 0 and 1. -/
def withFrond (c : Nat) (f : Frond) : State :=
  let e (c : Nat) : TlbEntry := ⟨c, 0, 0, 0x1000F, 1⟩
  let s := { running with tlb := [e 0, e 1] }
  { s with dom := { s.dom with sori := [(c, ⟨[f], [], none, none⟩)] } }

theorem witness_SoriPlaceTasksAndBoundariesEndThem : (let s := withFrond 1 (frond .runnable)
    let so := sorusOf s 1
    let stopped (p : SealPhase) : State := { s with seals := { s.seals with phase := p } }
    let g (f : Group → Group) : State := withGroup f
    let only (f : Group → Group) (p : Group → Bool) : Bool := (groupOf (g f) 1).any p
    soriStopped (stopped .quiesce) && soriStopped (stopped .checkpoint) && !soriStopped s
      && headFrond (sorusOf s 2) == none && (sorusOf s 2).reservedFor == none
      && headFrond so == some (frond .runnable) && so.reservedFor == none && placementFault (frond .runnable) == 0
      && (placements (frond .runnable)).find? (fun b => (blockMembers (frond .runnable) b).all (memberIdle s 1 false (some 9))) == some 0
      && (recordOf s 1 0 4).any (fun w => programValid s ((w.getD 1 0).toNat / 2 ^ 16) && decide ((w.getD 0 0).toNat % 4 = 0))
      && (setFrondWord (releaseReservation s 1) 1 0 4 12 (statusWord 3 0 0 0 0)).isSome
      && canSteal s 0 && chooseSteal s 0 == some (1, 9) && (sorusOf s 0).stealing == none
      && (sorusOf s 1).fronds.find? (fun f => f.tie == 9 && stealable false f) == some (frond .runnable)
      && groupOf s 9 == none
      && only id (fun g => nextCause g == none)
      && (placedFrond.priority != 31) && soriStopped s == false
      && [⟨15, 0, [0], none⟩, ⟨14, 5, [0], none⟩].all (fun k : Cause => only (fun g => { g with pending := [k] })
          fun g => g.frozen == none && g.susp == none && g.stopping == none && g.pauseCode == 0 && nextCause g == some k
            && vector.tierOf k.code != 1 && !(trailingReady g true || drainsStill s g)
            && (groupOf (drainGroup { s with groups := [g] } g) 1).any (fun x => (consumedCause x).isNone))
      && only (fun g => { g with pending := [⟨9, 0, [0], none⟩] }) (fun g => (consumedCause g).isSome)
      && only (fun g => { g with stopping := some ⟨15, 0, [0], none⟩ }) (fun g => g.stopping.isSome)
      && (let late := withTask fun t => { t with remotes := [⟨34, 0, 0, 47, .load 0 none .m 1, true, false, none, false⟩] }
          late.groups.all (drainsStill late))
      && (let t := { withGroup (fun g => { g with limitTicks := 10 ^ 9 }) with pkg := { running.pkg with wdcfg := 0x80000001 } }
          (groupOf t 1).any (limitReached t)) && (groupOf running 1).any (fun g => !limitReached running g)
      && only (fun g => { g with saveMode := true, saveCount := 2048 }) (fun g => g.saveMode && g.susp == none && decide (2048 ≤ g.saveCount))
      && only (fun g => { g with saveMode := true, saveCount := 2047 }) (fun g => decide (g.saveCount < 2048))
      && only (fun g => { g with susp := some ⟨.endTask, 0, [0, 0, 0, 0]⟩ }) (fun g => g.susp != none && g.frozen == none
          && g.signatures == [] && g.pending == [] && g.all.all fun id => (taskOf running id).remotes == []
            && (taskOf running id).pend == [] && !unitBusy running id && (running.lateArrivals.all fun a => a.core != id))
      && running.offers.all (fun o => o.gid != 1)
      && decide (running.seals.phase = .none)) = true := by decide +kernel

/-- The running state in a phase of a seal, in a group with device 1. -/
def sealing (p : SealPhase) (self : Bool) : State :=
  { running with
    pkg := { running.pkg with firstEnable := true, firstCut := true, sealgrp := [2, 0, 0, 0], logcfg := 0x8000003000008000 },
    seals := { running.seals with phase := p, selfReported := self, interval := 1, settling := [7] },
    now := 10 ^ 9 }

theorem witness_RecoveryFollowsTheSealAndRollbackProtocol : (let q := sealing .quiesce false
    let c := sealing .checkpoint false
    let a := sealing .agreement false
    let n := sealing .none false
    let early (s : State) : State := { s with now := 0 }
    let period (s : State) : Nat := s.pkg.sealcfg.toNat % 2 ^ 16
    let due (s : State) : Bool := s.pkg.firstCut && period s != 0 && decide (s.seals.lastCut + 1250 * period s ≤ s.now)
    let window (s : State) : Bool := decide (s.seals.start + s.pkg.sealcfg.toNat / 2 ^ 16 % 2 ^ 8 * 125 ≤ s.now)
    let limit (s : State) : Bool := decide (s.seals.start + 1250 * (s.pkg.sealcfg.toNat / 2 ^ 32 % 2 ^ 16) ≤ s.now)
    due n && !due (early n) && n.pkg.firstEnable && !running.pkg.firstEnable && inSealGroup n 1 && !inSealGroup n 2
      && window q && !window (early q) && ({ q with groups := [] } : State).groups == [] && q.groups != []
      && c.globals == [] && c.dom.engines == [] && !settleConflict c
      && settleConflict { c with seals := { c.seals with settling := [c.pkg.intnum + 1] } }
      && !c.seals.selfReported && (sealing .checkpoint true).seals.selfReported && logEnabled a && !logEnabled { running with pkg := { running.pkg with logcfg := 0x80000030000C0001 } }
      && !a.seals.selfReported && (sealing .agreement true).seals.selfReported
      && limit c && !limit (early c) && !c.seals.egressWanted && ({ c.seals with egressWanted := true } : SealState).egressWanted
      && c.seals.settling.contains 7 && !c.seals.settling.contains 8
      && n.handovers == [] && ({ n with handovers := [⟨0, .linear 64, 1⟩] } : State).handovers != []
      && (let h : Handle := ⟨BitVec.ofNat 64 (2 ^ 63 + 2 ^ 60 + nearPA 0 0), 64, 0, 0⟩
          let x : Global := ⟨4, 0, 0, 1, 0, 0, .held [1, 2, 3, 4], 0, 40, .other, [], 0, false, false⟩
          let hurt := { commandOf 1 [] true with handles := [(0, h)] }
          x.irrevocable c && !({ x with op := .load 0 4 } : Global).irrevocable c && hurt.atBoundary && commandStopped c hurt
            && hurt.meetsLoss (modCore running 0 fun c => { c with pendLoss := 2 }) && !hurt.meetsLoss running)
      && n.sealedDom.sori.all fun e => e.2.fronds.all fun f => f.hold == none) = true := by decide +kernel

theorem witness_SystemEventsActOnTheirPartOfTheModule : (let s := running
    let core (f : Core → Core) : State := modCore s 5 f
    let sampled (f : Sensor → Sensor) : Sensor := (coreOf (core fun c => { c with sensor := f c.sensor }) 5).sensor
    let x : Global := ⟨4, 0, 0, 1, 0, 0, .store [1], 0, 0, .other, [false], 0, false, false⟩
    let far : State := { withPage (8 * 2 ^ 48 + 2 ^ 43) with
      globals := [x], pkg := { running.pkg with domcfg := 0x8000000000000000, peermap := [2, 0, 0, 0] } }
    let there : Handle := ⟨BitVec.ofNat 64 (2 ^ 63 + 2 ^ 60 + 2 ^ 59 + 8 * 2 ^ 48 + 2 ^ 43), 64, 0, 0⟩
    let grouped (t : State) : State := { t with pkg := { t.pkg with sealgrp := [2, 0, 0, 0] } }
    let ptm (b : Bool) : Package := { s.pkg with ptmcfg := if b then 0x8000000000000000 else 0 }
    let here := peerLocal (8 * 2 ^ 48 + (768 * 2 ^ 30 - 8) % 2 ^ 43)
    scrubs s true && scrubs s false && !scrubs { s with pkg := { s.pkg with scrubcfg := 0x1F00000000 } } true
      && ((coreOf s 5).subst.filter fun y => y.1 == 4).length == 0 && (reserves (coreOf s 5) 4).count 32 == 2
      && (let c := coreOf (core fun c => { c with subst := [(4, 31), (4, 30)] }) 5
          c.subst.contains (4, 31) && !c.subst.contains (4, 29) && !decide ((c.subst.filter fun y => y.1 == 4).length < (reserves c 4).count 32))
      && (List.range 8).find? (fun k => !(sparesUsed (coreOf s 5) 4 7).any fun y => y.1 == k) == some 0
      && (coreOf (core fun c => { c with diverged := true }) 5).diverged && groupOn s 5 == none && !(coreOf s 5).diverged
      && (groupOn s 0).isSome && !(ptm false).ptmcfg.getLsbD 63 && (ptm true).ptmcfg.getLsbD 63
      && s.ptmLast.isNone && decide (s.now < 1250000 * max 1 (s.pkg.ptmcfg.toNat % 2 ^ 16))
      && !(sampled id).failed && decide ((-320 : Int) ≤ -320 ∧ (-320 : Int) ≠ (sampled id).raw) && decide ((999 : Int) ≠ (sampled id).raw)
      && decide ((1000 : Int) ≠ (sampled id).raw) && decide (-320 ≤ (sampled id).raw ∧ (sampled id).raw ≤ 1200)
      && decide (4095 ≤ (sampled fun y => { y with same := 4095, rates := [10, 12] }).same)
      && ratesDiffer [10, 12] && !ratesDiffer [10, 11]
      && decide (3 < s.dies.length) && s.globals.filter (globalReaches s 0) == [] && far.globals.filter (globalReaches far 1) == [x]
      && s.dom.engines == [] && s.dom.loads == [] && s.segCopies == [] && s.dies.all (fun d => d.egress == [])
      && !inSealGroup far 1 && !far.gather && far.dom.engines == [] && inSealGroup (grouped far) 1 && namesDevice far there.base 1
      && heldReaches far 1 ⟨0, 1, none, some (0, 40), .atomic there.base 0 false 1 0 0 0 0 40 1⟩
      && heldReaches far 1 ⟨0, 1, none, some (0, 40), .bytes there.base [1] [false]⟩ && !heldReaches far 2 ⟨0, 1, none, none, .add there.base 1⟩
      && (let y : Scrub := ⟨5, 4, 31, 7, 0, false, 16, []⟩
          let t : State := { s with scrubs := [y], bankReqs := [⟨5, 4, 31, 11, 7, 0⟩] }
          t.scrubs.find? (fun z => z.id == 7) == some y && t.bankReqs.any (fun r => r.cls == 11 && r.owner == 7) && s.bankReqs == []
            && copiesBank { t with scrubs := [{ y with copy := true, rows := 4095 }] } 5 4 31 && !copiesBank t 5 4 31)
      && !inWeight here && !inStores here && inWeight (peerLocal (2 ^ 41 + 2 ^ 35)) && inStores (peerLocal (2 ^ 42))
      && extentMapped s (peerLocal (2 ^ 41 + 2 ^ 35)) 8 && extentMapped s (peerLocal (2 ^ 42)) 8
      && (veiledFrom s noCore ++ hiddenFrom s noCore) == []
      && (let t := withTask fun t => { t with veiled := [⟨0, false, here, 1⟩] }
          (veiledFrom t noCore ++ hiddenFrom t noCore).any fun v => v.pa == here)
      && !s.pkg.held && extentMapped s here 8 && (twinAlso s here).isNone && !extentMapped s (here + 1) 8 && !crossingShut s here
      && logCapacity s == 2 ^ 26 && s.dom.regionLog == [] && s.pkg.trctl.getLsbD 63 == false) = true := by decide +kernel

/-- A copy of 64 bytes that has moved them all. -/
def copied : Command :=
  { id := 6, op := 1, block := [0, 0, 0, 0, 0, 64] ++ List.replicate 10 0, stageIdx := 0, program := 0, die := 0, handles := [],
    core := some 0, issuer := 0, gid := 1, issued := 0, slot := 15, packet := none, node := none, barCluster := 0, bar := 40,
    nb := false, rel := true, acq := false, scope := 0, writer := .other, kept := [], judged := true, asked := false,
    hurt := false, list := [], done := 16, written := 64, job := none, flags := 0 }

theorem witness_WhatIsInFlightArrivesAndEnginesRunTheirCommands : (let s := withPage 0x10000
    let load (asked : Bool) (issued : Nat) : RemoteAccess := ⟨34, 0, issued, 47, .load 0 none .m 1, asked, false, none, false⟩
    let store : RemoteAccess := ⟨34, 0, 0, 47, .store [(0, [1, 2, 3, 4]), (16, [5])] .other, true, false, none, false⟩
    let withRemotes (l : List RemoteAccess) : State := withTask fun t => { t with remotes := l }
    let tile : Tile := ⟨3, 0, 0, 0x3FFF0, List.replicate 16 1, none, List.replicate 16 false, .other⟩
    let g := withGroup fun g => { g with tiles := [tile, { tile with id := 4, due := 99 }] }
    let req : BankRequest := ⟨0, 2, 31, 5, 1, 15⟩
    let msg : InFlight := ⟨0, 3, List.replicate 16 0, 0, 1, false⟩
    let later : InFlight := { msg with sent := 1, source := 0 }
    let x (va : Nat) : Global := ⟨4, 0, 0, 1, 0, va, .load 0x3FFFC 4, 0, 40, .other, [], 0, false, false⟩
    let all (va n : Nat) : Option (List Nat) := match translateAll (fillTlb s 0 0 va) 0 0 va n (GlobalOp.load 0 n).need with
      | .ok l => some l
      | .error _ => none
    let e (q r : List Command) : State := { s with dom := { s.dom with engines := [(3, ⟨q, r⟩)] } }
    let fresh : Command := { copied with done := 0, written := 0, judged := false }
    let h : Handle := ⟨BitVec.ofNat 64 (2 ^ 63 + 2 ^ 60 + 2 ^ 59 + nearPA 0 0), 2 ^ 18, 0, 0⟩
    let fine : Command := { fresh with handles := [(0, h)] }
    let gather : Command := { fine with op := 4, block := [0, 0, 0, 64, 0, 1, 4, 4, 4, 0, 0, 128, 1, 0, 0, 0] }
    let judged (c : Command) : Bool := match judgeCommand (viewOf (e [] [c]) c) 3 c with
      | .ok _ => true
      | .error _ => false
    let rows (c : Command) : List BankRequest :=
      towerRequests (e [] [c]) (readClass 3) c.id ((judgeSpans (viewOf (e [] [c]) c) 3 c).flatMap spanRows)
    (taskOf (withRemotes [load true 0]) 0).remotes == [load true 0] && (taskOf s 0).remotes == []
      && !fenced (withRemotes [load true 0]) 0 0 && !requestsStand s 7 0 && !loadHeld (withRemotes [load true 0]) 0 (load true 0)
      && fenced (modTask (withRemotes [load true 5, { load true 3 with order := 1 }]) 0 fun t => { t with fences := [4] }) 0 5
      && requestsStand { s with bankReqs := [⟨47, 2, 0, 7, 0, 0⟩] } 7 0
      && (match store.op with
        | .store cs _ => cs.all (fun c => decide (c.2.length ≤ 16) && decide (c.1 + c.2.length ≤ 2 ^ 18))
        | _ => false)
      && (let pair := withGroup fun g => { g with members := [0], trailing := [1], twin := true }
          shadowed pair 0 store && !shadowed pair 0 (load true 0) && !shadowed s 0 store)
      && !({ store with early := true } : RemoteAccess).op.isLoad && ({ store with early := true } : RemoteAccess).early
      && (let y : Global := { x 0x100 with op := .landing 0x3FFF8 [1, 2, 3, 4, 5, 6, 7, 8] }
          y.op.isLanding && !(x 0x100).op.isLanding && towerRequests s 3 4 (writtenPlaces s [nearPA 0 0x3FFF8]) != []
            && s.bankReqs == [] && startWaits (withRemotes [{ load true 0 with acq := true }]) 0 0 0)
      && (match commandBegins (viewOf (e [] [fine]) fine) 3 fine, commandBegins (viewOf (e [] [fresh]) fresh) 3 { fresh with op := 6 } with
        | .ok _, .error _ => true
        | _, _ => false)
      && (let c : Command := { gather with handles := [(0, { h with w0 := BitVec.ofNat 64 (2 ^ 63 + 2 ^ 60 + 2 ^ 59) })] }
          let t : State := { e [] [c] with mem := writeCells [] 128 [0xFE, 0xFF, 0xFE, 0xFF] }
          match commandBegins (viewOf t c) 3 c, judgeCommand (viewOf t c) 3 c with
          | .ok _, .error _ => (judgeSpans (viewOf t c) 3 c).all (spanAnswers t)
          | _, _ => false)
      && (let y : Global := { x 0x100 with scope := 1, asked := true }
          let late := withRemotes [load true 0]
          startWaits late y.core y.issued y.scope && !startWaits late 0 0 0 && !startWaits s 0 0 1
            && commandAsks { s with bankReqs := [⟨0, 2, 0, 4, 4, 0⟩] } 4 && !commandAsks s 4 && towerRequests s 3 4 [nearPA 0 0x3FFFC] != [])
      && (let t := modTask (e [] [gather]) 1 fun t =>
            { t with fences := [4], hidden := [⟨5, false, nearPA 0 64, 1⟩], remotes := [{ load true 3 with target := 46 }] }
          readsHidden t gather [nearPA 0 64] && !readsHidden (e [] [gather]) gather [nearPA 0 64])
      && (match decodeBundle [0x00080000] with
        | .ok b => b.ops == [] && b.header.scope.val != 0
        | .error _ => false) && ({ fresh with hurt := true } : Command).hurt
      && ({ s with bankReqs := [req] } : State).bankReqs.filter (fun r => r.cls != 0 && r.core == 0 && r.layer == 2 && r.bank == 31) == [req]
      && ({ s with bankUsed := [(0, 31)] } : State).bankUsed.contains (0, 31) && decide (req.waited < 16) && decide (16 ≤ { req with waited := 16 }.waited)
      && (match decodeBundle [0] with
        | .ok b => b.ops == [] && b.header.pop == 0 && !b.header.segMark && !b.header.loopEnd
        | .error _ => false) && (match decodeBundle [0x00060000] with
        | .ok _ => false
        | .error _ => true) && groupOn s 5 == none && !(coreOf s 5).lichen.asked && (coreOf s 5).lichen.pend == []
      && (die s 0).egress == [] && decide (0 < s.dies.length)
      && (groupOn (withGroup fun g => { g with boundaries := [1, 1] }) 0).any (fun h => !lichenMayIssue running h 0)
      && (groupOf g 1).any (fun h => h.tiles.filter (fun t => decide (t.due ≤ h.cycleOf t.target) && !requestsStand g 5 t.id) == [tile])
      && decide (tile.addr + tile.bytes.length ≤ 2 ^ 18) && groupOf s 9 == none
      && ({ s with inFlight := [later, msg] } : State).inFlight.all (fun m => m == msg || decide (msg.sent < m.sent))
      && decide (msg.queue < (coreOf s 0).inbound.length)
      && (groupOn s 0).all (fun g => !g.twin)
      && (tlbHit s 0 0 0).isSome && (tlbHit s 0 0 0x1000).isNone && (walk s 0 0x1000).isNone
      && (let w := { running with mem := writeCells (writeCells (writeCells (writeCells (writeCells running.mem 0
            (leBytes 8 (2 ^ 63 + 2 ^ 62 + 0x100000))) 0x100000 (leBytes 8 0x101001)) 0x101000 (leBytes 8 0x102001)) 0x102000 (leBytes 8 0x103001)) 0x103000 (leBytes 8 0x1001F) }
          (walk w 0 0).isSome && (tlbHit w 0 0 0).isNone && w.tlb.length == 0)
      && (all 0x100 4).isSome && (all 0x1000 4).isNone && (all 0x100 4).all (fun l => l.all fun a => decide (a / 2 ^ 48 < 3) && !crossingShut s a)
      && !fenced s 0 0 && (coreOf s 0).lost == 0 && decide (0x3FFFC + 4 ≤ 2 ^ 18) && (s.globals ++ [x 0x100]).any (fun y => y.id == 4)
      && (s.dom.sori.all fun e => e.2.fronds.all fun f => decide (f.st ≠ .waiting)) && logCapacity s == 2 ^ 26 && s.dom.regionLog == []
      && (engineOf (e [fresh] []) 3).queue == [fresh] && decide (0 < runningSlots 3) && judged fine && !judged fresh && judged gather
      && rows fine == [] && rows gather != [] && rows { gather with handles := [(0, { h with w0 := BitVec.ofNat 64 (2 ^ 63 + 2 ^ 60 + 2 ^ 59) })] } == []
      && (judgeSpans (viewOf (e [] [fine]) fine) 3 fine).all (spanAnswers (e [] [fine]))
      && !commandHolds (e [] [fine]) 3 fine && commandHolds (e [] [{ fine with acq := true }, { copied with id := 5 }]) 3 { fine with acq := true }
      && (engineOf (e [] [copied]) 3).running.find? (fun c => c.id == 6) == some copied && copied.finished && copied.copies
      && !commandHolds (e [] [copied]) 3 copied && !fresh.finished && commandHolds { e [] [copied] with seals := { s.seals with phase := .checkpoint } } 3 copied
      && decide (copied.count * copied.es ≠ 0) && decide (15 < (taskOf s 0).slots.length)) = true := by decide +kernel

/-- An acquire is bound to the core's own store that waits before it (R118, R122). -/
theorem test_rld_acquire_follows_its_own_store : (let store : RemoteAccess := ⟨34, 0, 1, 47, .store [(8, [1, 2, 3, 4])] .other, true, false, none, false⟩
    let load : RemoteAccess := ⟨35, 1, 2, 47, .load 8 none .m 1, true, true, none, false⟩
    let t := bindAcquires (withTask fun t => { t with remotes := [store, load] }) 0
    (taskOf t 0).remotes.map fun r => r.bound.map Bound.dsts) = [none, some (regDest .m 1 0x04030201)] := by decide +kernel

/-- A load that has fallen due holds the results of its cycle (R16, R31). -/
theorem test_results_wait_for_a_late_remote_load : (let load : RemoteAccess := ⟨10, 0, 0, 47, .load 0 none .m 1, true, false, none, false⟩
    let s := withTask fun t => { t with pend := [⟨10, 1, 1, none, [.word .a 31 7], 0, false⟩], remotes := [load] }
    [deliverDue s 0 10, deliverDue (modTask s 0 fun t => { t with remotes := [] }) 0 10].map fun t => (taskOf t 0).a.getD 31 0) = [0, 7] := by
  decide +kernel

/-- A pass of the scrubber asks for one row after the other (R392): near rows 512 of a bank. -/
theorem test_scrubPass_asks_row_by_row : (runs running (.scrubPass 5 2 31 (some 0) []) fun t =>
    t.scrubs.map Scrub.rows == [511] && t.bankReqs == [⟨5, 2, 31, 11, running.nextId, 0⟩]
      && (scrubGranted { t with bankReqs := [] } running.nextId).scrubs.map Scrub.rows == [510]) = true := by decide +kernel

end Sys2Proof.Tests
end

/-! SUPPORT. Writes of the control registers of region 3 and the events that are such writes (R6): where the registers of the
front-end page lie, what a write of a whole register stores, and which writes change nothing. -/

namespace Sys2Proof.Machine

open Sys2Proof

/-! Reading back a die and a queue. -/

theorem getElem?_modifyAt {α : Type} (l : List α) (i j : Nat) (f : α → α) :
    (modifyAt l i f)[j]? = if j = i then l[j]?.map f else l[j]? := by
  induction l generalizing i j with
  | nil => simp [modifyAt]
  | cons x xs ih => cases i <;> cases j <;> simp [modifyAt, ih]

theorem die_modDie_self (s : State) {d : Nat} (f : Die → Die) (h : d < s.dies.length) :
    die (modDie s d f) d = f (die s d) := by
  simp only [die, modDie, List.getD_eq_getElem?_getD, getElem?_modifyAt, if_true, List.getElem?_eq_getElem h, Option.map_some,
    Option.getD_some]

theorem die_modDie_of_ne (s : State) {d c : Nat} (f : Die → Die) (h : c ≠ d) : die (modDie s d f) c = die s c := by
  simp [die, modDie, List.getD_eq_getElem?_getD, getElem?_modifyAt, h]

@[simp] theorem queueOf_modQueue_self (s : State) (q : Nat) (f : Queue → Queue) :
    queueOf (modQueue s q f) q = f (queueOf s q) := lookup_assign_self

theorem queueOf_modQueue_of_ne (s : State) {q r : Nat} (f : Queue → Queue) (h : r ≠ q) :
    queueOf (modQueue s q f) r = queueOf s r := lookup_assign_of_ne h

/-! Where the registers of region 3 lie. -/

theorem locateReg_frontEnd {o : Nat} {n : RegName} (h : feReg o = some n) (h8 : o % 8 = 0 := by omega)
    (hlt : o < 0x2000 := by omega) : locateReg (0x100000 + o) = some ⟨n, 0x100000 + o, 8⟩ := by
  have hpage : (0x100000 + o) / 2 ^ 24 = 0 := by omega
  have hreg : (0x100000 + o - 0x100000) / 8 * 8 = o := by omega
  have hstart : (0x100000 + o) / 8 * 8 = 0x100000 + o := by omega
  simp only [locateReg, hpage, hreg, hstart, h, Option.map_some, if_true, Nat.le_add_right]

theorem feReg_qbase {q : Nat} (hq : q < 64) : feReg (64 * q) = some (.qbase q) := by
  revert q
  decide

theorem feReg_sealgrp {i : Nat} (hi : i < 4) : feReg (0x1108 + 8 * i) = some (.sealgrp i) := by
  revert i
  decide

theorem feReg_peermap {i : Nat} (hi : i < 4) : feReg (0x1318 + 8 * i) = some (.peermap i) := by
  revert i
  decide

theorem locateReg_biststat {d : Nat} (hd : d < 4) :
    locateReg (0x2100000 + d * 0x400000) = some ⟨.biststat d, 0x2100000 + d * 0x400000, 8⟩ := by
  revert d
  decide

/-! The write of a whole register. -/

/-- An access that writes all of a register leaves none of the bits it held. -/
theorem wholeWrite_value (v : Dword) (old : Nat) :
    BitVec.ofNat 64 (Nat.land v.toNat (2 ^ 64 - 1) + (old - Nat.land old (2 ^ 64 - 1))) = v := by
  have land_ones (x : Nat) : Nat.land x (2 ^ 64 - 1) = x % 2 ^ 64 := Nat.and_two_pow_sub_one_eq_mod x 64
  apply BitVec.eq_of_toNat_eq
  have hv : v.toNat < 2 ^ 64 := v.isLt
  simp only [land_ones, BitVec.toNat_ofNat]
  omega

theorem exec_registerWrite_whole {o w : Nat} {n : RegName} (v : Dword) (s : State) (h : locateReg o = some ⟨n, o, w⟩) :
    exec (.registerWrite o v) s = .next (writeRegister s (writerFor n) n v.toNat (2 ^ 64 - 1)) := by
  change execRegisterWrite o v s = _
  simp only [execRegisterWrite, h, Nat.sub_self, Nat.zero_div, Nat.zero_mul, Nat.mul_zero, Nat.pow_zero, Nat.mul_one]

theorem exec_registerWrite_unmapped {o : Nat} (v : Dword) (s : State) (h : locateReg o = none) :
    exec (.registerWrite o v) s = .next s := by
  change execRegisterWrite o v s = _
  simp only [execRegisterWrite, h]

/-- The registers that no one writes (R6). -/
def regReadOnly : RegName → Bool
  | .qhead _ | .qstate _ | .jnext | .intnum | .logused _ | .egrused _ | .rbcount | .trhead | .trlost | .devtime
  | .dbgchal _ | .seclog | .report _ | .tsense _ | .barrier _ _ => true
  | _ => false

theorem writeRegister_of_readOnly {n : RegName} (s : State) (who : Party) (x m : Nat) (h : regReadOnly n = true) :
    writeRegister s who n x m = s := by
  unfold regReadOnly at h
  split at h
  case h_16 => cases h
  all_goals rfl

/-- The offset is that of a register that no one writes. -/
def readOnlyAt (o : Nat) : Bool := (locateReg o).any fun r => regReadOnly r.name

theorem exec_registerWrite_readOnly {o : Nat} (v : Dword) (s : State) (h : readOnlyAt o = true) :
    exec (.registerWrite o v) s = .next s := by
  change execRegisterWrite o v s = _
  unfold readOnlyAt at h
  cases hr : locateReg o with
  | none => simp only [execRegisterWrite, hr]
  | some r =>
    have hn : regReadOnly r.name = true := by simpa [hr] using h
    simp only [execRegisterWrite, hr, writeRegister_of_readOnly _ _ _ _ hn]

theorem queue_readOnlyAt {q : Nat} (hq : q < 64) :
    readOnlyAt (0x100000 + (64 * q + 0x18)) = true ∧ readOnlyAt (0x100000 + (64 * q + 0x20)) = true := by
  revert q
  decide

theorem report_readOnlyAt {i : Nat} (hi : i < 32) : readOnlyAt (0x100000 + (0x1700 + 8 * i)) = true := by
  revert i
  decide

/-- The registers that keep what they hold: those of the log after the first cut (R374), and TRBASE while tracing is on
(R408). -/
def regLocked (p : Package) : RegName → Bool
  | .logbase | .logcfg => p.firstCut
  | .trbase => p.trctl.getLsbD 63
  | _ => false

theorem writeRegister_of_locked {n : RegName} {s : State} (who : Party) (x m : Nat) (h : regLocked s.pkg n = true) :
    writeRegister s who n x m = s := by
  unfold regLocked at h
  split at h
  case h_4 => cases h
  all_goals simp only [writeRegister, h, if_true]

theorem exec_registerWrite_locked {o w : Nat} {n : RegName} (v : Dword) (s : State) (ho : locateReg o = some ⟨n, o, w⟩)
    (hn : regLocked s.pkg n = true) : exec (.registerWrite o v) s = .next s := by
  rw [exec_registerWrite_whole v s ho, writeRegister_of_locked _ _ _ hn]

/-- The package registers that hold what is written to them while nothing locks them: the bits that each defines, and where
they are stored (R321, R324, R355, R374, R378, R380, R390, R408, R422, R424). -/
def packageStore : RegName → Option (Dword × (Package → Dword → Package))
  | .jbase => some (0x000FFFFFFFFFFFC0, fun p y => { p with jbase := y })
  | .jsize => some (0x1F, fun p y => { p with jsize := y })
  | .ptbase => some (0x000FFFFFFFFFFFC0, fun p y => { p with ptbase := y })
  | .wdcfg => some (0x800FFFFF, fun p y => { p with wdcfg := y })
  | .sealcfg => some (0x0000FFFF00FFFFFF, fun p y => { p with sealcfg := y })
  | .sealgrp i => some (0xFFFFFFFFFFFFFFFF, fun p y => { p with sealgrp := p.sealgrp.set i y })
  | .logbase => some (0x000FFFFFFFF00000, fun p y => { p with logbase := y })
  | .logcfg => some (0x8000003FFFFFFFFF, fun p y => { p with logcfg := y })
  | .egrcfg => some (0x0000FFFF00003FFF, fun p y => { p with egrcfg := y })
  | .scrubcfg => some (0xFFFFFFFFFFFFFFFF, fun p y => { p with scrubcfg := y })
  | .trbase => some (0x000FFFFFFFFFFFE0, fun p y => { p with trbase := y })
  | .alarmen => some (0x1F, fun p y => { p with alarmen := y })
  | .domcfg => some (0x80000000000000FF, fun p y => { p with domcfg := y })
  | .peermap i => some (0xFFFFFFFFFFFFFFFF, fun p y => { p with peermap := p.peermap.set i y })
  | _ => none

theorem writeRegister_of_packageStore {n : RegName} {mask : Dword} {set : Package → Dword → Package} {s : State} (v : Dword)
    (hl : regLocked s.pkg n = false) (h : packageStore n = some (mask, set)) :
    writeRegister s (writerFor n) n v.toNat (2 ^ 64 - 1) = { s with pkg := set s.pkg (v &&& mask) } := by
  have all_ones : v &&& 0xFFFFFFFFFFFFFFFF = v := BitVec.and_allOnes
  unfold packageStore at h
  split at h
  case h_15 => cases h
  all_goals
    simp only [regLocked] at hl
    cases h
    simp only [writeRegister, wholeWrite_value, all_ones, hl, modPkg, writeWdcfg, writerFor, beq_self_eq_true, if_true,
      Bool.false_eq_true, if_false]

theorem exec_registerWrite_stores {o w : Nat} {n : RegName} {mask : Dword} {set : Package → Dword → Package} (v : Dword)
    (s : State) (ho : locateReg o = some ⟨n, o, w⟩) (hl : regLocked s.pkg n = false)
    (hn : packageStore n = some (mask, set)) :
    exec (.registerWrite o v) s = .next { s with pkg := set s.pkg (v &&& mask) } := by
  rw [exec_registerWrite_whole v s ho, writeRegister_of_packageStore v hl hn]

/-! Writes with an effect of their own. -/

theorem exec_registerWrite_qbase {q : Nat} (v : Dword) (s : State) (hq : q < 64) :
    exec (.registerWrite (0x100000 + 64 * q) v) s =
      .next (modQueue s q fun x => { x with base := v &&& 0x000FFFFFFFFFF000 }) := by
  rw [exec_registerWrite_whole v s (locateReg_frontEnd (feReg_qbase hq))]
  simp only [writeRegister, wholeWrite_value]

theorem exec_registerWrite_ptmcfg (v : Dword) (s : State) :
    exec (.registerWrite 0x101228 v) s = .next (writePtmcfg s v) := by
  rw [exec_registerWrite_whole v s (locateReg_frontEnd (o := 0x1228) (n := .ptmcfg) rfl)]
  simp only [writeRegister, wholeWrite_value]

theorem exec_registerWrite_biststat {d : Nat} (v : Dword) (s : State) (hd : d < 4) :
    exec (.registerWrite (0x2100000 + d * 0x400000) v) s =
      .next (modDie s d fun x => { x with bist := v &&& 0xC000FFFFFFFFFFFF }) := by
  rw [exec_registerWrite_whole v s (locateReg_biststat hd)]
  simp only [writeRegister, writerFor, writeRepair, wholeWrite_value, beq_self_eq_true, if_true]

theorem writePtmcfg_disabled (s : State) {v : Dword} (hv : v.getLsbD 63 = false) :
    (writePtmcfg s v).slew = 0 ∧ (writePtmcfg s v).synced = true := by
  simp only [writePtmcfg, hv, Bool.false_eq_true, if_false, Bool.not_false, Bool.or_true, and_self]

/-- The field at bit `lo` of width `n`, in its place. -/
theorem and_fieldMask (x lo n : Nat) : x &&& (2 ^ n - 1) * 2 ^ lo = field x lo n * 2 ^ lo := by
  apply Nat.eq_of_testBit_eq
  intro i
  simp only [field, Nat.testBit_and, Nat.testBit_mul_two_pow, Nat.testBit_mod_two_pow, Nat.testBit_two_pow_sub_one,
    Nat.testBit_div_two_pow]
  by_cases h : lo ≤ i
  · simp [h, Bool.and_comm]
  · simp [h]

/-- TRCTL as it is stored: EN, SIZE and MASK beside each other (R408). -/
theorem trctl_word (size v : Dword) :
    BitVec.ofNat 64 (flagBit true 63 + bits size 32 5 * 2 ^ 32 + bits v 0 16) =
      0x8000000000000000 ||| (v &&& 0xFFFF) ||| (size &&& 0x1F00000000) := by
  have hk : (size &&& 0x1F00000000).toNat = 2 ^ 32 * bits size 32 5 := by
    rw [Nat.mul_comm]; exact and_fieldMask size.toNat 32 5
  have hm : (v &&& 0xFFFF).toNat = bits v 0 16 := (and_fieldMask v.toNat 0 16).trans (Nat.mul_one _)
  have hk_lt : bits size 32 5 < 2 ^ 5 := Nat.mod_lt _ (by decide)
  have hm_lt : bits v 0 16 < 2 ^ 16 := Nat.mod_lt _ (by decide)
  have hflag : flagBit true 63 = 2 ^ 63 * 1 := rfl
  have hlow : 2 ^ 32 * bits size 32 5 + bits v 0 16 < 2 ^ 63 := by omega
  apply BitVec.eq_of_toNat_eq
  calc (BitVec.ofNat 64 (flagBit true 63 + bits size 32 5 * 2 ^ 32 + bits v 0 16)).toNat
      = 2 ^ 63 * 1 + (2 ^ 32 * bits size 32 5 + bits v 0 16) := by rw [BitVec.toNat_ofNat, hflag]; omega
    _ = 2 ^ 63 * 1 ||| (2 ^ 32 * bits size 32 5 ||| bits v 0 16) := by
      rw [Nat.two_pow_add_eq_or_of_lt hlow, Nat.two_pow_add_eq_or_of_lt (hm_lt.trans (by decide))]
    _ = _ := by rw [BitVec.toNat_or, BitVec.toNat_or, hk, hm, Nat.or_assoc, Nat.or_comm (bits v 0 16)]; rfl

theorem writeTrctl_start (s : State) {v : Dword} (hv : v.getLsbD 63 = true) :
    writeTrctl s v true = { s with pkg := { s.pkg with
      trctl := 0x8000000000000000 ||| (v &&& 0xFFFF)
        ||| ((if s.pkg.trctl.getLsbD 63 then s.pkg.trctl else v) &&& 0x1F00000000)
      trhead := 0
      trlost := 0 } } := by
  have hsize : (if s.pkg.trctl.getLsbD 63 then bits s.pkg.trctl 32 5 else bits v 32 5) =
      bits (if s.pkg.trctl.getLsbD 63 then s.pkg.trctl else v) 32 5 := (apply_ite (bits · 32 5) _ _ _).symm
  simp only [writeTrctl, modPkg, hv, hsize, trctl_word, if_true]

/-- The ratio that a crossing waits for after a write of its field of LCLK: a field of code 3 changes nothing, and one of the
ratio in effect asks for a change only while another waits (R431). -/
def nextRatio (cur : Nat) (pend : Option Nat) (code : Nat) : Option Nat :=
  if code = 3 then pend else if pend ≠ none ∨ code ≠ cur then some code else none

/-- A die after a write of LCLK. -/
def askRatios (v : Dword) (x : Die) : Die :=
  { x with
    farPend := nextRatio x.far x.farPend (v.toNat / 2 ^ 4 % 4)
    midPend := nextRatio x.mid x.midPend (v.toNat % 4) }

theorem writeLclk_eq (s : State) (d : Nat) (v : Dword) :
    writeLclk s d v = { modDie s d (askRatios v) with
      agenda := ratioChanges (modDie s d (askRatios v)) d ++ s.agenda } := by
  have hnext (cur : Nat) (pend : Option Nat) (code : Nat) :
      (if code = 3 then pend else if pend.isSome || code != cur then some code else none) = nextRatio cur pend code := by
    simp [nextRatio, Option.isSome_iff_ne_none]
  have hfar : bits v 4 2 = v.toNat / 2 ^ 4 % 4 := rfl
  have hmid : bits v 0 2 = v.toNat % 4 := by simp [bits, field]
  simp only [writeLclk, hnext, hfar, hmid]
  rfl

/-- A write of LCLK: the die waits for the ratios asked for, and their changes are the next acts (R111, R431). -/
theorem writeLclk_acts (s : State) {d : Nat} (v : Dword) (h : d < s.dies.length) :
    die (writeLclk s d v) d = askRatios v (die s d) ∧ (∀ c, c ≠ d → die (writeLclk s d v) c = die s c)
      ∧ writeLclk s d v = { s with
        dies := (writeLclk s d v).dies
        agenda := (if (askRatios v (die s d)).farPend.isSome then [.unit .farRatioChange d 0 0] else [])
          ++ (if (askRatios v (die s d)).midPend.isSome then [.unit .midRatioChange d 0 0] else []) ++ s.agenda } := by
  have hself := die_modDie_self s (askRatios v) h
  rw [writeLclk_eq, ratioChanges, hself]
  exact ⟨hself, fun c hc => die_modDie_of_ne s _ hc, rfl⟩

theorem coreOf_clearLoss_self (s : State) (core k b : Nat) :
    coreOf (clearLoss s core k b) core = { coreOf s core with
      loss := update 0 (coreOf s core).loss (32 * k + b) 0
      lossSeen := update 0 (coreOf s core).lossSeen (32 * k + b) 0 } := coreOf_modCore_self s core _

theorem clearLoss_loss (s : State) (core k b : Nat) :
    (coreOf (clearLoss s core k b) core).loss = update 0 (coreOf s core).loss (32 * k + b) 0 :=
  congrArg Core.loss (coreOf_clearLoss_self s core k b)

theorem clearLoss_lossSeen (s : State) (core k b : Nat) :
    (coreOf (clearLoss s core k b) core).lossSeen = update 0 (coreOf s core).lossSeen (32 * k + b) 0 :=
  congrArg Core.lossSeen (coreOf_clearLoss_self s core k b)

theorem lookup_cleared (l : Sparse Nat) (n : Nat) :
    lookup 0 (update 0 l n 0) n = 0 ∧ ∀ m, m ≠ n → lookup 0 (update 0 l n 0) m = lookup 0 l m :=
  ⟨lookup_update_self, fun _ h => lookup_update_of_ne h⟩

theorem execCstateWrite_eq (s : State) (core : Nat) (w : Word) :
    execCstateWrite core w s =
      .next (if w.toNat % 4 = 3 then s else modCore s core fun c => { c with cstate := w.toNat % 4 }) := by
  have hcode : bits w 0 2 % 4 = w.toNat % 4 := by simp [bits, field]
  simp only [execCstateWrite, writeCstate, hcode]

/-! The statement. -/

/-- Settles O55: it holds. Each plain register stores through `packageStore`, what is read-only or locked is kept, and each
write with an effect of its own has its lemma above. -/
theorem registerWritesStoreTheirDefinedBits : Obligations.RegisterWritesStoreTheirDefinedBits := by
  unfold Obligations.RegisterWritesStoreTheirDefinedBits
  intro v w core k b d far s goes keeps stores fe oneCore oneDie x cleared far' mid' pends
  have plain {o n mask set} (ho : feReg o = some n) (hl : regLocked s.pkg n = false) (hn : packageStore n = some (mask, set))
      (h8 : o % 8 = 0 := by omega) (hlt : o < 0x2000 := by omega) : stores (fe o) mask set :=
    exec_registerWrite_stores v s (locateReg_frontEnd ho) hl hn
  have kept {o n} (ho : feReg o = some n) (hl : regLocked s.pkg n = true) (h8 : o % 8 = 0 := by omega)
      (hlt : o < 0x2000 := by omega) : keeps (fe o) :=
    exec_registerWrite_locked v s (locateReg_frontEnd ho) hl
  have fixed {o} (h : readOnlyAt o = true) : keeps o := exec_registerWrite_readOnly v s h
  refine ⟨plain (n := .jbase) rfl rfl rfl, plain (n := .jsize) rfl rfl rfl, plain (n := .ptbase) rfl rfl rfl,
    plain (n := .wdcfg) rfl rfl rfl, plain (n := .sealcfg) rfl rfl rfl,
    fun i hi => plain (feReg_sealgrp hi) rfl rfl,
    fun hcut => ⟨plain (n := .logbase) rfl hcut rfl, plain (n := .logcfg) rfl hcut rfl⟩,
    fun hcut => ⟨kept (n := .logbase) rfl hcut, kept (n := .logcfg) rfl hcut⟩,
    plain (n := .egrcfg) rfl rfl rfl, plain (n := .scrubcfg) rfl rfl rfl,
    fun hoff => plain (n := .trbase) rfl hoff rfl, fun hon => kept (n := .trbase) rfl hon,
    plain (n := .alarmen) rfl rfl rfl, plain (n := .domcfg) rfl rfl rfl,
    fun i hi => plain (feReg_peermap hi) rfl rfl,
    fun o ho => fixed ((List.all_eq_true (p := fun o => readOnlyAt (0x100000 + o))).mp (by decide) o ho),
    fun i hi => fixed (report_readOnlyAt hi),
    fun q hq => ⟨fixed (queue_readOnlyAt hq).1, fixed (queue_readOnlyAt hq).2,
      _, exec_registerWrite_qbase v s hq, queueOf_modQueue_self s q _, fun r hr => queueOf_modQueue_of_ne s _ hr, rfl⟩,
    fun o ho => exec_registerWrite_unmapped v s ho,
    ⟨_, exec_registerWrite_ptmcfg v s, rfl, writePtmcfg_disabled s, rfl⟩,
    fun hd hlen => ⟨_, exec_registerWrite_biststat v s hd, rfl, die_modDie_self s _ hlen, fun c hc => die_modDie_of_ne s _ hc⟩,
    fun hon => ⟨_, (if_pos hon).trans (congrArg Host.Outcome.next (writeTrctl_start s hon)), rfl⟩,
    fun hoff => if_neg (ne_true_of_eq_false hoff), rfl, rfl,
    fun h3 => (execCstateWrite_eq s core w).trans (by rw [if_pos h3]),
    fun h3 => ⟨_, (execCstateWrite_eq s core w).trans (by rw [if_neg h3]), rfl, coreOf_modCore_self s core _,
      fun j hj => coreOf_modCore_of_ne s _ hj⟩,
    ?loss, fun hlen => ⟨?lclk, ?ratio⟩⟩
  case loss =>
    refine ⟨_, rfl, ⟨rfl, ?_, fun j hj => coreOf_modCore_of_ne s _ hj⟩, ?_, ?_⟩
    · rw [clearLoss_loss, clearLoss_lossSeen, coreOf_clearLoss_self]
    · rw [clearLoss_loss]
      exact lookup_cleared _ _
    · rw [clearLoss_lossSeen]
      exact lookup_cleared _ _
  case lclk =>
    obtain ⟨hself, hother, hframe⟩ := writeLclk_acts s v hlen
    exact ⟨_, rfl, hframe, hself, hother⟩
  case ratio => exact ⟨_, rfl, rfl, die_modDie_self s _ hlen, fun c hc => die_modDie_of_ne s _ hc⟩

end Sys2Proof.Machine

/-! SUPPORT. What a register reads after a write, and the fields of the control registers CORE, STATUS and INTERVAL (R13, R206,
R346, R368). -/

namespace Sys2Proof.Machine

open Sys2Proof

/-! Reading a register after a write. -/

/-- A write of one file leaves the registers of every other as they were. -/
theorem readReg_writeReg_of_file_ne (t : Task) {fl fl' : File} (r r' : Nat) (v : Word) (h : fl ≠ fl') :
    readReg (writeReg t fl r v) fl' r' = readReg t fl' r' := by
  cases fl with
  | a | b | m =>
    by_cases hr : r = 0
    · simp only [writeReg, hr, if_true]
    · simp only [writeReg, hr, if_false]
      cases fl' <;> simp [readReg] at h ⊢
  | preds | vpreds => rfl
  | c | v | w | x | f | n => cases fl' <;> simp [readReg, writeReg] at h ⊢

theorem readReg_writeReg_of_reg_ne (t : Task) (fl : File) {r r' : Nat} (v : Word) (h : r ≠ r') :
    readReg (writeReg t fl r v) fl r' = readReg t fl r' := by
  have hset {α : Type} (l : List α) (x d : α) : (l.set r x).getD r' d = l.getD r' d := by
    simp only [List.getD_eq_getElem?_getD, List.getElem?_set_ne h]
  rcases eq_or_ne r 0 with rfl | hr
  · cases fl <;> simp only [readReg, writeReg, if_true, hset]
  · cases fl <;> simp only [readReg, writeReg, hr, if_false, hset]

/-! The control registers made of fields. -/

/-- CORE is made of cluster, member, die and column (R206). -/
theorem coreRegister_toNat {id : Nat} (hid : id < 8192) :
    (coreRegister id).toNat = id % 2048 / 48 * 2 ^ 24 + id % 2048 % 48 * 2 ^ 18 + id / 2048 * 2 ^ 11 + id % 2048 := by
  rw [coreRegister, columnOf, memberOf, columnOf, dieOf, BitVec.toNat_ofNat]
  exact Nat.mod_eq_of_lt (by omega)

theorem coreRegister_fields {id : Nat} (hcol : id % 2048 < 1152) (hid : id < 8192) :
    (coreRegister id).extractLsb' 24 5 = BitVec.ofNat 5 (id % 2048 / 48)
      ∧ (coreRegister id).extractLsb' 18 6 = BitVec.ofNat 6 (id % 2048 % 48)
      ∧ (coreRegister id).extractLsb' 11 2 = BitVec.ofNat 2 (id / 2048)
      ∧ (coreRegister id).extractLsb' 0 11 = BitVec.ofNat 11 (id % 2048) := by
  have hcluster : id % 2048 / 48 < 24 := by omega
  have hmember : id % 2048 % 48 < 48 := Nat.mod_lt _ (by decide)
  have hdie : id / 2048 < 4 := by omega
  simp only [BitVec.extractLsb', Nat.shiftRight_eq_div_pow, coreRegister_toNat hid, ← BitVec.toNat_inj, BitVec.toNat_ofNat]
  generalize id % 2048 / 48 = cluster at *
  generalize id % 2048 % 48 = member at *
  generalize id / 2048 = die at *
  generalize id % 2048 = column at *
  omega

theorem statusRegister_modes (s : State) :
    statusRegister s = (curTask s).status ||| (if privileged s then 0x4000 else 0)
      ||| (if inSaveMode s && !s.cur.lichen then 0x8000 else 0) := by
  rw [BitVec.or_assoc, statusRegister]
  cases privileged s <;> cases (inSaveMode s && !s.cur.lichen) <;> rfl

/-- INTERVAL is made of the sealing bit, the tag code and the interval modulo 2^28 (R368). -/
theorem intervalRegister_toNat (s : State) :
    (intervalRegister s).toNat = s.pkg.sealing.toNat * 2 ^ 31 + (s.pkg.intnum % 3 + 1) * 2 ^ 28 + s.pkg.intnum % 2 ^ 28 := by
  have hsealing := Bool.toNat_le s.pkg.sealing
  rw [intervalRegister, tagCode, BitVec.toNat_ofNat]
  exact Nat.mod_eq_of_lt (by omega)

theorem intervalRegister_fields (s : State) :
    (intervalRegister s).getLsbD 31 = s.pkg.sealing ∧ (intervalRegister s).getLsbD 30 = false
      ∧ ((intervalRegister s).extractLsb' 28 2).toNat = s.pkg.intnum % 3 + 1
      ∧ ((intervalRegister s).extractLsb' 0 28).toNat = s.pkg.intnum % 2 ^ 28 := by
  have htag : s.pkg.intnum % 3 < 3 := Nat.mod_lt _ (by decide)
  simp only [BitVec.extractLsb', Nat.shiftRight_eq_div_pow, BitVec.getLsbD, Nat.testBit_eq_decide_div_mod_eq, BitVec.toNat_ofNat,
    intervalRegister_toNat]
  generalize s.pkg.intnum % 3 = tag at *
  cases s.pkg.sealing <;> simp only [Bool.toNat_false, Bool.toNat_true, decide_eq_true_eq, decide_eq_false_iff_not] <;> omega

/-! The statement. -/

/-- Settles O7: it holds. Registers by `readReg_writeReg_of_file_ne` and `readReg_writeReg_of_reg_ne`; CORE, STATUS and INTERVAL
by the lemmas on their fields; every other control register reads what the model stores. -/
theorem hardWiredAndControlRegistersReadAsStated : Obligations.HardWiredAndControlRegistersReadAsStated := by
  unfold Obligations.HardWiredAndControlRegistersReadAsStated
  intro t s fl fl' r r' v
  refine ⟨⟨?hardWired, rfl, rfl, rfl, rfl, rfl, rfl, ?others, ?_, ?_, ?_, ?_, ?_, ?_⟩, ?csrs⟩
  case hardWired => rintro (rfl | rfl | rfl) <;> exact ⟨rfl, rfl⟩
  case others =>
    intro h
    by_cases hf : fl = fl'
    · subst hf
      exact readReg_writeReg_of_reg_ne t fl v fun hr => h (by rw [hr])
    · exact readReg_writeReg_of_file_ne t r r' v hf
  case csrs =>
    refine ⟨rfl, rfl, rfl, rfl, rfl, rfl, coreRegister_fields, rfl, fun _ => statusRegister_modes s, rfl, rfl,
      ?link, ?rows, rfl, ?weights, intervalRegister_fields s⟩
    case link => intro i hi; interval_cases i <;> rfl
    case rows => intro i hi; interval_cases i <;> exact ⟨rfl, rfl, rfl, rfl⟩
    case weights => intro i hi; interval_cases i <;> rfl
  all_goals intros; simp [readReg, writeReg, *]

end Sys2Proof.Machine

/-! SUPPORT. One step, by the act at the head of the agenda (log entry 8). -/

namespace Sys2Proof.Machine

open Sys2Proof

/-- While the module is not held, a step performs the head of the agenda with the head taken off. -/
theorem step_of_agenda {s : State} {a : Act} {rest : List Act} (hheld : s.pkg.held = false) (h : s.agenda = a :: rest) :
    step s = runAct a { s with agenda := rest } := by
  simp only [step, advance, h, hheld, Bool.false_and, Bool.false_eq_true, if_false]

theorem runOp_of_next {ex : Meaning} {s t : State} {i : Instr} (h : ex i s = .next t) : runOp ex s i = t := by
  simp only [runOp, h]

theorem unitCycle_of_idle {s : State} {core : Nat} (h : (coreOf s core).mx.routine = none) : unitCycle s core = s := by
  simp only [unitCycle, h]

/-- A routine's word that decodes is run, or asks the banks first, or waits for them (R302, R312). -/
theorem unitCycle_of_decoded {s : State} {core : Nat} {r : Routine} {i : Instr} (hr : (coreOf s core).mx.routine = some r)
    (hpc : r.pc < 2048) (hi : decodeMicro (r.prog.getD r.pc 0).toNat = .ok i) :
    unitCycle s core = (microAsks { s with cur := unitCursor s core } core r i).getD
      (runOp exec { s with cur := unitCursor s core } i) := by
  simp only [unitCycle, hr, Nat.not_le.mpr hpc, if_false, hi]

theorem groupCycle_of_absent {ex : Meaning} {s : State} {gid : Nat} (h : groupOf s gid = none) : groupCycle ex s gid = s := by
  simp only [groupCycle, h]

/-- Settles O47: it holds. `step_of_agenda` takes the head off; what is left is what each kind of act does. -/
theorem aStepTakesTheHeadOfTheAgenda : Obligations.AStepTakesTheHeadOfTheAgenda := by
  unfold Obligations.AStepTakesTheHeadOfTheAgenda
  intro s rest hheld s0
  have head {a : Act} (h : s.agenda = a :: rest) : step s = runAct a s0 := step_of_agenda hheld h
  refine ⟨fun i h => head h, fun core r i t h hr hpc hi => ?_, fun core h hr => ?_, fun gid h hg => ?_⟩
  · have ran := (head h).trans (congrArg Host.Outcome.next (unitCycle_of_decoded (s := s0) hr hpc hi))
    refine ⟨fun hasks hex => ?_, fun u hasks => ?_⟩
    · rw [ran, hasks, Option.getD_none, runOp_of_next hex]
    · rw [ran, hasks, Option.getD_some]
  · exact (head h).trans (congrArg Host.Outcome.next (unitCycle_of_idle (s := s0) hr))
  · exact (head h).trans (congrArg Host.Outcome.next (groupCycle_of_absent (s := s0) hg))

end Sys2Proof.Machine

/-! SUPPORT. The boundary of a group of one core whose bundle holds one operation: what it meets, and how it issues (R30, R116,
R143, R146). -/

namespace Sys2Proof.Machine

open Sys2Proof

/-! A bundle of one operation, before it issues. -/

/-- A header without effects pops no queue and carries no mark. -/
theorem header_of_no_effects {h : Header} (he : h.effects = []) : h.loopEnd = false ∧ h.pop = 0 := by
  simp only [Header.effects, List.append_eq_nil_iff] at he
  obtain ⟨⟨⟨-, hpop⟩, -⟩, hloop⟩ := he
  exact ⟨by simpa using hloop, by simpa using hpop⟩

/-- One operation is no pattern load beside an M slot. -/
theorem patternCollides_of_one (s : State) (sl : Slot) (i : Instr) (empty : List Nat) :
    patternCollides s [(sl, i)] empty = false := by
  cases sl <;> simp [patternCollides]

theorem cSlot_of_one (sl : Slot) (i : Instr) : cSlot [(sl, i)] = if sl = .c then some i else none := by
  cases sl <;> rfl

/-- The cursor with the path that the operation of a bundle of one selects. -/
def loneCursor (s : State) (sl : Slot) (i : Instr) : Cursor :=
  { s.cur with path := if sl = .c then pathOf s i else 4 }

/-- A bundle of one operation that nothing stops or holds meets nothing at its issue. -/
theorem judgeBundle_of_one {ex : Meaning} {s : State} {b : Bundle} {sl : Slot} {i : Instr} (hops : b.ops = [(sl, i)])
    (heff : b.header.effects = []) (hstop : stopsOf i { s with cur := loneCursor s sl i } = [])
    (hhold : holdOf i { s with cur := loneCursor s sl i } = none) :
    judgeBundle ex s b = ⟨none, none, some ⟨{ loneCursor s sl i with checked := true }, b.ops, []⟩⟩ := by
  obtain ⟨hloop, hpop⟩ := header_of_no_effects heff
  have hqueues : queuesOf b.header.pop = [] := by rw [hpop]; rfl
  have hfirst : firstStop [] = none := rfl
  by_cases hc : sl = .c
  · subst hc
    simp only [loneCursor, if_true] at hstop hhold ⊢
    simp [judgeBundle, hops, hloop, hqueues, heff, patternCollides_of_one, cSlot_of_one, hstop, hhold, hfirst]
  · simp only [loneCursor, hc, if_false] at hstop hhold ⊢
    by_cases hf : sl = .f
    · subst hf
      simp [judgeBundle, hops, hloop, hqueues, heff, patternCollides_of_one, cSlot_of_one, afterOp, hstop, hhold, hfirst]
    · simp [judgeBundle, hops, hloop, hqueues, heff, patternCollides_of_one, cSlot_of_one, hc, hf, hstop, hhold, hfirst]

/-! A bundle of one operation as it issues (R106, R116, R143). -/

/-- A state beside the one member that acts in it. -/
def alone (s : State) (l : Lane) : State × List Lane := (s, [{ l with cur := s.cur }])

theorem eachLane_alone (s : State) (l : Lane) (f : Lane → State → State) :
    eachLane (alone s l) f = alone (f { l with cur := s.cur } s) l := rfl

/-- The one operation acts in a phase that names it, and no other phase does anything. -/
theorem phase_alone {ex : Meaning} {l : Lane} {sl : Slot} {i : Instr} (h : l.ops = [(sl, i)]) (pick : Slot → Instr → Bool)
    (s : State) : phase ex pick (alone s l) = alone (if pick sl i then runOp ex s i else s) l := by
  rw [phase, eachLane_alone]
  cases hp : pick sl i <;> simp [h, hp]

theorem isBarv_of_readsFirst {i : Instr} (h : readsFirst i = true) : isBarv i = false ∧ setsBarrier i = false := by
  unfold readsFirst at h
  split at h
  case h_3 => cases h
  all_goals exact ⟨rfl, rfl⟩

theorem setsBarrier_of_isBarv {i : Instr} (h : isBarv i = true) : setsBarrier i = false := by
  unfold isBarv at h
  split at h
  case h_2 => cases h
  rfl

/-- Exactly one phase of an issue names an operation: the one member issues it once. -/
theorem issueLanes_of_one {ex : Meaning} {l : Lane} {sl : Slot} {i : Instr} (hops : l.ops = [(sl, i)])
    (heff : l.effects = []) (s : State) :
    issueLanes ex s [l] =
      alone (runPost (runOp ex (useBanks (charge (bindBefore { s with cur := l.cur } l) 0 1) l) i)) l := by
  have hbegin : eachLane (s, [l]) (fun l s => useBanks (charge (bindBefore s l) 0 1) l) =
    alone (useBanks (charge (bindBefore { s with cur := l.cur } l) 0 1) l) l := rfl
  simp only [issueLanes, hbegin, phase_alone hops, eachLane_alone, heff, List.foldl_nil]
  congr 2
  generalize useBanks (charge (bindBefore { s with cur := l.cur } l) 0 1) l = ready
  cases sl
  case c => cases hi : lateC i <;> simp [actsFirst, hi]
  case x => cases hi : isMqclr i <;> simp [actsFirst, hi]
  case f =>
    cases hr : readsFirst i
    · cases hb : isBarv i
      · cases setsBarrier i <;> simp [actsFirst]
      · simp [actsFirst, setsBarrier_of_isBarv hb]
    · obtain ⟨hb, hs⟩ := isBarv_of_readsFirst hr
      simp [actsFirst, hb, hs]
  all_goals simp [actsFirst]

/-! A group of one core at its boundary. -/

theorem nextCause_of_none {g : Group} (hp : g.pending = []) (hs : stretchUsed g = false) : nextCause g = none := by
  simp [nextCause, eligibleCauses, hp, hs, sortBy]

theorem endPause_of_running {s : State} {gid : Nat} {g : Group} (hg : groupOf s gid = some g) (hp : g.pauseCode = 0) :
    endPause s gid = s := by
  simp [endPause, hg, hp]

theorem groupOf_gid {s : State} {gid : Nat} {g : Group} (h : groupOf s gid = some g) : g.gid = gid := by
  simpa using List.find?_some h

theorem breakpointRanks_of_disabled {s : State} {core : Nat} (g : Group) (h : (coreOf s core).dbg.en = false) :
    breakpointRanks s g [core] = [] := by
  simp [breakpointRanks, h]

/-- One member that meets nothing at its issue. -/
theorem issueCause_of_one (s : State) (l : Lane) : issueCause s [⟨none, none, some l⟩] = none := by
  simp [issueCause, groupStop, agreementStop, agrees, firstStop, sortBy]

theorem bundleHold_of_one {s : State} {l : Lane} (h : egressCrowded s [l] = false) :
    bundleHold s [⟨none, none, some l⟩] = none := by
  simp [bundleHold, h]

theorem bundleHold_nil (s : State) : bundleHold s [] = none := by
  simp [bundleHold, egressCrowded, egressShort]

theorem issueGroup_of_one {ex : Meaning} {s r : State} {g : Group} {l : Lane} {sl : Slot} {i : Instr}
    (hg : groupOf s g.gid = some g) (hp : g.pauseCode = 0) (hops : l.ops = [(sl, i)]) (heff : l.effects = [])
    (hdbg : (coreOf s l.cur.core).dbg.en = false)
    (hrun : runOp ex (useBanks (charge (bindBefore { s with cur := l.cur } l) 0 1) l) i = r) :
    issueGroup ex s g [l] [] =
      closeBundle (advanceLane (runPost r) { l with cur := (runPost r).cur }) g [{ l with cur := (runPost r).cur }] [] [] := by
  simp [issueGroup, endPause_of_running hg hp, comparedLanes, issueLanes_of_one hops heff, hrun,
    breakpointRanks_of_disabled g hdbg, alone]

/-- A group of one core issues the bundle that its member may issue. -/
theorem issueOrStop_of_one {ex : Meaning} {s : State} {g : Group} {core : Nat} {l : Lane} (hm : g.members = [core])
    (ht : g.trailing = []) (hcause : nextCause g = none) (hj : judgeMember ex s g core = ⟨none, none, some l⟩)
    (hroom : egressCrowded s [l] = false) : issueOrStop ex s g = issueGroup ex s g [l] [] := by
  have hlead : awaitSegments (g.members.map (judgeMember ex s g)) = [⟨none, none, some l⟩] := by
    simp [hm, hj, awaitSegments]
  have htrail : (if trailingReady g false then trailingVerdicts ex s g else []) = [] := by
    simp [trailingVerdicts, ht, awaitSegments]
  simp [issueOrStop, hlead, htrail, issueCause_of_one, hcause, bundleHold_of_one hroom, bundleHold_nil]

/-- A group that nothing stops or holds at its boundary comes to its next bundle once what is due has been delivered. -/
theorem groupCycle_of_running {ex : Meaning} {s : State} {gid : Nat} {g0 g : Group} (hg0 : groupOf s gid = some g0)
    (hfrozen : g0.frozen = none) (hg : groupOf (deliverGroup (landDue s g0) g0) gid = some g) (hcause : nextCause g = none)
    (hstopping : g.stopping = none) (hsusp : g.susp = none) (hlichen : g.lichenHold = false)
    (hearlier : earlierHold (deliverGroup (landDue s g0) g0) g = none) :
    groupCycle ex s gid = issueOrStop ex (deliverGroup (landDue s g0) g0) g := by
  simp [groupCycle, hg0, hfrozen, hg, consumedCause, hcause, hstopping, hsusp, hlichen, hearlier]

theorem judgeMember_of_words {ex : Meaning} {s : State} {g : Group} {id : Nat} {ws : List Nat} {b : Bundle}
    (hf : fetchBundle s id g.program (taskOf s id).pc.toNat = .words ws) (hd : decodeBundle ws = .ok b) :
    judgeMember ex s g id = judgeBundle ex { s with cur := bundleCursor s g id b.header b.len } b := by
  simp [judgeMember, hf, hd]

/-- Settles O48: it holds. The group comes to its bundle, the bundle meets nothing, and the one phase that names its
operation runs it. -/
theorem aStepRunsTheDecodedBundle : Obligations.AStepRunsTheDecodedBundle := by
  unfold Obligations.AStepRunsTheDecodedBundle
  intro s rest gid core g0 g ws b sl i r hheld hagenda s0 hg0 hfrozen d hg hmembers htrailing htwin hpending hsusp hstopping
    hsave hstretch hpause hlichen hearlier hdbg hfetch hdecode hops heff fresh cur looking hstops hguard hhold lane hroom
    ready hexec f
  have hgid : g.gid = gid := groupOf_gid hg
  have hcause : nextCause g = none := nextCause_of_none hpending hstretch
  have hjudge : judgeMember exec d g core = ⟨none, none, some lane⟩ :=
    (judgeMember_of_words hfetch hdecode).trans (judgeBundle_of_one hops heff hstops hhold)
  calc step s
      = .next (groupCycle exec s0 gid) := step_of_agenda hheld hagenda
    _ = .next (issueOrStop exec d g) :=
        congrArg _ (groupCycle_of_running hg0 hfrozen hg hcause hstopping hsusp hlichen hearlier)
    _ = .next (issueGroup exec d g [lane] []) :=
        congrArg _ (issueOrStop_of_one hmembers htrailing hcause hjudge hroom)
    _ = _ := congrArg _ (issueGroup_of_one (hgid ▸ hg) hpause hops rfl hdbg (runOp_of_next hexec))

end Sys2Proof.Machine

/-! SUPPORT. Poisoned data among the results that fall due (R359). -/

namespace Sys2Proof.Machine

open Sys2Proof

/-! Poisoned data at a delivery. -/

/-- Poisoned data among the results due at a core put a cause 9 in front of what waits in every group of the running group's
number, each on the rank that the core has in that group itself (R359). -/
theorem deliverCore_groups_of_poison {s : State} {id cycle : Nat} {g : Group} (hg : groupOn s id = some g)
    (hbad : (coreOf s id).poisonDue cycle = true) :
    (deliverCore s id cycle).groups = s.groups.map fun h =>
      if h.gid = g.gid then { h with pending := ⟨9, 0, [h.rankOf id], none⟩ :: h.pending } else h := by
  have hg' (c : Core) : groupOn (setCore s id c) id = some g := hg
  simp only [deliverCore, hbad, hg', modGroup, setCore_groups, Bool.not_true, Bool.false_eq_true, if_false]

/-! Two groups of one number. -/

/-- A poisoned result, due at once, that writes nothing. -/
def poisonedResult : Pending := ⟨0, 1, 0, none, [], 0, true⟩

/-- The group that runs on core 0: core 0 has rank 0. -/
def runningGroup : Group := placedGroup 1 0

/-- Another group of the same number, on cores 5 and 7: among its cores the search for core 0 ends at rank 1. -/
def namesake : Group := { runningGroup with members := [5], trailing := [7] }

/-- Core 0 runs a group, has a poisoned result due, and a second group bears its group's number. -/
def twoOfOneNumber : State :=
  { State.reset with
    cores := [(0, { Core.initial with task := { Core.initial.task with pend := [poisonedResult] } })]
    groups := [runningGroup, namesake] }

theorem twoOfOneNumber_groupOn : groupOn twoOfOneNumber 0 = some runningGroup := rfl

theorem twoOfOneNumber_pend : (coreOf twoOfOneNumber 0).task.pend = [] ++ poisonedResult :: [] := rfl

theorem twoOfOneNumber_remotes : (coreOf twoOfOneNumber 0).task.remotes = [] := rfl

theorem twoOfOneNumber_groups :
    ∃ z, exec (.resultDue 0) twoOfOneNumber = .next z
      ∧ (z.groups.map fun h => h.pending.map Cause.ranks) = [[[0]], [[1]]] := by
  refine ⟨deliverCore twoOfOneNumber 0 0, rfl, ?_⟩
  rw [deliverCore_groups_of_poison twoOfOneNumber_groupOn rfl]
  rfl

/-- Refutes O52: nothing in the statement keeps two groups from bearing one number, and where a second group bears the number of
the group that runs on the core, the model gives it a cause 9 on the rank that the core has in that second group, the statement on
the rank that the core has in the running one. -/
theorem not_resultsAreWrittenWhenTheyFallDue : ¬ Obligations.ResultsAreWrittenWhenTheyFallDue := by
  unfold Obligations.ResultsAreWrittenWhenTheyFallDue
  intro h
  obtain ⟨-, -, -, one, -⟩ :=
    h 0 twoOfOneNumber runningGroup poisonedResult poisonedResult [] [] [] .v .a 0 0 0 0 [] [] 0 0 0 0 0 0 0
  have whole : ∀ x ∈ (coreOf twoOfOneNumber 0).task.remotes, x.late (runningGroup.cycleOf 0) = false := by
    simp [twoOfOneNumber_remotes]
  obtain ⟨delivered, -⟩ := one twoOfOneNumber_groupOn whole twoOfOneNumber_pend (by simp) (Nat.zero_le _)
  obtain ⟨z, hz, -, hstate⟩ := delivered (by simp [poisonedResult]) List.Pairwise.nil
  obtain ⟨z', hz', hranks⟩ := twoOfOneNumber_groups
  obtain rfl : z = z' := Host.Outcome.next.inj (hz.symm.trans hz')
  rw [hstate] at hranks
  exact absurd (show [[[0]], [[0]]] = [[[0]], [[1]]] from hranks) (by decide)

end Sys2Proof.Machine

/-! SUPPORT. The IEEE formats as arithmetic on patterns (R39, R40): a pattern is a sign and a magnitude, and the number a
magnitude stands for rises with it. -/

namespace Sys2Proof.Machine

open Sys2Proof

/-! The layout of a format. -/

@[simp] theorem expBits_eq (f : Format) : Format.expBits f = (ieeeBits f).1 := by cases f <;> rfl

@[simp] theorem fracBits_eq (f : Format) : Format.fracBits f = (ieeeBits f).2 := by cases f <;> rfl

theorem width_of_isFloat {f : Format} (hf : f.isFloat = true) : f.width = (ieeeBits f).1 + (ieeeBits f).2 + 1 := by
  cases f <;> simp_all [Format.isFloat, Format.width, ieeeBits]

theorem two_le_ieeeBits_exp (f : Format) : 2 ≤ (ieeeBits f).1 := by cases f <;> decide

theorem one_le_ieeeBits_frac (f : Format) : 1 ≤ (ieeeBits f).2 := by cases f <;> decide

/-- The exponent of the least normal magnitude (R40). -/
def leastExp (f : Format) : ℤ := 2 - 2 ^ ((ieeeBits f).1 - 1)

theorem two_pow_expBits (f : Format) : (2 : ℤ) ^ (ieeeBits f).1 = 2 * 2 ^ ((ieeeBits f).1 - 1) := by
  rw [← pow_succ', Nat.sub_add_cancel (by have := two_le_ieeeBits_exp f; omega)]

theorem leastExp_nonpos (f : Format) : leastExp f ≤ 0 := by cases f <;> decide

theorem bias_eq (f : Format) : (Format.bias f : ℤ) = 1 - leastExp f := by cases f <;> decide

/-- The bits of the magnitude: exponent and fraction together. -/
def magBits (f : Format) : ℕ := (ieeeBits f).1 + (ieeeBits f).2

theorem zeroPattern_eq (f : Format) (neg : Bool) : zeroPattern f neg = neg.toNat * 2 ^ magBits f := by
  cases neg <;> simp [zeroPattern, magBits]

theorem infPattern_eq (f : Format) (neg : Bool) : infPattern f neg = zeroPattern f neg + infPattern f false := by
  simp [infPattern, zeroPattern]

theorem infPattern_add (f : Format) : infPattern f false + 2 ^ (ieeeBits f).2 = 2 ^ magBits f := by
  have h := Nat.one_le_two_pow (n := (ieeeBits f).1)
  rw [infPattern, zeroPattern, magBits, pow_add, Nat.sub_mul]
  have := Nat.le_mul_of_pos_left (2 ^ (ieeeBits f).2) (show 0 < 2 ^ (ieeeBits f).1 by positivity)
  simp; omega

theorem absentPattern_eq (f : Format) : absentPattern f + 1 = 2 ^ magBits f + 2 ^ magBits f := by
  have := Nat.one_le_two_pow (n := magBits f)
  have h : (2 : ℕ) ^ ((ieeeBits f).1 + (ieeeBits f).2 + 1) = 2 ^ magBits f + 2 ^ magBits f := by rw [magBits, pow_succ]; omega
  rw [absentPattern, h]; omega

theorem absentCode_of_isFloat {f : Format} (hf : f.isFloat = true) : Format.absentCode f = absentPattern f := by
  rw [Format.absentCode, if_pos hf, width_of_isFloat hf, absentPattern]

theorem canonical_eq (f : Format) : Format.canonical f = canonicalNaN f := by
  simp [Format.canonical, canonicalNaN, infPattern, zeroPattern]

theorem isAbsent_of_isFloat {f : Format} (hf : f.isFloat = true) (x : ℕ) : isAbsent f x = decide (x = absentPattern f) := by
  simp [isAbsent, Format.hasAbsent, hf, absentCode_of_isFloat hf, beq_eq_decide]

/-! A pattern as a sign and a magnitude. -/

theorem minusSign_eq (f : Format) (x : ℕ) : minusSign f x = x.testBit (magBits f) := by
  rw [minusSign, magBits, Nat.testBit_eq_decide_div_mod_eq, beq_eq_decide]

theorem expField_eq (f : Format) (x : ℕ) : expField f x = x % 2 ^ magBits f / 2 ^ (ieeeBits f).2 := by
  rw [expField, magBits, add_comm, pow_add, Nat.mod_mul_right_div_self]

theorem fracField_eq (f : Format) (x : ℕ) : fracField f x = x % 2 ^ magBits f % 2 ^ (ieeeBits f).2 := by
  rw [fracField, magBits, Nat.mod_mod_of_dvd _ (pow_dvd_pow 2 (by omega))]

theorem minusSign_zeroPattern_add (f : Format) (neg : Bool) {p : ℕ} (hp : p < 2 ^ magBits f) :
    minusSign f (zeroPattern f neg + p) = neg := by
  rw [minusSign_eq, zeroPattern_eq, Nat.testBit_eq_decide_div_mod_eq, Nat.add_comm, Nat.add_mul_div_right _ _ (by positivity),
    Nat.div_eq_of_lt hp]
  cases neg <;> rfl

theorem zeroPattern_add_mod (f : Format) (neg : Bool) {p : ℕ} (hp : p < 2 ^ magBits f) :
    (zeroPattern f neg + p) % 2 ^ magBits f = p := by
  rw [zeroPattern_eq, Nat.add_comm, Nat.add_mul_mod_self_right, Nat.mod_eq_of_lt hp]

/-- A pattern of the format's width is its sign and its magnitude. -/
theorem sign_add_magnitude {f : Format} {x : ℕ} (hx : x ≤ absentPattern f) :
    zeroPattern f (minusSign f x) + x % 2 ^ magBits f = x := by
  have hw := absentPattern_eq f
  have hlt : x / 2 ^ magBits f < 2 := Nat.div_lt_of_lt_mul (by omega)
  have hx' := Nat.div_add_mod x (2 ^ magBits f)
  rw [minusSign_eq, zeroPattern_eq, Nat.testBit_eq_decide_div_mod_eq]
  interval_cases h : x / 2 ^ magBits f <;> simp <;> omega

theorem isFinite_iff {f : Format} {x : ℕ} :
    IsFinite f x ↔ x ≤ absentPattern f ∧ x % 2 ^ magBits f < infPattern f false := by
  have hm := Nat.mod_lt x (show 0 < 2 ^ magBits f by positivity)
  have h1 := Nat.one_le_two_pow (n := (ieeeBits f).1)
  have hle : x % 2 ^ magBits f / 2 ^ (ieeeBits f).2 < 2 ^ (ieeeBits f).1 :=
    Nat.div_lt_of_lt_mul (by rwa [magBits, add_comm, pow_add] at hm ⊢)
  have hinf : infPattern f false = (2 ^ (ieeeBits f).1 - 1) * 2 ^ (ieeeBits f).2 := by simp [infPattern, zeroPattern]
  rw [IsFinite, expField_eq, hinf, ← Nat.div_lt_iff_lt_mul (by positivity)]
  have : x % 2 ^ magBits f / 2 ^ (ieeeBits f).2 ≠ 2 ^ (ieeeBits f).1 - 1 ↔
      x % 2 ^ magBits f / 2 ^ (ieeeBits f).2 < 2 ^ (ieeeBits f).1 - 1 := by omega
  rw [this]

theorem infPattern_lt (f : Format) : infPattern f false < 2 ^ magBits f := by
  have := infPattern_add f
  have : 0 < 2 ^ (ieeeBits f).2 := by positivity
  omega

theorem isFinite_zeroPattern_add {f : Format} (neg : Bool) {p : ℕ} (hp : p < infPattern f false) :
    IsFinite f (zeroPattern f neg + p) := by
  have hlt := infPattern_lt f
  have hw := absentPattern_eq f
  rw [isFinite_iff, zeroPattern_add_mod f neg (by omega), zeroPattern_eq]
  refine ⟨?_, hp⟩
  cases neg <;> simp <;> omega

/-! The number of a magnitude. -/

/-- The number that a magnitude stands for; past the finite ones it goes on in the same way (R40). -/
def magnitudeValue (f : Format) (p : ℕ) : ℚ :=
  if p / 2 ^ (ieeeBits f).2 = 0 then (p : ℚ) * 2 ^ (leastExp f - (ieeeBits f).2)
  else ((p % 2 ^ (ieeeBits f).2 : ℕ) + 2 ^ (ieeeBits f).2 : ℚ)
    * 2 ^ (((p / 2 ^ (ieeeBits f).2 : ℕ) : ℤ) - 1 + leastExp f - (ieeeBits f).2)

theorem finiteValue_eq (f : Format) (x : ℕ) :
    finiteValue f x = (if minusSign f x then -1 else 1) * magnitudeValue f (x % 2 ^ magBits f) := by
  rw [finiteValue, magnitudeValue, expField_eq, fracField_eq]
  by_cases h : x % 2 ^ magBits f / 2 ^ (ieeeBits f).2 = 0
  · rw [if_pos h, if_pos h, Nat.mod_eq_of_lt ((Nat.div_eq_zero_iff_lt (by positivity)).mp h)]
    rfl
  · rw [if_neg h, if_neg h]
    rfl

/-- A magnitude written as a binade and a significand, which may be the next power of two. -/
theorem magnitudeValue_significand (f : Format) {j a : ℕ} (ha : a ≤ 2 ^ ((ieeeBits f).2 + 1))
    (hj : j = 0 ∨ 2 ^ (ieeeBits f).2 ≤ a) :
    magnitudeValue f (j * 2 ^ (ieeeBits f).2 + a) = a * 2 ^ (j + leastExp f - (ieeeBits f).2) := by
  set fb := (ieeeBits f).2 with hfb
  have hpos : 0 < 2 ^ fb := by positivity
  rw [pow_succ] at ha
  rw [magnitudeValue, ← hfb, Nat.add_comm, Nat.add_mul_div_right _ _ hpos, Nat.add_mul_mod_self_right]
  rcases Nat.lt_or_ge a (2 ^ fb) with hlt | hge
  · obtain rfl : j = 0 := hj.resolve_right (by omega)
    simp [Nat.div_eq_of_lt hlt]
  · rcases Nat.lt_or_ge a (2 * 2 ^ fb) with hlt2 | hge2
    · have hd : a / 2 ^ fb = 1 := Nat.div_eq_of_lt_le (by omega) (by omega)
      have hm : a % 2 ^ fb = a - 2 ^ fb := by rw [Nat.mod_eq_sub_mod hge, Nat.mod_eq_of_lt (by omega)]
      rw [hd, hm, if_neg (by omega), Nat.cast_sub hge]
      push_cast
      ring_nf
    · obtain rfl : a = 2 * 2 ^ fb := by omega
      rw [Nat.mul_div_cancel _ hpos, Nat.mul_mod_left, if_neg (by omega)]
      have : ((2 + j : ℕ) : ℤ) - 1 + leastExp f - fb = (j + leastExp f - fb) + 1 := by push_cast; ring
      rw [this, zpow_add_one₀ two_ne_zero]
      push_cast
      ring

theorem exists_significand (f : Format) (p : ℕ) : ∃ j a, p = j * 2 ^ (ieeeBits f).2 + a ∧ a < 2 ^ ((ieeeBits f).2 + 1)
    ∧ (j = 0 ∨ 2 ^ (ieeeBits f).2 ≤ a) := by
  have hd := Nat.div_add_mod' p (2 ^ (ieeeBits f).2)
  have hm := Nat.mod_lt p (show 0 < 2 ^ (ieeeBits f).2 by positivity)
  rw [pow_succ]
  cases hk : p / 2 ^ (ieeeBits f).2 with
  | zero => exact ⟨0, p, by simp, by rw [hk] at hd; omega, .inl rfl⟩
  | succ k =>
    refine ⟨k, 2 ^ (ieeeBits f).2 + p % 2 ^ (ieeeBits f).2, ?_, by omega, .inr (by omega)⟩
    rw [hk, Nat.succ_mul] at hd
    omega

theorem magnitudeValue_strictMono (f : Format) : StrictMono (magnitudeValue f) := by
  refine strictMono_nat_of_lt_succ fun p => ?_
  obtain ⟨j, a, rfl, ha, hj⟩ := exists_significand f p
  rw [add_assoc, magnitudeValue_significand f ha.le hj, magnitudeValue_significand f ha (hj.imp_right fun h => h.trans a.le_succ)]
  have : (0 : ℚ) < 2 ^ (j + leastExp f - (ieeeBits f).2) := by positivity
  push_cast
  nlinarith

@[simp] theorem magnitudeValue_zero (f : Format) : magnitudeValue f 0 = 0 := by simp [magnitudeValue]

theorem magnitudeValue_nonneg (f : Format) (p : ℕ) : 0 ≤ magnitudeValue f p := by
  simpa using (magnitudeValue_strictMono f).monotone (Nat.zero_le p)

theorem magnitudeValue_leastNormal (f : Format) : magnitudeValue f (2 ^ (ieeeBits f).2) = 2 ^ leastExp f := by
  have h := magnitudeValue_significand f (j := 0) (a := 2 ^ (ieeeBits f).2) (Nat.pow_le_pow_right (by omega) (by omega)) (.inl rfl)
  rw [Nat.zero_mul, Nat.zero_add] at h
  rw [h]
  push_cast
  rw [← zpow_natCast, ← zpow_add₀ two_ne_zero]
  congr 1
  ring

/-- Where the finite magnitudes end: the power of two above the largest finite number. -/
theorem magnitudeValue_infPattern (f : Format) :
    magnitudeValue f (infPattern f false) = 2 ^ ((2 : ℤ) ^ ((ieeeBits f).1 - 1)) := by
  have h2 : 2 ≤ 2 ^ (ieeeBits f).1 := Nat.le_self_pow (by have := two_le_ieeeBits_exp f; omega) 2
  have hp : infPattern f false = (2 ^ (ieeeBits f).1 - 2) * 2 ^ (ieeeBits f).2 + 2 ^ (ieeeBits f).2 := by
    rw [← Nat.succ_mul]
    simp only [infPattern, zeroPattern, Bool.false_eq_true, if_false, Nat.zero_add]
    congr 1
    omega
  rw [hp, magnitudeValue_significand f (Nat.pow_le_pow_right (by omega) (by omega)) (.inr le_rfl)]
  push_cast [Nat.cast_sub h2]
  rw [← zpow_natCast, ← zpow_add₀ two_ne_zero, two_pow_expBits, leastExp]
  congr 1
  ring

/-- A finite pattern is known by its sign and its number. -/
theorem eq_of_finiteValue_eq {f : Format} {x y : ℕ} (hx : IsFinite f x) (hy : IsFinite f y)
    (hs : minusSign f x = minusSign f y) (hv : finiteValue f x = finiteValue f y) : x = y := by
  have hm : x % 2 ^ magBits f = y % 2 ^ magBits f := by
    apply (magnitudeValue_strictMono f).injective
    rw [finiteValue_eq, finiteValue_eq, hs] at hv
    exact mul_left_cancel₀ (by split <;> norm_num) hv
  rw [← sign_add_magnitude hx.1, ← sign_add_magnitude hy.1, hs, hm]

theorem minusSign_zeroPattern (f : Format) (neg : Bool) : minusSign f (zeroPattern f neg) = neg := by
  simpa using minusSign_zeroPattern_add f neg (p := 0) (by positivity)

theorem finiteValue_zeroPattern (f : Format) (neg : Bool) : finiteValue f (zeroPattern f neg) = 0 := by
  have h := zeroPattern_add_mod f neg (p := 0) (by positivity)
  rw [Nat.add_zero] at h
  rw [finiteValue_eq, h, magnitudeValue_zero, mul_zero]

theorem isFinite_zeroPattern (f : Format) (neg : Bool) : IsFinite f (zeroPattern f neg) :=
  isFinite_zeroPattern_add neg (p := 0) (by cases f <;> decide)

/-! A pattern as it is read. -/

theorem minusSign_asRead (f : Format) (fz : Bool) (x : ℕ) : minusSign f (asRead f fz x) = minusSign f x := by
  rw [asRead]
  split
  · exact minusSign_zeroPattern f _
  · rfl

theorem isFinite_asRead {f : Format} (fz : Bool) {x : ℕ} (hx : IsFinite f x) : IsFinite f (asRead f fz x) := by
  rw [asRead]
  split
  · exact isFinite_zeroPattern f _
  · exact hx

theorem asRead_of_expField {f : Format} (fz : Bool) {x : ℕ} (h : expField f x ≠ 0) : asRead f fz x = x := by
  simp [asRead, h]

end Sys2Proof.Machine

/-! SUPPORT. Rounding: what a rounded integer is, and that the model's quotients and remainders give it (R51). -/

namespace Sys2Proof.Machine

open Sys2Proof

/-! Integers that a number rounds to. -/

/-- The integer that a number of either sign rounds to lies on no other side of an integer than the number. -/
theorem RoundsTo.le_of_le {mode : Rounding} {q : ℝ} {k n : ℤ} (h : RoundsTo mode q k) (hq : q ≤ n) : k ≤ n := by
  by_contra hk
  have hk : (n : ℝ) + 1 ≤ k := by exact_mod_cast not_le.mp hk
  cases mode with
  | rne =>
    obtain ⟨h1, h2⟩ := h
    obtain ⟨hl, -⟩ := abs_le.mp h1
    linarith
  | rtz =>
    obtain ⟨h1, h2, h3⟩ := h
    rcases lt_or_ge (0 : ℝ) k with hpos | hneg
    · have hq0 : 0 ≤ q := nonneg_of_mul_nonneg_right h3 hpos
      rw [abs_of_pos hpos, abs_of_nonneg hq0] at h1
      linarith
    · rw [abs_of_nonpos hneg, abs_of_nonpos (by linarith)] at h2
      linarith
  | rup => linarith [h.2]
  | rdn => linarith [h.1]

theorem RoundsTo.neg {mode : Rounding} {q : ℝ} {k : ℤ} (h : RoundsTo mode q k) :
    RoundsTo (match mode with | .rne => .rne | .rtz => .rtz | .rup => .rdn | .rdn => .rup) (-q) (-k) := by
  cases mode with
  | rne =>
    obtain ⟨h1, h2⟩ := h
    have e : -q - ((-k : ℤ) : ℝ) = -(q - k) := by push_cast; ring
    refine ⟨by rwa [e, abs_neg], fun hh => ?_⟩
    rw [e, abs_neg] at hh
    have := h2 hh
    omega
  | rtz =>
    obtain ⟨h1, h2, h3⟩ := h
    refine ⟨by simpa using h1, by simpa using h2, by simpa using h3⟩
  | rup =>
    obtain ⟨h1, h2⟩ := h
    exact ⟨by push_cast; linarith, by push_cast; linarith⟩
  | rdn =>
    obtain ⟨h1, h2⟩ := h
    exact ⟨by push_cast; linarith, by push_cast; linarith⟩

theorem RoundsTo.ge_of_ge {mode : Rounding} {q : ℝ} {k n : ℤ} (h : RoundsTo mode q k) (hq : n ≤ q) : n ≤ k := by
  have := h.neg.le_of_le (n := -n) (by push_cast; linarith)
  omega

/-- An integer rounds to itself alone. -/
theorem RoundsTo.eq_of_eq {mode : Rounding} {q : ℝ} {k n : ℤ} (h : RoundsTo mode q k) (hq : q = n) : k = n :=
  le_antisymm (h.le_of_le hq.le) (h.ge_of_ge hq.ge)

theorem RoundsTo.unique {mode : Rounding} {q : ℝ} {k l : ℤ} (hk : RoundsTo mode q k) (hl : RoundsTo mode q l) : k = l := by
  -- two answers that differ are the integers beside the number, and each mode takes one of them
  wlog hlt : k < l generalizing k l
  · rcases lt_trichotomy k l with h | h | h
    · exact absurd h hlt
    · exact h
    · exact (this hl hk h).symm
  exfalso
  have hkl : k + 1 ≤ l := hlt
  have hkl' : (k : ℝ) + 1 ≤ l := by exact_mod_cast hkl
  cases mode with
  | rne =>
    obtain ⟨k1, k2⟩ := hk
    obtain ⟨l1, l2⟩ := hl
    obtain ⟨a1, a2⟩ := abs_le.mp k1
    obtain ⟨b1, b2⟩ := abs_le.mp l1
    have hq : q = k + 1 / 2 := by linarith
    have hl' : (l : ℝ) = k + 1 := by linarith
    have e1 := k2 (by rw [hq]; ring_nf; norm_num)
    have e2 := l2 (by rw [hq, hl']; ring_nf; norm_num)
    have : l = k + 1 := by exact_mod_cast hl'
    omega
  | rtz =>
    obtain ⟨k1, k2, k3⟩ := hk
    obtain ⟨l1, l2, l3⟩ := hl
    rcases lt_or_ge q 0 with hq | hq
    · have hl0 : (l : ℝ) ≤ 0 := by nlinarith
      rw [abs_of_neg hq, abs_of_nonpos (by linarith)] at k1 l2
      linarith
    · rcases hq.eq_or_lt with rfl | hq
      · simp at k1 l1
        omega
      · have hk0 : (0 : ℝ) ≤ k := by nlinarith
        rw [abs_of_pos hq, abs_of_nonneg (by linarith)] at l1 k2
        linarith
  | rup => linarith [hk.1, hl.2]
  | rdn => linarith [hk.2, hl.1]

theorem RoundsTo.self (mode : Rounding) (k : ℤ) : RoundsTo mode k k := by
  cases mode <;> simp [RoundsTo, mul_self_nonneg]

/-- Rounding looks only at how a number lies to the halves of integers. -/
theorem RoundsTo.congr {mode : Rounding} {p q : ℝ} {k : ℤ} (hlt : ∀ n : ℤ, p < n / 2 ↔ q < n / 2)
    (hgt : ∀ n : ℤ, (n : ℝ) / 2 < p ↔ (n : ℝ) / 2 < q) (h : RoundsTo mode p k) : RoundsTo mode q k := by
  have up (n : ℤ) : (n : ℝ) / 2 ≤ p ↔ (n : ℝ) / 2 ≤ q := by simpa using not_congr (hlt n)
  have down (n : ℤ) : p ≤ (n : ℝ) / 2 ↔ q ≤ (n : ℝ) / 2 := by simpa using not_congr (hgt n)
  have half (n : ℤ) : ((2 * n : ℤ) : ℝ) / 2 = n := by push_cast; ring
  have e1 : ((2 * k + 1 : ℤ) : ℝ) / 2 = k + 1 / 2 := by push_cast; ring
  have e2 : ((2 * k - 1 : ℤ) : ℝ) / 2 = k - 1 / 2 := by push_cast; ring
  have e3 : ((2 * k + 2 : ℤ) : ℝ) / 2 = k + 1 := by push_cast; ring
  have e4 : ((2 * k - 2 : ℤ) : ℝ) / 2 = k - 1 := by push_cast; ring
  cases mode with
  | rne =>
    obtain ⟨h1, h2⟩ := h
    obtain ⟨hl, hu⟩ := abs_le.mp h1
    have hu' := e1 ▸ (down (2 * k + 1)).mp (by rw [e1]; linarith)
    have hl' := e2 ▸ (up (2 * k - 1)).mp (by rw [e2]; linarith)
    refine ⟨abs_le.mpr ⟨by linarith, by linarith⟩, fun hh => h2 ?_⟩
    rcases (abs_eq (by norm_num)).mp hh with hh | hh
    · have := e1 ▸ (up (2 * k + 1)).mpr (by rw [e1]; linarith)
      rw [abs_of_nonneg] <;> linarith
    · have := e2 ▸ (down (2 * k - 1)).mpr (by rw [e2]; linarith)
      rw [abs_of_nonpos] <;> linarith
  | rtz =>
    obtain ⟨h1, h2, h3⟩ := h
    rcases le_or_gt 0 p with hp | hp
    · have hq : 0 ≤ q := by simpa using (up 0).mp (by simpa using hp)
      have hk : (0 : ℝ) ≤ k := by
        rcases hp.eq_or_lt with rfl | hp
        · simp at h1; simp [h1]
        · exact nonneg_of_mul_nonneg_left h3 hp
      rw [abs_of_nonneg hp, abs_of_nonneg hk] at h1 h2
      have a := half k ▸ (up (2 * k)).mp (by rw [half]; exact h1)
      have b := e3 ▸ (hlt (2 * k + 2)).mp (by rw [e3]; exact h2)
      exact ⟨by rwa [abs_of_nonneg hq, abs_of_nonneg hk], by rwa [abs_of_nonneg hq, abs_of_nonneg hk], by positivity⟩
    · have hq : q < 0 := by simpa using (hlt 0).mp (by simpa using hp)
      have hk : (k : ℝ) ≤ 0 := by nlinarith
      rw [abs_of_neg hp, abs_of_nonpos hk] at h1 h2
      have a := half k ▸ (down (2 * k)).mp (by rw [half]; linarith)
      have b := e4 ▸ (hgt (2 * k - 2)).mp (by rw [e4]; linarith)
      refine ⟨by rw [abs_of_neg hq, abs_of_nonpos hk]; linarith, by rw [abs_of_neg hq, abs_of_nonpos hk]; linarith,
        mul_nonneg_of_nonpos_of_nonpos hk hq.le⟩
  | rup =>
    obtain ⟨h1, h2⟩ := h
    have a := half k ▸ (down (2 * k)).mp (by rw [half]; exact h1)
    have b := e4 ▸ (hgt (2 * k - 2)).mp (by rw [e4]; linarith)
    exact ⟨a, by linarith⟩
  | rdn =>
    obtain ⟨h1, h2⟩ := h
    have a := half k ▸ (up (2 * k)).mp (by rw [half]; exact h1)
    have b := e3 ▸ (hlt (2 * k + 2)).mp (by rw [e3]; exact h2)
    exact ⟨a, b⟩

/-! The model's rounding. -/

/-- The number a sign, a quotient and a power of two stand for. -/
def realOf (neg : Bool) (num den : ℕ) (exp : ℤ) : ℚ := (if neg then -1 else 1) * ((num : ℚ) / den) * 2 ^ exp

theorem scaled_spec {num den : ℕ} {exp q : ℤ} {a r m : ℕ} (hden : den ≠ 0) (h : scaled num den exp q = (a, r, m)) :
    r < m ∧ (num : ℚ) / den * 2 ^ exp = (a + r / m) * 2 ^ q := by
  -- the number is n / m × 2^q, and the quotient and the remainder are those of n by m
  obtain ⟨n, hm, ha, hr, hnm⟩ : ∃ n, 0 < m ∧ a = n / m ∧ r = n % m ∧ (num : ℚ) / den * 2 ^ exp = n / m * 2 ^ q := by
    simp only [scaled, Prod.mk.injEq] at h
    obtain ⟨ha, hr, hm⟩ := h
    by_cases hd : 0 ≤ exp - q
    · simp only [if_pos hd] at ha hr hm
      subst hm
      refine ⟨num * 2 ^ (exp - q).toNat, by omega, ha.symm, hr.symm, ?_⟩
      have : (2 : ℚ) ^ exp = 2 ^ (exp - q).toNat * 2 ^ q := by
        rw [← zpow_natCast, ← zpow_add₀ two_ne_zero]; congr 1; omega
      rw [this]; push_cast; ring
    · simp only [if_neg hd] at ha hr hm
      subst hm
      refine ⟨num, by positivity, ha.symm, hr.symm, ?_⟩
      have : (2 : ℚ) ^ q = 2 ^ (-(exp - q)).toNat * 2 ^ exp := by
        rw [← zpow_natCast, ← zpow_add₀ two_ne_zero]; congr 1; omega
      rw [this]; push_cast
      have : (den : ℚ) ≠ 0 := by exact_mod_cast hden
      field_simp
  refine ⟨hr ▸ Nat.mod_lt _ hm, ?_⟩
  have hm' : (m : ℚ) ≠ 0 := by positivity
  have : (n : ℚ) = m * a + r := by rw [ha, hr]; exact_mod_cast (Nat.div_add_mod n m).symm
  rw [hnm, this]
  field_simp

/-- A magnitude of an integer part and a remainder, with a sign, rounds to what the model takes. -/
theorem roundsTo_roundInt (mode : Rounding) (neg : Bool) (a : ℕ) {r m : ℕ} (h : r < m) :
    RoundsTo mode ((if neg then -1 else 1) * (a + r / m)) ((if neg then -1 else 1) * (roundInt mode neg a r m : ℕ)) := by
  have hm : (0 : ℝ) < m := by exact_mod_cast (by omega : 0 < m)
  have ht0 : (0 : ℝ) ≤ r / m := by positivity
  have ht1 : (r : ℝ) / m < 1 := by rw [div_lt_one hm]; exact_mod_cast h
  have ha : (0 : ℝ) ≤ a := by positivity
  rcases Nat.eq_zero_or_pos r with rfl | hr
  · have : roundInt mode neg a 0 m = a := by simp [roundInt]
    rw [this]
    simpa using RoundsTo.self mode ((if neg then -1 else 1) * (a : ℤ))
  have ht : (0 : ℝ) < r / m := by positivity
  have hr0 : r ≠ 0 := by omega
  cases mode with
  | rne =>
    -- the sign plays no part: the distance to the rounded integer is that of the magnitudes
    have key : |(a + r / m : ℝ) - (roundInt .rne neg a r m : ℕ)| ≤ 1 / 2
        ∧ (|(a + r / m : ℝ) - (roundInt .rne neg a r m : ℕ)| = 1 / 2 → roundInt .rne neg a r m % 2 = 0) := by
      rcases lt_trichotomy (2 * r) m with hlt | heq | hgt
      · have : (r : ℝ) / m < 1 / 2 := by rw [div_lt_div_iff₀ hm two_pos]; exact_mod_cast (by omega : r * 2 < 1 * m)
        simp only [roundInt, hr0, if_false, hlt, if_true, add_sub_cancel_left, abs_of_pos ht]
        exact ⟨this.le, fun h => absurd h this.ne⟩
      · have : (r : ℝ) / m = 1 / 2 := by rw [div_eq_div_iff hm.ne' two_ne_zero]; exact_mod_cast (by omega : r * 2 = 1 * m)
        rw [this]
        simp only [roundInt, hr0, if_false, heq, lt_irrefl]
        rcases Nat.mod_two_eq_zero_or_one a with h2 | h2 <;> rw [h2] <;> push_cast
        · simp [h2]
        · refine ⟨by ring_nf; norm_num, fun _ => by omega⟩
      · have : 1 / 2 < (r : ℝ) / m := by rw [div_lt_div_iff₀ two_pos hm]; exact_mod_cast (by omega : 1 * m < r * 2)
        have e : (a + r / m : ℝ) - ((a + 1 : ℕ) : ℝ) = -(1 - r / m) := by push_cast; ring
        simp only [roundInt, hr0, if_false, show ¬2 * r < m by omega, gt_iff_lt, hgt, if_true]
        rw [e, abs_neg, abs_of_pos (by linarith)]
        exact ⟨by linarith, fun h => by linarith⟩
    obtain ⟨k1, k2⟩ := key
    cases neg with
    | false => exact ⟨by simpa using k1, fun h => by have := k2 (by simpa using h); simp; omega⟩
    | true =>
      have e (y : ℕ) : (-1 : ℝ) * (a + r / m) - ((-1 * (y : ℤ) : ℤ) : ℝ) = -((a + r / m : ℝ) - y) := by push_cast; ring
      simp only [if_true, RoundsTo, e, abs_neg]
      exact ⟨k1, fun h => by have := k2 h; omega⟩
  | rtz =>
    have : roundInt .rtz neg a r m = a := by simp [roundInt]
    rw [this]
    cases neg with
    | false =>
      simp only [Bool.false_eq_true, if_false, one_mul, RoundsTo, Int.cast_natCast]
      rw [abs_of_nonneg ha, abs_of_nonneg (by linarith)]
      exact ⟨by linarith, by linarith, by positivity⟩
    | true =>
      simp only [if_true, neg_one_mul, RoundsTo, Int.cast_neg, Int.cast_natCast, abs_neg]
      rw [abs_of_nonneg ha, abs_of_nonneg (by linarith)]
      exact ⟨by linarith, by linarith, by rw [neg_mul_neg]; positivity⟩
  | rup =>
    cases neg <;> simp only [roundInt, hr0, RoundsTo] <;> push_cast <;> constructor <;> simp <;> linarith
  | rdn =>
    cases neg <;> simp only [roundInt, hr0, RoundsTo] <;> push_cast <;> constructor <;> simp <;> linarith

theorem roundInt_eq_iff (mode : Rounding) (neg : Bool) (a : ℕ) {r m : ℕ} (h : r < m) :
    ((roundInt mode neg a r m : ℕ) : ℚ) = a + r / m ↔ r = 0 := by
  constructor
  · intro heq
    -- a remainder is a part of one that no integer makes up for
    have hm : (0 : ℚ) < m := by exact_mod_cast (by omega : 0 < m)
    have e : ((r : ℤ) : ℚ) = (((roundInt mode neg a r m : ℕ) - (a : ℤ)) * m : ℤ) := by
      push_cast
      rw [heq]
      field_simp
      ring
    have hdvd : (m : ℤ) ∣ r := Dvd.intro_left _ (by exact_mod_cast e.symm)
    exact Nat.eq_zero_of_dvd_of_lt (by exact_mod_cast hdvd) h
  · rintro rfl
    simp [roundInt]

/-- A number over a power of two rounds to what the model takes, which is the number where nothing is left over. -/
theorem round_scaled (mode : Rounding) (neg : Bool) {num den : ℕ} {exp q : ℤ} {a r m : ℕ} (hden : den ≠ 0)
    (h : scaled num den exp q = (a, r, m)) :
    RoundsTo mode ((realOf neg num den exp / 2 ^ q : ℚ) : ℝ) ((if neg then -1 else 1) * (roundInt mode neg a r m : ℕ))
      ∧ (r = 0 ↔ (((if neg then -1 else 1) * (roundInt mode neg a r m : ℕ) : ℤ) : ℚ) = realOf neg num den exp / 2 ^ q) := by
  obtain ⟨hrm, hval⟩ := scaled_spec hden h
  have e : realOf neg num den exp / 2 ^ q = (if neg then -1 else 1) * (a + r / m) := by
    rw [realOf, mul_assoc, hval, ← mul_assoc, mul_div_cancel_right₀ _ (by positivity)]
  rw [e, ← roundInt_eq_iff mode neg a hrm]
  constructor
  · have := roundsTo_roundInt mode neg a hrm
    cases neg <;> push_cast <;> simpa using this
  · have e' (n : ℕ) : (((if neg then -1 else 1) * n : ℤ) : ℚ) = (if neg then -1 else 1) * n := by cases neg <;> simp
    rw [e', mul_right_inj' (by cases neg <;> norm_num)]

end Sys2Proof.Machine

/-! SUPPORT. What the model's rounding to a format delivers: the exact number rounded once (R51, R52). -/

namespace Sys2Proof.Machine

open Sys2Proof

/-! The leading bit. -/

theorem leadExp_spec {num den : ℕ} (exp : ℤ) (hn : num ≠ 0) (hd : den ≠ 0) :
    (2 : ℚ) ^ leadExp num den exp ≤ num / den * 2 ^ exp ∧ (num : ℚ) / den * 2 ^ exp < 2 ^ (leadExp num den exp + 1) := by
  -- the quotient lies within a factor of two of the power that the lengths give, and the comparison says on which side
  have hd0 : (0 : ℚ) < den := by exact_mod_cast Nat.pos_of_ne_zero hd
  have hn0 : (0 : ℚ) < num := by exact_mod_cast Nat.pos_of_ne_zero hn
  have n1 : (2 : ℚ) ^ (Nat.log2 num : ℤ) ≤ num := by exact_mod_cast Nat.log2_self_le hn
  have n2 : (num : ℚ) < 2 ^ ((Nat.log2 num : ℤ) + 1) := by exact_mod_cast Nat.lt_log2_self (n := num)
  have d1 : (2 : ℚ) ^ (Nat.log2 den : ℤ) ≤ den := by exact_mod_cast Nat.log2_self_le hd
  have d2 : (den : ℚ) < 2 ^ ((Nat.log2 den : ℤ) + 1) := by exact_mod_cast Nat.lt_log2_self (n := den)
  set k : ℤ := (Nat.log2 num : ℤ) - Nat.log2 den with hk
  have upper : (num : ℚ) < den * 2 ^ (k + 1) := by
    have : (2 : ℚ) ^ ((Nat.log2 num : ℤ) + 1) = 2 ^ (Nat.log2 den : ℤ) * 2 ^ (k + 1) := by
      rw [← zpow_add₀ two_ne_zero]; congr 1; omega
    rw [this] at n2
    exact n2.trans_le (mul_le_mul_of_nonneg_right d1 (by positivity))
  have lower : (den : ℚ) * 2 ^ (k - 1) ≤ num := by
    have : (2 : ℚ) ^ (Nat.log2 num : ℤ) = 2 ^ ((Nat.log2 den : ℤ) + 1) * 2 ^ (k - 1) := by
      rw [← zpow_add₀ two_ne_zero]; congr 1; omega
    rw [this] at n1
    exact (mul_le_mul_of_nonneg_right d2.le (by positivity)).trans n1
  have side : leadExp num den exp = (if (num : ℚ) < den * 2 ^ k then k - 1 else k) + exp := by
    rw [leadExp, ← hk]
    by_cases h0 : 0 ≤ k
    · have e : ((den * 2 ^ k.toNat : ℕ) : ℚ) = den * 2 ^ k := by
        push_cast; rw [← zpow_natCast, Int.toNat_of_nonneg h0]
      simp only [if_pos h0, ← e, Nat.cast_lt]
    · have e : ((num * 2 ^ (-k).toNat : ℕ) : ℚ) = num / 2 ^ k := by
        push_cast; rw [← zpow_natCast, Int.toNat_of_nonneg (by omega), zpow_neg]; rfl
      have : (num * 2 ^ (-k).toNat < den) ↔ (num : ℚ) < den * 2 ^ k := by
        rw [← Nat.cast_lt (α := ℚ), e, div_lt_iff₀ (by positivity)]
      simp only [if_neg h0, this]
  rw [side, zpow_add₀ two_ne_zero, add_right_comm, zpow_add₀ two_ne_zero]
  have he : (0 : ℚ) < 2 ^ exp := by positivity
  refine ⟨mul_le_mul_of_nonneg_right ?_ he.le, mul_lt_mul_of_pos_right ?_ he⟩
  · rw [le_div_iff₀ hd0, mul_comm]
    split
    · exact lower
    · exact not_lt.mp ‹_›
  · rw [div_lt_iff₀ hd0, mul_comm]
    split
    · simpa using ‹_›
    · exact upper

/-! The rounded magnitude as a pattern. -/

/-- What overflow delivers: an infinity, or the largest finite magnitude where the mode rounds toward zero (R51). -/
def overflowPattern (f : Format) (mode : Rounding) (neg : Bool) : ℕ :=
  match mode with
  | .rne => infPattern f neg
  | .rtz => infPattern f neg - 1
  | .rup => if neg then infPattern f neg - 1 else infPattern f neg
  | .rdn => if neg then infPattern f neg else infPattern f neg - 1

/-- The answer that the significand `a`, rounded in the binade `j` above the least, gives in a format: `isExact` says that nothing
was rounded away (R51, R52). -/
def packRounded (f : Format) (env : Env) (neg : Bool) (j a : ℕ) (isExact : Bool) : ℕ × ℕ :=
  let pat := j * 2 ^ (ieeeBits f).2 + a
  if infPattern f false ≤ pat then (overflowPattern f env.mode neg, 5)
  else if pat < 2 ^ (ieeeBits f).2 then
    if env.fz = true ∧ a ≠ 0 then (zeroPattern f neg, 3)
    else (zeroPattern f neg + pat, if isExact then 0 else 3)
  else (zeroPattern f neg + pat, if isExact then 0 else 1)

theorem roundReal_zero {f : Format} (hf : f.isFloat = true) (env : Env) (neg : Bool) (den : ℕ) (exp : ℤ) :
    roundReal f env neg 0 den exp = (zeroPattern f neg, 0) := by
  simp [roundReal, zeroPattern_eq, magBits, width_of_isFloat hf]

theorem roundReal_eq_packRounded {f : Format} (hf : f.isFloat = true) (env : Env) (neg : Bool) {num den : ℕ} {exp : ℤ}
    (hn : num ≠ 0) {j a r m : ℕ} (hj : (j : ℤ) = max (leadExp num den exp) (leastExp f) - leastExp f)
    (hs : scaled num den exp (j + leastExp f - (ieeeBits f).2) = (a, r, m)) :
    roundReal f env neg num den exp = packRounded f env neg j (roundInt env.mode neg a r m) (decide (r = 0)) := by
  have hq : max (leadExp num den exp) (1 - (Format.bias f : ℤ)) - ((ieeeBits f).2 : ℕ)
      = j + leastExp f - (ieeeBits f).2 := by rw [bias_eq]; ring_nf; omega
  have hpat : ∀ k : ℕ, (((j : ℤ) + leastExp f - (ieeeBits f).2 + (ieeeBits f).2 + Format.bias f - 1)
      * 2 ^ (ieeeBits f).2).toNat + k
      = j * 2 ^ (ieeeBits f).2 + k := by
    intro k
    have : ((j : ℤ) + leastExp f - (ieeeBits f).2 + (ieeeBits f).2 + Format.bias f - 1) * 2 ^ (ieeeBits f).2
        = ((j * 2 ^ (ieeeBits f).2 : ℕ) : ℤ) := by rw [bias_eq]; push_cast; ring
    rw [this, Int.toNat_natCast]
  have htop : neg.toNat * 2 ^ (f.width - 1) = zeroPattern f neg := by
    rw [zeroPattern_eq, magBits, width_of_isFloat hf, Nat.add_sub_cancel]
  have hinf : (2 ^ (ieeeBits f).1 - 1) * 2 ^ (ieeeBits f).2 = infPattern f false := by simp [infPattern, zeroPattern]
  have hsub : zeroPattern f neg + (infPattern f false - 1) = infPattern f neg - 1 := by
    have : 0 < infPattern f false := by cases f <;> decide
    rw [infPattern_eq f neg]; omega
  rw [roundReal, if_neg hn]
  simp only [fracBits_eq, expBits_eq, hq, hs, hpat, htop, hinf]
  set b := roundInt env.mode neg a r m
  rw [packRounded]
  by_cases hover : infPattern f false ≤ j * 2 ^ (ieeeBits f).2 + b
  · rw [if_pos hover, if_pos hover]
    cases hmode : env.mode <;> cases neg <;>
      simp_all [overflowPattern, orFlags, flagOF, flagNX, infPattern_eq f true]
  rw [if_neg hover, if_neg hover]
  by_cases htiny : j * 2 ^ (ieeeBits f).2 + b < 2 ^ (ieeeBits f).2
  · have hj0 : j = 0 := by
      by_contra h
      have := Nat.le_mul_of_pos_left (2 ^ (ieeeBits f).2) (Nat.pos_of_ne_zero h)
      omega
    subst hj0
    rw [if_pos htiny, if_pos htiny]
    by_cases hr : r = 0 <;> simp [hr, orFlags, flagUF, flagNX]
  · rw [if_neg htiny, if_neg htiny]
    simp [flagNX]

theorem cast_two_zpow (e : ℤ) : ((2 ^ e : ℚ) : ℝ) = 2 ^ e := by push_cast; rfl

/-- A nonzero number lies in one binade. -/
theorem binade_unique {K : Type*} [Field K] [LinearOrder K] [IsStrictOrderedRing K] {r : K} {E E' : ℤ} (h1 : (2 : K) ^ E ≤ r)
    (h2 : r < 2 ^ (E + 1)) (h1' : (2 : K) ^ E' ≤ r) (h2' : r < 2 ^ (E' + 1)) : E = E' := by
  have a := (zpow_lt_zpow_iff_right₀ one_lt_two).mp (h1.trans_lt h2')
  have b := (zpow_lt_zpow_iff_right₀ one_lt_two).mp (h1'.trans_lt h2)
  omega

/-- The significand of a number rounded in its binade: at most the next power of two, and above the least binade a full one. -/
theorem significand_bounds {f : Format} {mode : Rounding} {r : ℝ} {neg : Bool} {j a : ℕ} {E : ℤ} (hneg : neg = decide (r < 0))
    (hE : (2 : ℝ) ^ E ≤ |r|) (hE' : |r| < 2 ^ (E + 1)) (hj : (j : ℤ) = max E (leastExp f) - leastExp f)
    (ha : RoundsTo mode (r / 2 ^ (j + leastExp f - (ieeeBits f).2)) ((if neg then -1 else 1) * (a : ℤ))) :
    a ≤ 2 ^ ((ieeeBits f).2 + 1) ∧ (j = 0 ∨ 2 ^ (ieeeBits f).2 ≤ a) := by
  set fb := (ieeeBits f).2
  set u : ℝ := 2 ^ (j + leastExp f - fb) with hu
  have hu0 : 0 < u := by positivity
  obtain ⟨mode', hm⟩ : ∃ mode', RoundsTo mode' (|r| / u) (a : ℤ) := by
    subst hneg
    by_cases h : r < 0
    · simp only [h, decide_true, if_true] at ha
      exact ⟨_, by simpa [abs_of_neg h, neg_div] using ha.neg⟩
    · simp only [h, decide_false, Bool.false_eq_true, if_false, one_mul] at ha
      exact ⟨_, by rwa [abs_of_nonneg (not_lt.mp h)]⟩
  constructor
  · have hle : |r| / u ≤ ((2 ^ (fb + 1) : ℕ) : ℤ) := by
      rw [div_le_iff₀ hu0]
      push_cast
      rw [hu, ← zpow_natCast, ← zpow_add₀ two_ne_zero]
      refine hE'.le.trans (zpow_le_zpow_right₀ one_le_two ?_)
      push_cast
      omega
    exact_mod_cast hm.le_of_le hle
  · rcases Nat.eq_zero_or_pos j with h0 | hpos
    · exact .inl h0
    · have hge : ((2 ^ fb : ℕ) : ℤ) ≤ |r| / u := by
        rw [le_div_iff₀ hu0]
        push_cast
        rw [hu, ← zpow_natCast, ← zpow_add₀ two_ne_zero]
        refine le_trans (zpow_le_zpow_right₀ one_le_two ?_) hE
        omega
      exact .inr (by exact_mod_cast hm.ge_of_ge hge)

/-- The heart of rounding: what the significand delivers when it is the exact number rounded in its binade. -/
theorem deliversRounded_packRounded {f : Format} {env : Env} {r : ℝ} {neg : Bool} {j a : ℕ} {isExact : Bool} {E : ℤ}
    (hneg : neg = decide (r < 0)) (hE : (2 : ℝ) ^ E ≤ |r|) (hE' : |r| < 2 ^ (E + 1))
    (hj : (j : ℤ) = max E (leastExp f) - leastExp f)
    (ha : RoundsTo env.mode (r / 2 ^ (j + leastExp f - (ieeeBits f).2)) ((if neg then -1 else 1) * (a : ℤ)))
    (hex : isExact = true ↔ (if neg then -1 else 1) * a * (2 : ℝ) ^ (j + leastExp f - (ieeeBits f).2) = r) :
    DeliversRounded f env r (packRounded f env neg j a isExact) := by
  obtain ⟨hle, hlow⟩ := significand_bounds hneg hE hE' hj ha
  -- the pattern stands for the rounded magnitude, so its place among the patterns says how large that is
  have hval := magnitudeValue_significand f hle hlow
  set pat := j * 2 ^ (ieeeBits f).2 + a with hpat
  set u : ℝ := 2 ^ (j + leastExp f - (ieeeBits f).2) with hu
  have hmag : ((magnitudeValue f pat : ℚ) : ℝ) = a * u := by rw [hval, hu]; push_cast; rfl
  have hover : (2 : ℝ) ^ ((2 : ℤ) ^ ((ieeeBits f).1 - 1)) ≤ a * u ↔ infPattern f false ≤ pat := by
    rw [← (magnitudeValue_strictMono f).le_iff_le, magnitudeValue_infPattern, ← hmag, ← cast_two_zpow, Rat.cast_le]
  have htiny : a * u < (2 : ℝ) ^ leastExp f ↔ pat < 2 ^ (ieeeBits f).2 := by
    rw [← (magnitudeValue_strictMono f).lt_iff_lt, magnitudeValue_leastNormal, ← hmag, ← cast_two_zpow, Rat.cast_lt]
  intro E' h1 h2 u' k hk
  obtain rfl : E = E' := binade_unique hE hE' h1 h2
  have huu : u' = u := by
    rw [hu, hj, sub_add_cancel]
    rfl
  obtain rfl : k = (if neg then -1 else 1) * (a : ℤ) := RoundsTo.unique hk (huu ▸ ha)
  have habs : |(((if neg then -1 else 1) * (a : ℤ) : ℤ) : ℝ) * u'| = a * u := by
    rw [huu, abs_mul, abs_of_pos (show 0 < u by positivity)]
    cases neg <;> simp
  have hex' : isExact = true ↔ (((if neg then -1 else 1) * (a : ℤ) : ℤ) : ℝ) * u' = r := by
    rw [huu, hex]; push_cast; rfl
  have hk0 : ((if neg then -1 else 1) * (a : ℤ)) ≠ 0 ↔ a ≠ 0 := by cases neg <;> simp
  rw [habs, ← hneg, show (2 - 2 ^ ((ieeeBits f).1 - 1) : ℤ) = leastExp f from rfl, packRounded, ← hpat]
  simp only [hover, htiny, ← hex', hk0]
  by_cases ho : infPattern f false ≤ pat
  · simp only [if_pos ho]
    rfl
  have hfin := isFinite_zeroPattern_add (f := f) neg (not_le.mp ho)
  have hlt : pat < 2 ^ magBits f := (not_le.mp ho).trans (infPattern_lt f)
  have hnum : ((finiteValue f (zeroPattern f neg + pat) : ℚ) : ℝ) = (((if neg then -1 else 1) * (a : ℤ) : ℤ) : ℝ) * u' := by
    rw [finiteValue_eq, minusSign_zeroPattern_add f neg hlt, zeroPattern_add_mod f neg hlt, huu]
    cases neg <;> push_cast <;> rw [hmag] <;> simp
  have hsign := minusSign_zeroPattern_add f neg hlt
  simp only [if_neg ho]
  by_cases ht : pat < 2 ^ (ieeeBits f).2
  · by_cases hz : env.fz = true ∧ a ≠ 0
    · simp [ht, hz]
    · have hz' : ¬(env.fz = true ∧ pat < 2 ^ (ieeeBits f).2 ∧ a ≠ 0) := fun h => hz ⟨h.1, h.2.2⟩
      simp only [if_neg hz', if_pos ht, if_neg hz]
      exact ⟨hfin, hnum, hsign, trivial⟩
  · simp only [ht, false_and, and_false, if_false]
    exact ⟨hfin, hnum, hsign, trivial⟩

/-! The number a rounded quotient delivers. -/

theorem realOf_zero (neg : Bool) (den : ℕ) (exp : ℤ) : realOf neg 0 den exp = 0 := by simp [realOf]

theorem abs_realOf (neg : Bool) (num den : ℕ) (exp : ℤ) : |realOf neg num den exp| = num / den * 2 ^ exp := by
  have : (0 : ℚ) ≤ num / den * 2 ^ exp := by positivity
  cases neg <;> simp [realOf, abs_mul, abs_div, abs_zpow]

theorem realOf_ne_zero {neg : Bool} {num den : ℕ} {exp : ℤ} (hn : num ≠ 0) (hd : den ≠ 0) : realOf neg num den exp ≠ 0 := by
  rw [← abs_pos, abs_realOf]
  positivity

theorem realOf_neg_iff {neg : Bool} {num den : ℕ} {exp : ℤ} (hn : num ≠ 0) (hd : den ≠ 0) :
    realOf neg num den exp < 0 ↔ neg = true := by
  have : (0 : ℚ) < num / den * 2 ^ exp := by positivity
  cases neg <;> simp [realOf] <;> linarith

/-- A quotient rounded to a format is packed from its significand in its binade. -/
theorem exists_packRounded {f : Format} (hf : f.isFloat = true) (env : Env) (neg : Bool) {num den : ℕ} (exp : ℤ)
    (hn : num ≠ 0) (hd : den ≠ 0) : ∃ (j a : ℕ) (isExact : Bool),
      roundReal f env neg num den exp = packRounded f env neg j a isExact
        ∧ (j : ℤ) = max (leadExp num den exp) (leastExp f) - leastExp f
        ∧ RoundsTo env.mode ((realOf neg num den exp : ℚ) / 2 ^ (j + leastExp f - (ieeeBits f).2))
            ((if neg then -1 else 1) * (a : ℤ))
        ∧ (isExact = true ↔ (if neg then -1 else 1) * a * (2 : ℝ) ^ (j + leastExp f - (ieeeBits f).2)
            = (realOf neg num den exp : ℚ)) := by
  obtain ⟨j, hj⟩ := Int.eq_ofNat_of_zero_le (a := max (leadExp num den exp) (leastExp f) - leastExp f) (by omega)
  rcases hs : scaled num den exp (j + leastExp f - (ieeeBits f).2) with ⟨a, r, m⟩
  obtain ⟨hround, hexact⟩ := round_scaled env.mode neg hd hs
  refine ⟨j, _, _, roundReal_eq_packRounded hf env neg hn hj.symm hs, hj.symm, ?_, ?_⟩
  · rwa [Rat.cast_div, cast_two_zpow] at hround
  · rw [decide_eq_true_iff, hexact, eq_div_iff (by positivity), ← cast_two_zpow, ← Rat.cast_inj (α := ℝ)]
    cases neg <;> push_cast <;> simp

/-- A quotient rounded to a format is the exact number rounded once, and a zero keeps its sign. -/
theorem deliversNumber_roundReal {f : Format} (hf : f.isFloat = true) (env : Env) (neg : Bool) (num : ℕ) {den : ℕ} (exp : ℤ)
    (hd : den ≠ 0) : DeliversNumber f env (realOf neg num den exp) neg (roundReal f env neg num den exp) := by
  rcases eq_or_ne num 0 with rfl | hn
  · rw [DeliversNumber, if_pos (realOf_zero neg den exp), roundReal_zero hf]
  obtain ⟨j, a, isExact, heq, hj, hround, hexact⟩ := exists_packRounded hf env neg exp hn hd
  obtain ⟨h1, h2⟩ := leadExp_spec exp hn hd
  rw [DeliversNumber, if_neg (realOf_ne_zero hn hd), heq]
  refine deliversRounded_packRounded (E := leadExp num den exp) ?_ ?_ ?_ hj hround hexact
  · rw [Bool.eq_iff_iff, decide_eq_true_iff, ← realOf_neg_iff (exp := exp) hn hd, Rat.cast_lt_zero]
  · rwa [← abs_realOf neg, ← Rat.cast_le (K := ℝ), cast_two_zpow, Rat.cast_abs] at h1
  · rwa [← abs_realOf neg, ← Rat.cast_lt (K := ℝ), cast_two_zpow, Rat.cast_abs] at h2

/-- A number that a quotient stands in for, because both lie alike to every multiple of a power of two below the half units, is
rounded with it. -/
theorem deliversRounded_of_alike {f : Format} (hf : f.isFloat = true) (env : Env) {num den : ℕ} {exp h : ℤ} {r : ℝ} (hn : num ≠ 0)
    (hd : den ≠ 0) (hh : h < leadExp num den exp - (ieeeBits f).2)
    (hlt : ∀ n : ℤ, (realOf false num den exp : ℚ) < n * (2 : ℝ) ^ h ↔ r < n * 2 ^ h)
    (hgt : ∀ n : ℤ, n * (2 : ℝ) ^ h < (realOf false num den exp : ℚ) ↔ n * 2 ^ h < r) :
    DeliversRounded f env r (roundReal f env false num den exp) := by
  obtain ⟨j, a, isExact, heq, hj, hround, hexact⟩ := exists_packRounded hf env false exp hn hd
  obtain ⟨h1, h2⟩ := leadExp_spec exp hn hd
  set p : ℝ := ((realOf false num den exp : ℚ) : ℝ) with hp
  have habs : ((num : ℚ) / den * 2 ^ exp : ℚ) = p := by rw [hp, realOf]; simp
  rw [← Rat.cast_le (K := ℝ), cast_two_zpow, habs] at h1
  rw [← Rat.cast_lt (K := ℝ), cast_two_zpow, habs] at h2
  -- a power of two that is no finer than the grid, times an integer, is on the grid
  have grid {i : ℤ} (hi : h ≤ i) (n : ℤ) : (n : ℝ) * 2 ^ i = ((n * 2 ^ (i - h).toNat : ℤ) : ℝ) * 2 ^ h := by
    push_cast
    rw [mul_assoc, ← zpow_natCast (2 : ℝ) (i - h).toNat, ← zpow_add₀ two_ne_zero, Int.toNat_of_nonneg (by omega), sub_add_cancel]
  have lt {i : ℤ} (hi : h ≤ i) (n : ℤ) : p < n * 2 ^ i ↔ r < n * 2 ^ i := by rw [grid hi]; exact hlt _
  have gt {i : ℤ} (hi : h ≤ i) (n : ℤ) : n * 2 ^ i < p ↔ n * 2 ^ i < r := by rw [grid hi]; exact hgt _
  have hr : 0 < r := by
    have := gt le_rfl 0
    rw [Int.cast_zero, zero_mul] at this
    exact this.mp ((by positivity : (0 : ℝ) < 2 ^ leadExp num den exp).trans_le h1)
  set E := leadExp num den exp with hE
  set d : ℤ := j + leastExp f - (ieeeBits f).2 with hd'
  have hdu : (2 : ℝ) ^ d = 2 * 2 ^ (d - 1) := by rw [← zpow_one_add₀ two_ne_zero]; congr 1; ring
  have hu0 : (0 : ℝ) < 2 ^ (d - 1) := by positivity
  have hle : h ≤ d - 1 := by omega
  have half (q : ℝ) (n : ℤ) : (q / 2 ^ d < n / 2 ↔ q < n * 2 ^ (d - 1)) ∧ ((n : ℝ) / 2 < q / 2 ^ d ↔ n * 2 ^ (d - 1) < q) := by
    rw [div_lt_iff₀ (by positivity), lt_div_iff₀ (by positivity), hdu]
    constructor <;> ring_nf
  rw [heq]
  refine deliversRounded_packRounded (E := E) (by simp [hr.le]) ?_ ?_ hj
    (hround.congr (fun n => by rw [(half _ n).1, (half _ n).1, lt hle]) (fun n => by rw [(half _ n).2, (half _ n).2, gt hle])) ?_
  · rw [abs_of_pos hr]
    simpa using not_congr (lt (i := E) (by omega) 1) |>.mp (by simpa using h1)
  · rw [abs_of_pos hr]
    simpa using (lt (i := E + 1) (by omega) 1).mp (by simpa using h2)
  · have hl := lt (i := d) (by omega) a
    have hg := gt (i := d) (by omega) a
    rw [hexact]
    simp only [Bool.false_eq_true, if_false, one_mul, Int.cast_natCast] at hl hg ⊢
    have eq_iff (q : ℝ) : a * 2 ^ d = q ↔ ¬q < a * 2 ^ d ∧ ¬a * 2 ^ d < q :=
      ⟨fun h => by simp [h], fun h => le_antisymm (not_lt.mp h.1) (not_lt.mp h.2)⟩
    rw [eq_iff, eq_iff, hl, hg]

end Sys2Proof.Machine

/-! SUPPORT. What a pattern decodes to, by its kind, and that a representable number is delivered as it is (R40, R51, R52). -/

namespace Sys2Proof.Machine

open Sys2Proof

/-! Decoding. -/

theorem signBit_eq {f : Format} (hf : f.isFloat = true) (x : ℕ) : signBit f x = minusSign f x := by
  rw [signBit, minusSign_eq, width_of_isFloat hf, Nat.add_sub_cancel, magBits]

theorem decodeFloat_eq {f : Format} (hf : f.isFloat = true) (fz : Bool) (x : ℕ) : decodeFloat f fz x =
    if x = absentPattern f then .absent
    else if expField f x = 2 ^ (ieeeBits f).1 - 1 then
      if fracField f x = 0 then .inf (minusSign f x)
      else .nan (minusSign f x) (fracField f x) (!(fracField f x).testBit ((ieeeBits f).2 - 1))
    else if expField f x = 0 then
      if fz then .real (minusSign f x) 0 1 0 else .real (minusSign f x) (fracField f x) 1 (leastExp f - (ieeeBits f).2)
    else .real (minusSign f x) (fracField f x + 2 ^ (ieeeBits f).2) 1 (expField f x - 1 + leastExp f - (ieeeBits f).2) := by
  have he : field x (ieeeBits f).2 (ieeeBits f).1 = expField f x := rfl
  have hm : field x 0 (ieeeBits f).2 = fracField f x := by simp [field, fracField]
  have hs : x.testBit (f.width - 1) = minusSign f x := signBit_eq hf x
  have hsub : (1 : ℤ) - (Format.bias f : ℤ) - ((ieeeBits f).2 : ℕ) = leastExp f - (ieeeBits f).2 := by rw [bias_eq]; ring
  have hnorm : (expField f x : ℤ) - (Format.bias f : ℤ) - ((ieeeBits f).2 : ℕ)
      = expField f x - 1 + leastExp f - (ieeeBits f).2 := by rw [bias_eq]; ring
  simp only [decodeFloat, expBits_eq, fracBits_eq, he, hm, hs, absentCode_of_isFloat hf, hsub, hnorm]

theorem decodeFloat_absent {f : Format} (hf : f.isFloat = true) (fz : Bool) : decodeFloat f fz (absentPattern f) = .absent := by
  rw [decodeFloat_eq hf, if_pos rfl]

theorem expField_absentPattern (f : Format) : expField f (absentPattern f) = 2 ^ (ieeeBits f).1 - 1 := by cases f <;> decide

theorem IsFinite.ne_absent {f : Format} {x : ℕ} (h : IsFinite f x) : x ≠ absentPattern f := by
  rintro rfl
  exact h.2 (expField_absentPattern f)

/-- A finite pattern decodes to a number of its sign, exact, with a significand that fits the format. -/
theorem decodeFloat_of_isFinite {f : Format} (hf : f.isFloat = true) (fz : Bool) {x : ℕ} (h : IsFinite f x) :
    ∃ (m : ℕ) (e : ℤ), decodeFloat f fz x = .real (minusSign f x) m 1 e
      ∧ realOf (minusSign f x) m 1 e = valueRead f fz x ∧ m < 2 ^ ((ieeeBits f).2 + 1) ∧ leastExp f - (ieeeBits f).2 ≤ e := by
  have hfrac : fracField f x < 2 ^ (ieeeBits f).2 := Nat.mod_lt _ (by positivity)
  rw [decodeFloat_eq hf, if_neg h.ne_absent, if_neg h.2, valueRead, pow_succ]
  by_cases he : expField f x = 0
  · rw [if_pos he]
    cases fz with
    | true =>
      have hread : asRead f true x = zeroPattern f (minusSign f x) := by simp [asRead, he]
      refine ⟨0, 0, rfl, ?_, by positivity, ?_⟩
      · rw [hread, finiteValue_zeroPattern, realOf_zero]
      · have := leastExp_nonpos f
        omega
    | false =>
      refine ⟨_, _, rfl, ?_, by omega, le_rfl⟩
      simp only [asRead, Bool.false_eq_true, false_and, if_false, finiteValue, he, if_true, realOf, leastExp]
      ring
  · rw [if_neg he, asRead_of_expField fz he]
    refine ⟨_, _, rfl, ?_, by omega, by omega⟩
    simp only [finiteValue, he, if_false, realOf, leastExp]
    push_cast
    ring_nf

/-- The magnitude of a finite number lies below where the finite magnitudes end. -/
theorem abs_finiteValue_lt {f : Format} {x : ℕ} (h : IsFinite f x) :
    |finiteValue f x| < 2 ^ ((2 : ℤ) ^ ((ieeeBits f).1 - 1)) := by
  rw [finiteValue_eq, abs_mul, abs_of_nonneg (magnitudeValue_nonneg f _), ← magnitudeValue_infPattern]
  have := magnitudeValue_strictMono f (isFinite_iff.mp h).2
  split <;> simpa using this

theorem abs_valueRead_lt {f : Format} (fz : Bool) {x : ℕ} (h : IsFinite f x) :
    |valueRead f fz x| < 2 ^ ((2 : ℤ) ^ ((ieeeBits f).1 - 1)) := abs_finiteValue_lt (isFinite_asRead fz h)

/-! Numbers that a format represents. -/

/-- A number of so many significant bits, no finer than the least subnormal, is a multiple of the unit of its binade. -/
theorem exists_units {f : Format} {r : ℚ} {n : ℕ} {e E : ℤ} (hn : n ≤ 2 ^ ((ieeeBits f).2 + 1))
    (he : leastExp f - (ieeeBits f).2 ≤ e) (habs : |r| = n * 2 ^ e) (hE : (2 : ℚ) ^ E ≤ |r|) :
    ∃ k : ℤ, r = k * 2 ^ (max E (leastExp f) - (ieeeBits f).2) := by
  set fb := (ieeeBits f).2
  set d := max E (leastExp f) - (fb : ℤ) with hd
  suffices h : ∃ k : ℤ, |r| = k * 2 ^ d by
    obtain ⟨k, hk⟩ := h
    rcases abs_choice r with hr | hr
    · exact ⟨k, by rw [← hk, hr]⟩
    · exact ⟨-k, by rw [Int.cast_neg, neg_mul, ← hk, hr, neg_neg]⟩
  rcases le_or_gt d e with hde | hde
  · refine ⟨n * 2 ^ (e - d).toNat, ?_⟩
    rw [habs]
    push_cast
    rw [mul_assoc, ← zpow_natCast (2 : ℚ) (e - d).toNat, ← zpow_add₀ two_ne_zero, Int.toNat_of_nonneg (by omega), sub_add_cancel]
  · -- only the next power of two can lie in a binade with a coarser unit
    have hnq : (n : ℚ) ≤ 2 ^ ((fb + 1 : ℕ) : ℤ) := by rw [zpow_natCast]; exact_mod_cast hn
    have hle : |r| ≤ 2 ^ (((fb + 1 : ℕ) : ℤ) + e) := by
      rw [habs, zpow_add₀ two_ne_zero]
      exact mul_le_mul_of_nonneg_right hnq (by positivity)
    have hE' := (zpow_le_zpow_iff_right₀ one_lt_two).mp (hE.trans hle)
    push_cast at hE'
    have heq : E = ((fb + 1 : ℕ) : ℤ) + e := by push_cast; omega
    refine ⟨2 ^ fb, ?_⟩
    rw [le_antisymm hle (heq ▸ hE)]
    push_cast
    rw [← zpow_natCast, ← zpow_add₀ two_ne_zero]
    congr 1
    omega

/-- A representable number is delivered as it is, without a flag, where nothing is flushed. -/
theorem DeliversRounded.of_representable {f : Format} {mode : Rounding} {r : ℚ} {out : ℕ × ℕ}
    (h : DeliversRounded f ⟨mode, false⟩ r out) (hr : r ≠ 0) {n : ℕ} {e : ℤ} (hn : n ≤ 2 ^ ((ieeeBits f).2 + 1))
    (he : leastExp f - (ieeeBits f).2 ≤ e) (habs : |r| = n * 2 ^ e) (hmax : |r| < 2 ^ ((2 : ℤ) ^ ((ieeeBits f).1 - 1))) :
    IsFinite f out.1 ∧ finiteValue f out.1 = r ∧ minusSign f out.1 = decide (r < 0) ∧ out.2 = 0 := by
  obtain ⟨E, h1, h2⟩ := exists_mem_Ico_zpow (abs_pos.mpr hr) (one_lt_two (α := ℚ))
  obtain ⟨k, hk⟩ := exists_units hn he habs h1
  have hu : (2 : ℚ) ^ (max E (leastExp f) - (ieeeBits f).2) ≠ 0 := by positivity
  have hkr : ((k : ℤ) : ℝ) * 2 ^ (max E (leastExp f) - (ieeeBits f).2) = r := by
    rw [← cast_two_zpow]
    exact_mod_cast hk.symm
  have hround : RoundsTo mode ((r : ℝ) / 2 ^ (max E (leastExp f) - (ieeeBits f).2)) k := by
    rw [← hkr, mul_div_cancel_right₀ _ (by positivity)]
    exact .self mode k
  have key := h E (by rw [← cast_two_zpow]; exact_mod_cast h1) (by rw [← cast_two_zpow]; exact_mod_cast h2) k hround
  have hkr' : ((k : ℤ) : ℝ) * 2 ^ (max E (2 - 2 ^ ((ieeeBits f).1 - 1)) - (ieeeBits f).2) = r := hkr
  have hmax' : ¬(2 : ℝ) ^ ((2 : ℤ) ^ ((ieeeBits f).1 - 1)) ≤ |(r : ℝ)| := by
    rw [← cast_two_zpow, not_le]
    exact_mod_cast hmax
  simp only [hkr', if_neg hmax', Bool.false_eq_true, false_and, if_false, if_true] at key
  obtain ⟨k1, k2, k3, k4⟩ := key
  exact ⟨k1, by exact_mod_cast k2, by rw [k3]; simp, k4⟩

/-- A representable number, or a zero, encoded without flush. -/
theorem roundReal_of_representable {f : Format} (hf : f.isFloat = true) (mode : Rounding) (neg : Bool) {n m : ℕ} {e e' : ℤ}
    (hn : n ≤ 2 ^ ((ieeeBits f).2 + 1)) (he : leastExp f - (ieeeBits f).2 ≤ e) (habs : |realOf neg m 1 e'| = n * 2 ^ e)
    (hmax : |realOf neg m 1 e'| < 2 ^ ((2 : ℤ) ^ ((ieeeBits f).1 - 1))) :
    let out := roundReal f ⟨mode, false⟩ neg m 1 e'
    IsFinite f out.1 ∧ finiteValue f out.1 = realOf neg m 1 e' ∧ minusSign f out.1 = neg ∧ out.2 = 0 := by
  rcases eq_or_ne m 0 with rfl | hm
  · simp only [roundReal_zero hf, realOf_zero]
    exact ⟨isFinite_zeroPattern f neg, finiteValue_zeroPattern f neg, minusSign_zeroPattern f neg, trivial⟩
  · have hr := realOf_ne_zero (neg := neg) (exp := e') hm one_ne_zero
    have h := deliversNumber_roundReal hf ⟨mode, false⟩ neg m e' one_ne_zero
    rw [DeliversNumber, if_neg hr] at h
    obtain ⟨h1, h2, h3, h4⟩ := h.of_representable hr hn he habs hmax
    refine ⟨h1, h2, ?_, h4⟩
    rw [h3, Bool.eq_iff_iff, decide_eq_true_iff, realOf_neg_iff hm one_ne_zero]

/-- A finite pattern decoded and encoded again is the pattern as it is read. -/
theorem encodeFloat_decodeFloat_of_isFinite {f : Format} (hf : f.isFloat = true) (fz : Bool) (srcBits : ℕ) {x : ℕ}
    (h : IsFinite f x) : (encodeFloat f Env.plain srcBits (decodeFloat f fz x)).1 = asRead f fz x := by
  obtain ⟨m, e, hd, hv, hm, he⟩ := decodeFloat_of_isFinite hf fz h
  have habs : |realOf (minusSign f x) m 1 e| = m * 2 ^ e := by rw [abs_realOf, Nat.cast_one, div_one]
  obtain ⟨h1, h2, h3, -⟩ := roundReal_of_representable hf .rne (minusSign f x) hm.le he habs (hv ▸ abs_valueRead_lt fz h)
  rw [hd]
  exact eq_of_finiteValue_eq h1 (isFinite_asRead fz h) (h3.trans (minusSign_asRead f fz x).symm) (h2.trans hv)

end Sys2Proof.Machine

/-! SUPPORT. The operations of class I on finite operands (R51, R54, R56, R266, R267, R269, R272). -/

namespace Sys2Proof.Machine

open Sys2Proof

/-! Exact arithmetic on signs, quotients and powers of two. -/

theorem deliversNumber_of_eq {f : Format} (hf : f.isFloat = true) (env : Env) {neg zeroNeg : Bool} {num den : ℕ} {exp : ℤ} {r : ℚ}
    (hr : realOf neg num den exp = r) (hz : r = 0 → neg = zeroNeg) (hd : den ≠ 0 := by decide) :
    DeliversNumber f env r zeroNeg (roundReal f env neg num den exp) := by
  have h := deliversNumber_roundReal hf env neg num exp hd
  rw [hr] at h
  by_cases h0 : r = 0
  · rwa [← hz h0]
  · rwa [DeliversNumber, if_neg h0] at h ⊢

theorem realOf_mul (n1 n2 : Bool) (m1 m2 : ℕ) (e1 e2 : ℤ) :
    realOf (n1 != n2) (m1 * m2) 1 (e1 + e2) = realOf n1 m1 1 e1 * realOf n2 m2 1 e2 := by
  rw [realOf, realOf, realOf, zpow_add₀ two_ne_zero]
  cases n1 <;> cases n2 <;> push_cast <;> simp <;> ring

theorem realOf_div (n1 n2 : Bool) (m1 m2 : ℕ) (e1 e2 : ℤ) :
    realOf (n1 != n2) m1 m2 (e1 - e2) = realOf n1 m1 1 e1 / realOf n2 m2 1 e2 := by
  rw [realOf, realOf, realOf, zpow_sub₀ two_ne_zero]
  cases n1 <;> cases n2 <;> simp <;> ring

theorem realOf_mul_two_zpow (neg : Bool) (m d : ℕ) (e k : ℤ) : realOf neg m d (e + k) = realOf neg m d e * 2 ^ k := by
  rw [realOf, realOf, zpow_add₀ two_ne_zero]
  ring

theorem realOf_flip (neg flip : Bool) (m d : ℕ) (e : ℤ) :
    realOf (neg != flip) m d e = (if flip then -1 else 1) * realOf neg m d e := by
  cases neg <;> cases flip <;> simp [realOf]

theorem realOf_not (neg : Bool) (m d : ℕ) (e : ℤ) : realOf (!neg) m d e = -realOf neg m d e := by
  cases neg <;> simp [realOf]

theorem realOf_eq_zero_iff {neg : Bool} {m d : ℕ} {e : ℤ} (hd : d ≠ 0 := by decide) : realOf neg m d e = 0 ↔ m = 0 := by
  constructor
  · intro h
    by_contra hm
    exact realOf_ne_zero hm hd h
  · rintro rfl
    exact realOf_zero neg d e

/-- A number brought to a lower power of two, as an integer of its units. -/
theorem toInt_mul_two_zpow (neg : Bool) (m : ℕ) {e e0 : ℤ} (h : e0 ≤ e) :
    (toInt neg (m * 2 ^ (e - e0).toNat) : ℚ) * 2 ^ e0 = realOf neg m 1 e := by
  have : (2 : ℚ) ^ e = 2 ^ (e - e0).toNat * 2 ^ e0 := by
    rw [← zpow_natCast, ← zpow_add₀ two_ne_zero]
    congr 1
    omega
  rw [realOf, this]
  cases neg <;> simp [toInt] <;> ring

theorem realOf_of_int (x : ℤ) (e : ℤ) : realOf (decide (x < 0)) x.natAbs 1 e = x * 2 ^ e := by
  have h : ((x.natAbs : ℕ) : ℚ) = |(x : ℚ)| := by rw [Nat.cast_natAbs, Int.cast_abs]
  rw [realOf, h]
  rcases lt_or_ge x 0 with hx | hx
  · simp [hx, abs_of_neg (show (x : ℚ) < 0 by exact_mod_cast hx)]
  · simp [not_lt.mpr hx, abs_of_nonneg (show (0 : ℚ) ≤ x by exact_mod_cast hx)]

/-- The exact sum, and the sign of one that is zero. -/
theorem addReal_spec (mode : Rounding) (n1 : Bool) (m1 : ℕ) (e1 : ℤ) (n2 : Bool) (m2 : ℕ) (e2 : ℤ) :
    ∃ (neg : Bool) (m : ℕ) (e : ℤ), addReal mode n1 m1 e1 n2 m2 e2 = .real neg m 1 e
      ∧ realOf neg m 1 e = realOf n1 m1 1 e1 + realOf n2 m2 1 e2
      ∧ (realOf n1 m1 1 e1 + realOf n2 m2 1 e2 = 0 → neg = if n1 = n2 then n1 else mode == .rdn) := by
  set e := min e1 e2 with he
  set x := toInt n1 (m1 * 2 ^ (e1 - e).toNat) + toInt n2 (m2 * 2 ^ (e2 - e).toNat) with hx
  have hsum : (x : ℚ) * 2 ^ e = realOf n1 m1 1 e1 + realOf n2 m2 1 e2 := by
    rw [hx, ← toInt_mul_two_zpow n1 m1 (min_le_left e1 e2), ← toInt_mul_two_zpow n2 m2 (min_le_right e1 e2)]
    push_cast
    ring
  have hx0 : (x : ℚ) * 2 ^ e = 0 ↔ x = 0 := by simp [zpow_ne_zero]
  rw [← hsum, hx0]
  by_cases h0 : x = 0
  · exact ⟨_, 0, 0, by simp only [addReal, ← he, ← hx, if_pos h0], by rw [realOf_zero, h0, Int.cast_zero, zero_mul], fun _ => rfl⟩
  · exact ⟨_, _, e, by simp only [addReal, ← he, ← hx, if_neg h0], realOf_of_int x e, fun h => absurd h h0⟩

theorem ltVal_real (n1 : Bool) (m1 : ℕ) (e1 : ℤ) (n2 : Bool) (m2 : ℕ) (e2 : ℤ) :
    ltVal (.real n1 m1 1 e1) (.real n2 m2 1 e2) = decide (realOf n1 m1 1 e1 < realOf n2 m2 1 e2) := by
  have h0 : (0 : ℚ) < 2 ^ min e1 e2 := by positivity
  rw [← toInt_mul_two_zpow n1 m1 (min_le_left e1 e2), ← toInt_mul_two_zpow n2 m2 (min_le_right e1 e2)]
  simp only [mul_lt_mul_iff_left₀ h0, Int.cast_lt]
  rfl

theorem eqVal_real (n1 : Bool) (m1 : ℕ) (e1 : ℤ) (n2 : Bool) (m2 : ℕ) (e2 : ℤ) :
    eqVal (.real n1 m1 1 e1) (.real n2 m2 1 e2) = decide (realOf n1 m1 1 e1 = realOf n2 m2 1 e2) := by
  rw [eqVal, ltVal_real, ltVal_real, Bool.eq_iff_iff]
  simp only [Bool.and_eq_true, Bool.not_eq_true', decide_eq_false_iff_not, decide_eq_true_iff, not_lt]
  exact ⟨fun h => le_antisymm h.2 h.1, fun h => ⟨h.ge, h.le⟩⟩

/-! The sign of a finite pattern changed. -/

theorem withSign_eq {f : Format} (hf : f.isFloat = true) (x : ℕ) (neg : Bool) :
    withSign f x neg = if zeroPattern f neg + x % 2 ^ magBits f = absentPattern f then canonicalNaN f
      else zeroPattern f neg + x % 2 ^ magBits f := by
  rw [withSign, width_of_isFloat hf, absentCode_of_isFloat hf, canonical_eq, zeroPattern_eq, Nat.add_comm]
  rfl

theorem mod_lt_magBits (f : Format) (x : ℕ) : x % 2 ^ magBits f < 2 ^ magBits f := Nat.mod_lt _ (by positivity)

theorem IsFinite.withSign {f : Format} (hf : f.isFloat = true) {x : ℕ} (h : IsFinite f x) (neg : Bool) :
    IsFinite f (withSign f x neg) ∧ minusSign f (withSign f x neg) = neg ∧ expField f (withSign f x neg) = expField f x
      ∧ fracField f (withSign f x neg) = fracField f x := by
  have hfin := isFinite_zeroPattern_add (f := f) neg (isFinite_iff.mp h).2
  rw [withSign_eq hf, if_neg hfin.ne_absent]
  have hmod := zeroPattern_add_mod f neg (mod_lt_magBits f x)
  exact ⟨hfin, minusSign_zeroPattern_add f neg (mod_lt_magBits f x), by rw [expField_eq, expField_eq, hmod],
    by rw [fracField_eq, fracField_eq, hmod]⟩

theorem decodeFloat_withSign {f : Format} (hf : f.isFloat = true) {fz : Bool} {x : ℕ} (h : IsFinite f x) {n : Bool} {m : ℕ} {e : ℤ}
    (hd : decodeFloat f fz x = .real n m 1 e) (neg : Bool) : decodeFloat f fz (withSign f x neg) = .real neg m 1 e := by
  obtain ⟨hfin, hs, he, hm⟩ := h.withSign hf neg
  rw [decodeFloat_eq hf, if_neg h.ne_absent, if_neg h.2] at hd
  rw [decodeFloat_eq hf, if_neg hfin.ne_absent, if_neg hfin.2, hs, he, hm]
  split_ifs at hd ⊢ <;> simp_all

/-! The operations. -/

theorem IsFinite.isAbsent {f : Format} (hf : f.isFloat = true) {x : ℕ} (h : IsFinite f x) : isAbsent f x = false := by
  rw [isAbsent_of_isFloat hf, decide_eq_false h.ne_absent]

theorem isAbsent_of_ne {f : Format} (hf : f.isFloat = true) {x : ℕ} (h : x ≠ absentPattern f) : isAbsent f x = false := by
  rw [isAbsent_of_isFloat hf, decide_eq_false h]

theorem isAbsent_absentPattern {f : Format} (hf : f.isFloat = true) : isAbsent f (absentPattern f) = true := by
  rw [isAbsent_of_isFloat hf, decide_eq_true rfl]

/-! What an operation does with present operands: the NaN operands first, then the exact result delivered (R53). -/

/-- What a quotient delivers, with the flag of a division by zero. -/
def deliverQuotient (f : Format) (env : Env) : Option (Val × ℕ) → ℕ × ℕ
  | some (v, fl) => ((encodeFloat f env 0 v).1, orFlags (encodeFloat f env 0 v).2 fl)
  | none => (canonicalNaN f, 16)

/-- What a square root of a value that is no NaN delivers (R267). -/
def sqrtVal (f : Format) (env : Env) : Val → ℕ × ℕ
  | .inf false => (infPattern f false, 0)
  | .real n m _ e =>
    if m = 0 then (zeroPattern f n, 0)
    else if n then (canonicalNaN f, 16)
    else
      let (m, e) := if e % 2 = 0 then (m, e) else (2 * m, e - 1)
      let w := m * 2 ^ 64
      let r := isqrt w 60 0
      roundReal f env false (2 * r + (!(r * r == w)).toNat) 1 ((e - 64) / 2 - 1)
  | _ => (canonicalNaN f, 16)

theorem ieeeOp_of_none {f : Format} {vs : List Val} (h : firstNaN vs = none) (op : Unit → ℕ × ℕ) : ieeeOp f vs op = op () := by
  rw [ieeeOp, h]

section Present

variable {f : Format} (hf : f.isFloat = true) (env : Env) {a b : ℕ} (ha : a ≠ absentPattern f) (hb : b ≠ absentPattern f)

include hf ha

theorem floatSqrt_of_present : floatSqrt f env a
    = ieeeOp f [decodeFloat f env.fz a] fun _ => sqrtVal f env (decodeFloat f env.fz a) := by
  simp only [floatSqrt, isAbsent_of_ne hf ha, Bool.false_eq_true, if_false]
  congr 1
  funext _
  cases h : decodeFloat f env.fz a with
  | inf n => cases n <;> simp [sqrtVal, encodeFloat, infPattern, zeroPattern, canonical_eq, flagNV]
  | real n m d e =>
    simp only [sqrtVal, encodeFloat]
    by_cases hm : m = 0
    · simp only [hm, roundReal_zero hf, if_true]
    · rw [if_neg hm, if_neg hm, canonical_eq]
      rfl
  | _ => simp [sqrtVal, canonical_eq, flagNV]

theorem floatRcp_of_present : floatRcp f env a
    = ieeeOp f [decodeFloat f env.fz a] fun _ => deliverQuotient f env (divVal (.real false 1 1 0) (decodeFloat f env.fz a)) := by
  simp only [floatRcp, isAbsent_of_ne hf ha, Bool.false_eq_true, if_false]
  congr 1
  funext _
  cases divVal (.real false 1 1 0) (decodeFloat f env.fz a) <;> simp [deliverQuotient, canonical_eq, flagNV]

include hb

theorem elemBin_add_of_present : elemBin .add f env a b = ieeeOp f [decodeFloat f env.fz a, decodeFloat f env.fz b] fun _ =>
    deliverVal f env (addVal env.mode (decodeFloat f env.fz a) (decodeFloat f env.fz b)) := by
  simp only [elemBin, hf, if_true, floatAdd, isAbsent_of_ne hf ha, isAbsent_of_ne hf hb]

theorem elemBin_sub_of_present : elemBin .sub f env a b = ieeeOp f [decodeFloat f env.fz a, decodeFloat f env.fz b] fun _ =>
    deliverVal f env (addVal env.mode (decodeFloat f env.fz a) (decodeFloat f env.fz b).neg) := by
  simp only [elemBin, hf, if_true, floatSub, isAbsent_of_ne hf ha, isAbsent_of_ne hf hb]

theorem elemBin_mul_of_present : elemBin .mul f env a b = ieeeOp f [decodeFloat f env.fz a, decodeFloat f env.fz b] fun _ =>
    deliverVal f env (mulVal (decodeFloat f env.fz a) (decodeFloat f env.fz b)) := by
  simp only [elemBin, hf, if_true, floatMul, isAbsent_of_ne hf ha, isAbsent_of_ne hf hb]

theorem elemBin_div_of_present : elemBin .div f env a b = ieeeOp f [decodeFloat f env.fz a, decodeFloat f env.fz b] fun _ =>
    deliverQuotient f env (divVal (decodeFloat f env.fz a) (decodeFloat f env.fz b)) := by
  simp only [elemBin, hf, if_true, floatDiv, isAbsent_of_ne hf ha, isAbsent_of_ne hf hb, Bool.or_false, Bool.false_eq_true,
    if_false]
  congr 1
  funext _
  cases divVal (decodeFloat f env.fz a) (decodeFloat f env.fz b) <;> simp [deliverQuotient, canonical_eq, flagNV]

end Present

/-! Finite operands. -/

section Finite

variable {f : Format} (hf : f.isFloat = true) (env : Env) {a b c : ℕ} (ha : IsFinite f a) (hb : IsFinite f b) (hc : IsFinite f c)

include hf

/-- The rounded sum of two finite values of any signs. -/
theorem deliversNumber_addVal (n1 n2 : Bool) (m1 m2 : ℕ) (e1 e2 : ℤ) :
    DeliversNumber f env (realOf n1 m1 1 e1 + realOf n2 m2 1 e2) (if n1 = n2 then n1 else env.mode == .rdn)
      (deliverVal f env (addVal env.mode (.real n1 m1 1 e1) (.real n2 m2 1 e2))) := by
  obtain ⟨neg, m, e, hadd, hval, hzero⟩ := addReal_spec env.mode n1 m1 e1 n2 m2 e2
  rw [addVal, hadd]
  exact deliversNumber_of_eq hf env hval hzero

/-- The rounded quotient of a finite value by a nonzero one. -/
theorem deliversNumber_divVal (n1 n2 : Bool) (m1 : ℕ) {m2 : ℕ} (e1 e2 : ℤ) (hm : m2 ≠ 0) :
    DeliversNumber f env (realOf n1 m1 1 e1 / realOf n2 m2 1 e2) (n1 != n2)
      (deliverQuotient f env (divVal (.real n1 m1 1 e1) (.real n2 m2 1 e2))) := by
  have h := deliversNumber_of_eq hf env (zeroNeg := n1 != n2) (realOf_div n1 n2 m1 m2 e1 e2) (fun _ => rfl) hm
  rw [divVal, if_neg hm]
  simpa [deliverQuotient, encodeFloat, orFlags] using h

include ha

theorem floatRcp_of_isFinite (h0 : valueRead f env.fz a ≠ 0) :
    DeliversNumber f env (1 / valueRead f env.fz a) (minusSign f a) (floatRcp f env a) := by
  obtain ⟨m, e, hd, hv, -, -⟩ := decodeFloat_of_isFinite hf env.fz ha
  have hm : m ≠ 0 := by rintro rfl; exact h0 (by rw [← hv, realOf_zero])
  have h := deliversNumber_divVal hf env false (minusSign f a) 1 0 e hm
  rw [floatRcp_of_present hf env ha.ne_absent, hd, ieeeOp_of_none rfl, ← hv]
  simpa [realOf] using h

theorem floatScale_of_isFinite {k : ℕ} (hk : k ≠ 2 ^ (f.width - 1)) :
    DeliversNumber f env (valueRead f env.fz a * 2 ^ sextNat k f.width) (minusSign f a) (floatScale f env a k) := by
  obtain ⟨m, e, hd, hv, -, -⟩ := decodeFloat_of_isFinite hf env.fz ha
  have h : floatScale f env a k = roundReal f env (minusSign f a) m 1 (e + sextNat k f.width) := by
    simp only [floatScale, ha.isAbsent hf, beq_eq_decide, hk, decide_false, Bool.or_false, Bool.false_eq_true, if_false, hd]
    rfl
  rw [h, ← hv]
  exact deliversNumber_of_eq hf env (realOf_mul_two_zpow _ _ _ _ _) fun _ => rfl

include hb

theorem elemBin_add_of_isFinite : DeliversNumber f env (valueRead f env.fz a + valueRead f env.fz b)
    (if minusSign f a = minusSign f b then minusSign f a else env.mode == .rdn) (elemBin .add f env a b) := by
  obtain ⟨m1, e1, hd1, hv1, -, -⟩ := decodeFloat_of_isFinite hf env.fz ha
  obtain ⟨m2, e2, hd2, hv2, -, -⟩ := decodeFloat_of_isFinite hf env.fz hb
  rw [elemBin_add_of_present hf env ha.ne_absent hb.ne_absent, hd1, hd2, ieeeOp_of_none rfl, ← hv1, ← hv2]
  exact deliversNumber_addVal hf env _ _ _ _ _ _

theorem elemBin_sub_of_isFinite : DeliversNumber f env (valueRead f env.fz a - valueRead f env.fz b)
    (if minusSign f a = !minusSign f b then minusSign f a else env.mode == .rdn) (elemBin .sub f env a b) := by
  obtain ⟨m1, e1, hd1, hv1, -, -⟩ := decodeFloat_of_isFinite hf env.fz ha
  obtain ⟨m2, e2, hd2, hv2, -, -⟩ := decodeFloat_of_isFinite hf env.fz hb
  rw [elemBin_sub_of_present hf env ha.ne_absent hb.ne_absent, hd1, hd2, ieeeOp_of_none rfl, ← hv1, ← hv2, sub_eq_add_neg,
    ← realOf_not]
  exact deliversNumber_addVal hf env _ _ _ _ _ _

theorem elemBin_mul_of_isFinite : DeliversNumber f env (valueRead f env.fz a * valueRead f env.fz b)
    (minusSign f a != minusSign f b) (elemBin .mul f env a b) := by
  obtain ⟨m1, e1, hd1, hv1, -, -⟩ := decodeFloat_of_isFinite hf env.fz ha
  obtain ⟨m2, e2, hd2, hv2, -, -⟩ := decodeFloat_of_isFinite hf env.fz hb
  rw [elemBin_mul_of_present hf env ha.ne_absent hb.ne_absent, hd1, hd2, ieeeOp_of_none rfl, ← hv1, ← hv2]
  exact deliversNumber_of_eq hf env (realOf_mul _ _ _ _ _ _) fun _ => rfl

theorem elemBin_div_of_isFinite (h0 : valueRead f env.fz b ≠ 0) :
    DeliversNumber f env (valueRead f env.fz a / valueRead f env.fz b) (minusSign f a != minusSign f b)
      (elemBin .div f env a b) := by
  obtain ⟨m1, e1, hd1, hv1, -, -⟩ := decodeFloat_of_isFinite hf env.fz ha
  obtain ⟨m2, e2, hd2, hv2, -, -⟩ := decodeFloat_of_isFinite hf env.fz hb
  have hm : m2 ≠ 0 := by rintro rfl; exact h0 (by rw [← hv2, realOf_zero])
  rw [elemBin_div_of_present hf env ha.ne_absent hb.ne_absent, hd1, hd2, ieeeOp_of_none rfl, ← hv1, ← hv2]
  exact deliversNumber_divVal hf env _ _ _ _ _ hm

include hc

theorem elemFma_of_isFinite (na nc : Bool) :
    DeliversNumber f env ((if na then -1 else 1) * (valueRead f env.fz a * valueRead f env.fz b)
        + (if nc then -1 else 1) * valueRead f env.fz c)
      (if ((minusSign f a != na) != minusSign f b) = (minusSign f c != nc) then (minusSign f a != na) != minusSign f b
        else env.mode == .rdn) (elemFma na nc f env a b c) := by
  obtain ⟨m1, e1, hd1, hv1, -, -⟩ := decodeFloat_of_isFinite hf env.fz ha
  obtain ⟨m2, e2, hd2, hv2, -, -⟩ := decodeFloat_of_isFinite hf env.fz hb
  obtain ⟨m3, e3, hd3, hv3, -, -⟩ := decodeFloat_of_isFinite hf env.fz hc
  have flip {x m : ℕ} {e : ℤ} (n : Bool) (hx : IsFinite f x) (hd : decodeFloat f env.fz x = .real (minusSign f x) m 1 e) :
      decodeFloat f env.fz (if n = true then withSign f x (!signBit f x) else x) = .real (minusSign f x != n) m 1 e := by
    cases n with
    | false => simpa using hd
    | true => simpa [signBit_eq hf] using decodeFloat_withSign hf hx hd (!minusSign f x)
  have h : elemFma na nc f env a b c = deliverVal f env (addVal env.mode
      (.real ((minusSign f a != na) != minusSign f b) (m1 * m2) 1 (e1 + e2)) (.real (minusSign f c != nc) m3 1 e3)) := by
    simp only [elemFma, hf, if_true, floatFma, ha.isAbsent hf, hb.isAbsent hf, hc.isAbsent hf, Bool.or_false, Bool.not_false,
      Bool.and_true, Bool.false_eq_true, if_false, flip na ha hd1, hd2, flip nc hc hd3]
    rfl
  rw [h, ← hv1, ← hv2, ← hv3, ← mul_assoc, ← realOf_flip, ← realOf_flip, ← realOf_mul]
  exact deliversNumber_addVal hf env _ _ _ _ _ _

end Finite

end Sys2Proof.Machine

/-! SUPPORT. Minimum, maximum, integral parts and conversions of finite operands (R54, R56, R267, R272). -/

namespace Sys2Proof.Machine

open Sys2Proof

/-! The smaller and the larger. -/

/-- The order of minimum and maximum on what two finite patterns are read as: −0 below +0 (R267). -/
def readBelow (f : Format) (fz : Bool) (a b : ℕ) : Bool :=
  decide (valueRead f fz a < valueRead f fz b
    ∨ valueRead f fz a = valueRead f fz b ∧ minusSign f a = true ∧ minusSign f b = false)

section Finite

variable {f : Format} (hf : f.isFloat = true) (env : Env) {a b : ℕ} (ha : IsFinite f a) (hb : IsFinite f b)

include hf ha hb

theorem floatMinMax_of_isFinite (larger : Bool) :
    floatMinMax f env larger a b = (asRead f env.fz (if readBelow f env.fz a b != larger then a else b), 0) := by
  obtain ⟨m1, e1, hd1, hv1, -, -⟩ := decodeFloat_of_isFinite hf env.fz ha
  obtain ⟨m2, e2, hd2, hv2, -, -⟩ := decodeFloat_of_isFinite hf env.fz hb
  have hless : (ltVal (.real (minusSign f a) m1 1 e1) (.real (minusSign f b) m2 1 e2)
      || (eqVal (.real (minusSign f a) m1 1 e1) (.real (minusSign f b) m2 1 e2) && minusSign f a && !minusSign f b))
      = readBelow f env.fz a b := by
    rw [ltVal_real, eqVal_real, hv1, hv2, readBelow, Bool.eq_iff_iff]
    simp [and_assoc]
  have hx := encodeFloat_decodeFloat_of_isFinite hf env.fz (ieeeBits f).2 ha
  have hy := encodeFloat_decodeFloat_of_isFinite hf env.fz (ieeeBits f).2 hb
  rw [hd1] at hx
  rw [hd2] at hy
  simp only [floatMinMax, ha.isAbsent hf, hb.isAbsent hf, hd1, hd2, Val.isNeg, hless, fracBits_eq]
  cases readBelow f env.fz a b <;> cases larger <;> simp [hx, hy, signalling]

theorem elemBin_min_of_isFinite :
    elemBin .min f env a b = (asRead f env.fz (if readBelow f env.fz a b then a else b), 0) := by
  have h := floatMinMax_of_isFinite hf env ha hb false
  rw [Bool.bne_false] at h
  rwa [elemBin, if_pos hf]

theorem elemBin_max_of_isFinite :
    elemBin .max f env a b = (asRead f env.fz (if readBelow f env.fz a b then b else a), 0) := by
  have h := floatMinMax_of_isFinite hf env ha hb true
  rw [elemBin, if_pos hf]
  refine h.trans ?_
  cases readBelow f env.fz a b <;> rfl

end Finite

/-! Integral parts. -/

theorem fracBits_succ_lt (f : Format) : (((ieeeBits f).2 + 1 : ℕ) : ℤ) < 2 ^ ((ieeeBits f).1 - 1) := by cases f <;> decide

/-- The integer that a number of a format rounds to is again a number of the format. -/
theorem representable_of_roundsTo {f : Format} {mode : Rounding} {neg : Bool} {m : ℕ} {e k : ℤ}
    (hm : m < 2 ^ ((ieeeBits f).2 + 1)) (hmax : |realOf neg m 1 e| < 2 ^ ((2 : ℤ) ^ ((ieeeBits f).1 - 1)))
    (hk : RoundsTo mode (realOf neg m 1 e : ℚ) k) : ∃ (n : ℕ) (e' : ℤ), n ≤ 2 ^ ((ieeeBits f).2 + 1)
      ∧ 0 ≤ e' ∧ |(k : ℚ)| = n * 2 ^ e' ∧ |(k : ℚ)| < 2 ^ ((2 : ℤ) ^ ((ieeeBits f).1 - 1)) := by
  have habs : |realOf neg m 1 e| = m * 2 ^ e := by rw [abs_realOf, Nat.cast_one, div_one]
  rcases le_or_gt 0 e with he | he
  · -- the number is an integer and rounds to itself
    obtain ⟨z, hz⟩ : ∃ z : ℤ, realOf neg m 1 e = z := by
      have : (2 : ℚ) ^ e = 2 ^ e.toNat := by rw [← zpow_natCast, Int.toNat_of_nonneg he]
      exact ⟨(if neg then -1 else 1) * (m * 2 ^ e.toNat), by rw [realOf, this]; cases neg <;> push_cast <;> simp⟩
    have hkr : (k : ℚ) = realOf neg m 1 e := by rw [hz, hk.eq_of_eq (n := z) (by rw [hz, Rat.cast_intCast])]
    exact ⟨m, e, hm.le, he, by rw [hkr, habs], by rw [hkr]; exact hmax⟩
  · -- the number lies below the largest significand, and so does its rounding
    have hlt : |realOf neg m 1 e| ≤ ((2 ^ ((ieeeBits f).2 + 1) : ℤ) : ℚ) := by
      rw [habs]
      have h1 : (2 : ℚ) ^ e ≤ 1 := zpow_le_one_of_nonpos₀ one_le_two he.le
      have h2 : (m : ℚ) ≤ 2 ^ ((ieeeBits f).2 + 1) := by exact_mod_cast hm.le
      push_cast
      nlinarith [show (0 : ℚ) ≤ m by positivity]
    obtain ⟨hl, hu⟩ := abs_le.mp hlt
    have hku := hk.le_of_le (n := 2 ^ ((ieeeBits f).2 + 1)) (by exact_mod_cast hu)
    have hkl := hk.ge_of_ge (n := -2 ^ ((ieeeBits f).2 + 1)) (by exact_mod_cast hl)
    have hkabs : |k| ≤ 2 ^ ((ieeeBits f).2 + 1) := abs_le.mpr ⟨hkl, hku⟩
    refine ⟨k.natAbs, 0, ?_, le_rfl, by rw [Nat.cast_natAbs, Int.cast_abs]; simp, ?_⟩
    · zify
      exact hkabs
    · refine lt_of_le_of_lt (b := (2 : ℚ) ^ (((ieeeBits f).2 + 1 : ℕ) : ℤ)) ?_
        (zpow_lt_zpow_right₀ one_lt_two (fracBits_succ_lt f))
      rw [zpow_natCast]
      exact_mod_cast hkabs

section Convert

variable {f : Format} (hf : f.isFloat = true) (env : Env) {a : ℕ} (ha : IsFinite f a)

include hf ha

theorem floatIntegral_of_isFinite {mode : Rounding} {k : ℤ} (hk : RoundsTo mode (valueRead f env.fz a : ℚ) k) :
    IsFinite f (floatIntegral f env mode a).1 ∧ finiteValue f (floatIntegral f env mode a).1 = k
      ∧ minusSign f (floatIntegral f env mode a).1 = minusSign f a ∧ (floatIntegral f env mode a).2 = 0 := by
  obtain ⟨m, e, hd, hv, hm, he⟩ := decodeFloat_of_isFinite hf env.fz ha
  rcases hs : scaled m 1 e 0 with ⟨q, r, d⟩
  obtain ⟨hround, -⟩ := round_scaled mode (minusSign f a) one_ne_zero hs
  rw [zpow_zero, div_one, hv] at hround
  set n := roundInt mode (minusSign f a) q r d with hn
  have hkn : (k : ℚ) = realOf (minusSign f a) n 1 0 := by
    rw [hk.unique hround, realOf]
    cases minusSign f a <;> simp
  have heq : floatIntegral f env mode a = ((roundReal f Env.plain (minusSign f a) n 1 0).1, 0) := by
    simp only [floatIntegral, ha.isAbsent hf, hd, hs, Bool.false_eq_true, if_false]
    rfl
  rw [← hv] at hk
  obtain ⟨n', e', h1, h2, h3, h4⟩ := representable_of_roundsTo hm (hv ▸ abs_valueRead_lt env.fz ha) hk
  rw [hkn] at h3 h4
  have hl := leastExp_nonpos f
  obtain ⟨r1, r2, r3, -⟩ := roundReal_of_representable hf .rne (minusSign f a) h1 (e := e') (by omega) h3 h4
  rw [heq]
  exact ⟨r1, by rw [hkn]; exact r2, r3, rfl⟩

theorem convertElem_float_of_isFinite {g : Format} (hg : g.isFloat = true) :
    DeliversNumber g env (valueRead f env.fz a) (minusSign f a) (convertElem g f env a) := by
  obtain ⟨m, e, hd, hv, -, -⟩ := decodeFloat_of_isFinite hf env.fz ha
  simp only [convertElem, ha.isAbsent hf, Bool.false_eq_true, if_false, hf, hg, if_true, hd]
  exact deliversNumber_of_eq hg env hv fun _ => rfl

theorem convertElem_int_of_isFinite {g : Format} (hg : g.isFloat = false) {k : ℤ}
    (hk : RoundsTo env.mode (valueRead f env.fz a : ℚ) k) :
    convertElem g f env a = (patternOf g.width (saturate g.width k),
      if saturate g.width k ≠ k then 16 else if (k : ℚ) = valueRead f env.fz a then 0 else 1) := by
  obtain ⟨m, e, hd, hv, -, -⟩ := decodeFloat_of_isFinite hf env.fz ha
  rcases hs : scaled m 1 e 0 with ⟨q, r, d⟩
  obtain ⟨hround, hexact⟩ := round_scaled env.mode (minusSign f a) one_ne_zero hs
  rw [zpow_zero, div_one, hv] at hround hexact
  obtain rfl := hk.unique hround
  simp only [convertElem, ha.isAbsent hf, Bool.false_eq_true, if_false, hf, if_true, hg, hd, encodeInt, hs, hexact]
  rfl

end Convert

theorem convertElem_of_int {i : Format} (hf' : i.isFloat = false) {n : ℕ} (hn : n ≠ 2 ^ (i.width - 1)) (g : Format)
    (env : Env) : convertElem g i env n =
      if g.isFloat then roundReal g env (decide (sextNat n i.width < 0)) (sextNat n i.width).natAbs 1 0
      else (patternOf g.width (saturate g.width (sextNat n i.width)), 0) := by
  have h : isAbsent i n = false := by simp [isAbsent, Format.absentCode, hf', hn]
  simp only [convertElem, h, hf', Bool.false_eq_true, if_false, signedOf]
  rfl

theorem deliversNumber_of_int {f : Format} (hf : f.isFloat = true) (env : Env) (x : ℤ) :
    DeliversNumber f env x false (roundReal f env (decide (x < 0)) x.natAbs 1 0) := by
  refine deliversNumber_of_eq hf env (by rw [realOf_of_int, zpow_zero, mul_one]) fun h => ?_
  have : x = 0 := by exact_mod_cast h
  simp [this]

/-! Square roots. -/

theorem isqrt_spec (x n r : ℕ) (hl : r * r ≤ x) (hu : x < (r + 2 ^ n) * (r + 2 ^ n)) :
    isqrt x n r * isqrt x n r ≤ x ∧ x < (isqrt x n r + 1) * (isqrt x n r + 1) := by
  induction n generalizing r with
  | zero => exact ⟨hl, by simpa [isqrt] using hu⟩
  | succ n ih =>
    simp only [isqrt]
    split
    · next h => exact ih _ h (by rw [pow_succ] at hu; convert hu using 2 <;> ring)
    · next h => exact ih _ hl (not_le.mp h)

/-- Twice the root's integer part, odd where the root is none, lies to the even numbers as twice the root does. -/
theorem root_sticky {w r : ℕ} (hl : r * r ≤ w) (hu : w < (r + 1) * (r + 1)) (n : ℤ) :
    (((2 * r + (!(r * r == w)).toNat : ℕ) : ℝ) < 2 * n ↔ √(w : ℝ) < n)
      ∧ ((2 * n : ℝ) < ((2 * r + (!(r * r == w)).toNat : ℕ) : ℝ) ↔ (n : ℝ) < √(w : ℝ)) := by
  have hl' : (r : ℝ) ≤ √(w : ℝ) := Real.le_sqrt_of_sq_le (by rw [sq]; exact_mod_cast hl)
  have hu' : √(w : ℝ) < r + 1 := (Real.sqrt_lt' (by positivity)).mpr (by rw [sq]; exact_mod_cast hu)
  by_cases he : r * r = w
  · have hs : √(w : ℝ) = r := by rw [← he]; push_cast; exact Real.sqrt_mul_self (by positivity)
    rw [hs]
    simp [he]
  · have hlt : (r : ℝ) < √(w : ℝ) := by
      refine lt_of_le_of_ne hl' fun h => he ?_
      have := Real.mul_self_sqrt (show (0 : ℝ) ≤ w by positivity)
      rw [← h] at this
      exact_mod_cast this
    have hb : (!(r * r == w)).toNat = 1 := by simp [he]
    rw [hb]
    have cases_n : n ≤ r ∨ (r : ℤ) + 1 ≤ n := by omega
    rcases cases_n with h | h
    · have h' : (n : ℝ) ≤ r := by exact_mod_cast h
      push_cast
      constructor <;> constructor <;> intro _ <;> linarith
    · have h' : (r : ℝ) + 1 ≤ n := by exact_mod_cast h
      push_cast
      constructor <;> constructor <;> intro _ <;> linarith

/-- The root of a number with an even power of two, taken to 60 bits with a last bit for what is left over, is rounded as the
exact root is. -/
theorem deliversRounded_root {f : Format} (hf : f.isFloat = true) (env : Env) {m : ℕ} {e h : ℤ} (hm : m ≠ 0) (hm' : m < 2 ^ 25)
    (he : e - 64 = 2 * h) : DeliversRounded f env √((m : ℝ) * 2 ^ e)
      (roundReal f env false (2 * isqrt (m * 2 ^ 64) 60 0
        + (!(isqrt (m * 2 ^ 64) 60 0 * isqrt (m * 2 ^ 64) 60 0 == m * 2 ^ 64)).toNat) 1 (h - 1)) := by
  obtain ⟨hl, hu⟩ := isqrt_spec (m * 2 ^ 64) 60 0 (by positivity) (by omega)
  set w := m * 2 ^ 64 with hw
  set r := isqrt w 60 0
  set num := 2 * r + (!(r * r == w)).toNat with hnum
  have hr : 2 ^ 32 ≤ r := by
    by_contra hlt
    have : (r + 1) * (r + 1) ≤ 2 ^ 32 * 2 ^ 32 := Nat.mul_le_mul (by omega) (by omega)
    omega
  have hroot : √((m : ℝ) * 2 ^ e) = √(w : ℝ) * 2 ^ h := by
    have : (m : ℝ) * 2 ^ e = w * (2 ^ h * 2 ^ h) := by
      rw [← zpow_add₀ two_ne_zero, hw, show e = 64 + (h + h) by omega, zpow_add₀ two_ne_zero]
      push_cast
      norm_num
      ring
    rw [this, Real.sqrt_mul (by positivity), Real.sqrt_mul_self (by positivity)]
  have hval : ((realOf false num 1 (h - 1) : ℚ) : ℝ) = num * 2 ^ (h - 1) := by simp [realOf]
  have hpos : (0 : ℝ) < 2 ^ (h - 1) := by positivity
  have hpos' : (0 : ℝ) < 2 ^ h := by positivity
  have htwo (n : ℝ) : n * 2 ^ h = 2 * n * 2 ^ (h - 1) := by
    rw [show h = h - 1 + 1 by ring, zpow_add_one₀ two_ne_zero, show h - 1 + 1 - 1 = h - 1 by ring]
    ring
  refine deliversRounded_of_alike hf env (h := h) (by omega) one_ne_zero ?_ (fun n => ?_) fun n => ?_
  · -- the root has 32 bits or more, far beyond the fraction
    have hlead := (leadExp_spec (h - 1) (num := num) (by omega) one_ne_zero).2
    have hge : (2 : ℚ) ^ (33 + (h - 1)) ≤ (num : ℚ) / (1 : ℕ) * 2 ^ (h - 1) := by
      rw [zpow_add₀ two_ne_zero, Nat.cast_one, div_one]
      have : (2 : ℚ) ^ (33 : ℤ) ≤ num := by norm_num; exact_mod_cast (by omega : 8589934592 ≤ num)
      exact mul_le_mul_of_nonneg_right this (by positivity)
    have := (zpow_lt_zpow_iff_right₀ one_lt_two).mp (hge.trans_lt hlead)
    have hfb : (ieeeBits f).2 ≤ 23 := by cases f <;> decide
    omega
  · rw [hval, hroot, mul_lt_mul_iff_left₀ hpos', htwo, mul_lt_mul_iff_left₀ hpos]
    exact (root_sticky hl hu n).1
  · rw [hval, hroot, mul_lt_mul_iff_left₀ hpos', htwo, mul_lt_mul_iff_left₀ hpos]
    exact (root_sticky hl hu n).2

theorem floatSqrt_of_pos {f : Format} (hf : f.isFloat = true) (env : Env) {a : ℕ} (ha : IsFinite f a)
    (h0 : 0 < valueRead f env.fz a) :
    DeliversRounded f env √((valueRead f env.fz a : ℚ) : ℝ) (floatSqrt f env a) := by
  obtain ⟨m, e, hd, hv, hm, -⟩ := decodeFloat_of_isFinite hf env.fz ha
  have hfb : (ieeeBits f).2 ≤ 23 := by cases f <;> decide
  have hm24 : m < 2 ^ 24 := hm.trans_le (Nat.pow_le_pow_right (by omega) (by omega))
  have hm0 : m ≠ 0 := by rintro rfl; rw [← hv, realOf_zero] at h0; exact lt_irrefl _ h0
  have hs : minusSign f a = false := by
    rw [Bool.eq_false_iff]
    intro hneg
    exact h0.not_gt (hv ▸ (realOf_neg_iff hm0 one_ne_zero).mpr hneg)
  have hval : ((valueRead f env.fz a : ℚ) : ℝ) = m * 2 ^ e := by rw [← hv, hs, realOf]; simp
  rw [floatSqrt_of_present hf env ha.ne_absent, hd, ieeeOp_of_none rfl, sqrtVal, if_neg hm0, hs, if_neg (by decide), hval]
  by_cases heven : e % 2 = 0
  · simp only [heven, if_true]
    exact deliversRounded_root hf env hm0 (by omega) (by omega)
  · simp only [heven, if_false]
    have : (m : ℝ) * 2 ^ e = ((2 * m : ℕ) : ℝ) * 2 ^ (e - 1) := by
      rw [show e = e - 1 + 1 by ring, zpow_add_one₀ two_ne_zero, show e - 1 + 1 - 1 = e - 1 by ring]
      push_cast
      ring
    rw [this]
    exact deliversRounded_root hf env (by omega) (by omega) (by omega)

theorem floatSqrt_of_zero {f : Format} (hf : f.isFloat = true) (env : Env) {a : ℕ} (ha : IsFinite f a)
    (h0 : valueRead f env.fz a = 0) :
    floatSqrt f env a = (zeroPattern f (minusSign f a), 0) := by
  obtain ⟨m, e, hd, hv, -, -⟩ := decodeFloat_of_isFinite hf env.fz ha
  have hm : m = 0 := (realOf_eq_zero_iff).mp (hv.trans h0)
  rw [floatSqrt_of_present hf env ha.ne_absent, hd, ieeeOp_of_none rfl, sqrtVal, if_pos hm]

end Sys2Proof.Machine

namespace Sys2Proof.Machine

open Sys2Proof

/-- Settles O29: each operation decodes its operands to the numbers that are read, takes the exact result, and rounds it once
(`deliversNumber_roundReal`); the square root is rounded as a number that lies alike to every half unit. -/
theorem finiteArithmeticRoundsTheExactResultOnce : Obligations.FiniteArithmeticRoundsTheExactResultOnce := by
  unfold Obligations.FiniteArithmeticRoundsTheExactResultOnce
  intro f g env a b c hf ha hb hc
  refine ⟨elemBin_add_of_isFinite hf env ha hb, elemBin_sub_of_isFinite hf env ha hb, elemBin_mul_of_isFinite hf env ha hb,
    elemBin_div_of_isFinite hf env ha hb, floatRcp_of_isFinite hf env ha, elemFma_of_isFinite hf env ha hb hc,
    floatSqrt_of_pos hf env ha, floatSqrt_of_zero hf env ha, fun m _ hm => floatScale_of_isFinite hf env ha hm,
    elemBin_min_of_isFinite hf env ha hb, elemBin_max_of_isFinite hf env ha hb,
    fun k => floatIntegral_of_isFinite hf env ha, fun k => floatIntegral_of_isFinite hf env ha,
    convertElem_float_of_isFinite hf env ha, fun _ hg k => convertElem_int_of_isFinite hf env ha hg, ?_⟩
  intro i _ hi n _ hn
  refine ⟨?_, fun _ hg => ?_⟩
  · rw [convertElem_of_int hi hn, if_pos hf]
    exact deliversNumber_of_int hf env _
  · rw [convertElem_of_int hi hn, hg]
    rfl

end Sys2Proof.Machine

/-! SUPPORT. The kinds of patterns that are no numbers: what each decodes to, and that each pattern is of one kind (R40, R43). -/

namespace Sys2Proof.Machine

open Sys2Proof

theorem testBit_of_lt_two_pow_succ {m k : ℕ} (h : m < 2 ^ (k + 1)) : m.testBit k = decide (2 ^ k ≤ m) := by
  rw [Nat.testBit_eq_decide_div_mod_eq, Nat.mod_eq_of_lt (Nat.div_lt_of_lt_mul (by rwa [← pow_succ]))]
  have hlt : m / 2 ^ k < 2 := Nat.div_lt_of_lt_mul (by rwa [← pow_succ])
  have hpos : 0 < 2 ^ k := by positivity
  rw [decide_eq_decide, ← Nat.one_le_div_iff hpos]
  omega

theorem infPattern_false_eq (f : Format) : infPattern f false = (2 ^ (ieeeBits f).1 - 1) * 2 ^ (ieeeBits f).2 := by
  simp [infPattern, zeroPattern]

theorem infPattern_mod (f : Format) (neg : Bool) : infPattern f neg % 2 ^ magBits f = infPattern f false := by
  rw [infPattern_eq, zeroPattern_add_mod f neg (infPattern_lt f)]

theorem minusSign_infPattern (f : Format) (neg : Bool) : minusSign f (infPattern f neg) = neg := by
  rw [infPattern_eq, minusSign_zeroPattern_add f neg (infPattern_lt f)]

theorem isInf_infPattern (f : Format) (neg : Bool) : IsInf f (infPattern f neg) := by rw [IsInf, minusSign_infPattern]

theorem expField_infPattern (f : Format) (neg : Bool) : expField f (infPattern f neg) = 2 ^ (ieeeBits f).1 - 1 := by
  rw [expField_eq, infPattern_mod, infPattern_false_eq, Nat.mul_div_cancel _ (by positivity)]

theorem fracField_infPattern (f : Format) (neg : Bool) : fracField f (infPattern f neg) = 0 := by
  rw [fracField_eq, infPattern_mod, infPattern_false_eq, Nat.mul_mod_left]

theorem infPattern_lt_absentPattern (f : Format) (neg : Bool) : infPattern f neg < absentPattern f := by
  cases f <;> cases neg <;> decide

theorem IsInf.expField {f : Format} {x : ℕ} (h : IsInf f x) : expField f x = 2 ^ (ieeeBits f).1 - 1 := by
  rw [h, expField_infPattern]

theorem IsInf.fracField {f : Format} {x : ℕ} (h : IsInf f x) : fracField f x = 0 := by rw [h, fracField_infPattern]

theorem IsInf.ne_absent {f : Format} {x : ℕ} (h : IsInf f x) : x ≠ absentPattern f := by
  rw [h]
  exact (infPattern_lt_absentPattern f _).ne

theorem IsNaN.ne_absent {f : Format} {x : ℕ} (h : IsNaN f x) : x ≠ absentPattern f := h.1.ne

theorem decodeFloat_of_isInf {f : Format} (hf : f.isFloat = true) (fz : Bool) {x : ℕ} (h : IsInf f x) :
    decodeFloat f fz x = .inf (minusSign f x) := by
  rw [decodeFloat_eq hf, if_neg h.ne_absent, if_pos h.expField, if_pos h.fracField]

theorem fracField_lt (f : Format) (x : ℕ) : fracField f x < 2 ^ ((ieeeBits f).2 - 1 + 1) := by
  rw [Nat.sub_add_cancel (one_le_ieeeBits_frac f)]
  exact Nat.mod_lt _ (by positivity)

theorem decodeFloat_of_isNaN {f : Format} (hf : f.isFloat = true) (fz : Bool) {x : ℕ} (h : IsNaN f x) :
    decodeFloat f fz x = .nan (minusSign f x) (fracField f x) (decide (fracField f x < 2 ^ ((ieeeBits f).2 - 1))) := by
  rw [decodeFloat_eq hf, if_neg h.ne_absent, if_pos h.2.1, if_neg h.2.2, testBit_of_lt_two_pow_succ (fracField_lt f x)]
  simp only [← decide_not, not_le]

theorem isInf_of_fields {f : Format} {x : ℕ} (hx : x ≤ absentPattern f) (he : expField f x = 2 ^ (ieeeBits f).1 - 1)
    (hm : fracField f x = 0) : IsInf f x := by
  rw [expField_eq] at he
  rw [fracField_eq] at hm
  have hmod : x % 2 ^ magBits f = infPattern f false := by
    rw [infPattern_false_eq, ← he, Nat.div_mul_cancel (Nat.dvd_of_mod_eq_zero hm)]
  rw [IsInf, infPattern_eq, ← hmod, sign_add_magnitude hx]

/-- Every pattern is absent, finite, infinite or a NaN. -/
theorem pattern_cases {f : Format} {x : ℕ} (hx : x ≤ absentPattern f) : x = absentPattern f ∨ IsFinite f x ∨ IsInf f x
    ∨ IsNaN f x := by
  by_cases h0 : x = absentPattern f
  · exact .inl h0
  by_cases he : expField f x = 2 ^ (ieeeBits f).1 - 1
  · by_cases hm : fracField f x = 0
    · exact .inr (.inr (.inl (isInf_of_fields hx he hm)))
    · exact .inr (.inr (.inr ⟨lt_of_le_of_ne hx h0, he, hm⟩))
  · exact .inr (.inl ⟨hx, he⟩)

theorem IsNaN.not_isFinite {f : Format} {x : ℕ} (h : IsNaN f x) : ¬IsFinite f x := fun h' => h'.2 h.2.1

theorem IsInf.not_isFinite {f : Format} {x : ℕ} (h : IsInf f x) : ¬IsFinite f x := fun h' => h'.2 h.expField

theorem IsNaN.not_isInf {f : Format} {x : ℕ} (h : IsNaN f x) : ¬IsInf f x := fun h' => h.2.2 h'.fracField

end Sys2Proof.Machine

/-! SUPPORT. A block group taken apart: its operands, its scale, its shifts, its elements, and its number (R47 to R49). -/

namespace Sys2Proof.Machine

open Sys2Proof

/-! Magnitudes. -/

/-- The number of a magnitude. -/
def magnitudeOf (t : ℕ × ℕ × ℤ) : ℚ := (t.1 : ℚ) / t.2.1 * 2 ^ t.2.2

/-- What a value counts as in a block, an infinity as 2 to the 128 (R49). -/
def blockValue (v : Val) : ℚ := realOf v.isNeg v.magnitude.1 v.magnitude.2.1 v.magnitude.2.2

theorem abs_blockValue (v : Val) : |blockValue v| = magnitudeOf v.magnitude := abs_realOf _ _ _ _

/-- A value whose quotient has a divisor. -/
def Val.divides (v : Val) : Prop := v.magnitude.2.1 ≠ 0

theorem magLt_iff {s t : ℕ × ℕ × ℤ} (hs : s.2.1 ≠ 0) (ht : t.2.1 ≠ 0) : magLt s t = true ↔ magnitudeOf s < magnitudeOf t := by
  obtain ⟨n1, d1, e1⟩ := s
  obtain ⟨n2, d2, e2⟩ := t
  have split {e e0 : ℤ} (h : e0 ≤ e) : (2 : ℚ) ^ e = 2 ^ (e - e0).toNat * 2 ^ e0 := by
    rw [← zpow_natCast, ← zpow_add₀ two_ne_zero]
    congr 1
    omega
  have h1 : (0 : ℚ) < d1 := by exact_mod_cast Nat.pos_of_ne_zero hs
  have h2 : (0 : ℚ) < d2 := by exact_mod_cast Nat.pos_of_ne_zero ht
  have h0 : (0 : ℚ) < 2 ^ min e1 e2 := by positivity
  simp only [magLt, magnitudeOf, decide_eq_true_iff]
  rw [← Nat.cast_lt (α := ℚ), split (min_le_left e1 e2), split (min_le_right e1 e2), ← mul_assoc, ← mul_assoc,
    mul_lt_mul_iff_left₀ h0, div_mul_eq_mul_div, div_mul_eq_mul_div, div_lt_div_iff₀ h1 h2]
  push_cast
  rfl

/-- The largest magnitude of the present values bounds them all and is one of them, or zero. -/
theorem maxMagnitude_spec {vs : List Val} (hvs : ∀ v ∈ vs, v.divides) :
    (maxMagnitude vs).2.1 ≠ 0 ∧ (∀ v ∈ vs, v.present = true → |blockValue v| ≤ magnitudeOf (maxMagnitude vs))
      ∧ (maxMagnitude vs = (0, 1, 0) ∨ ∃ v ∈ vs, v.present = true ∧ maxMagnitude vs = v.magnitude) := by
  induction vs using List.reverseRecOn with
  | nil => exact ⟨one_ne_zero, by simp, .inl rfl⟩
  | append_singleton vs v ih =>
    obtain ⟨hd, hle, hex⟩ := ih fun w hw => hvs w (by simp [hw])
    have hv : v.divides := hvs v (by simp)
    have hstep : maxMagnitude (vs ++ [v])
        = if v.present && magLt (maxMagnitude vs) v.magnitude then v.magnitude else maxMagnitude vs := by
      rw [maxMagnitude, List.foldl_append]
      rfl
    by_cases h : v.present = true ∧ magLt (maxMagnitude vs) v.magnitude = true
    · have hlt := (magLt_iff hd hv).mp h.2
      rw [hstep, if_pos (by simpa using h)]
      refine ⟨hv, fun w hw hp => ?_, .inr ⟨v, by simp, h.1, rfl⟩⟩
      rcases List.mem_append.mp hw with hw | hw
      · exact (hle w hw hp).trans hlt.le
      · rw [List.mem_singleton.mp hw, abs_blockValue]
    · rw [hstep, if_neg (by simpa using h)]
      refine ⟨hd, fun w hw hp => ?_, hex.imp_right fun ⟨w, hw, hp, he⟩ => ⟨w, by simp [hw], hp, he⟩⟩
      rcases List.mem_append.mp hw with hw | hw
      · exact hle w hw hp
      · obtain rfl := List.mem_singleton.mp hw
        rw [abs_blockValue]
        exact not_lt.mp fun hlt => h ⟨hp, (magLt_iff hd hv).mpr hlt⟩

/-- The largest magnitude lies below a positive number as all the present ones do. -/
theorem maxMagnitude_lt_iff {vs : List Val} (hvs : ∀ v ∈ vs, v.divides) {t : ℚ} (ht : 0 < t) :
    magnitudeOf (maxMagnitude vs) < t ↔ ∀ v ∈ vs, v.present = true → |blockValue v| < t := by
  obtain ⟨-, hle, hex⟩ := maxMagnitude_spec hvs
  constructor
  · exact fun h v hv hp => (hle v hv hp).trans_lt h
  · intro h
    rcases hex with h0 | ⟨v, hv, hp, he⟩
    · rw [h0]
      simpa [magnitudeOf] using ht
    · rw [he, ← abs_blockValue]
      exact h v hv hp

/-! The parts of a group. -/

/-- A NaN taken as absent (R49). -/
def Val.orAbsent : Val → Val
  | .nan _ _ _ => .absent
  | v => v

/-- The value is a NaN. -/
def Val.isNaN : Val → Bool
  | .nan _ _ _ => true
  | _ => false

/-- The exponent byte of a group (R49). -/
def groupScale (vs : List Val) : ℕ :=
  let amax := maxMagnitude vs
  (max 0 (min 254 ((if amax.1 = 0 then -127 else leadExp amax.1 amax.2.1 amax.2.2) + 127))).toNat

/-- The shift that a largest magnitude takes under an exponent byte (R49). -/
def shiftOf (x : ℕ) (qmax : ℕ × ℕ × ℤ) : ℕ :=
  ([1, 2, 3] : List ℕ).foldl (fun (a k : ℕ) => if magLt qmax (1, 1, (x : ℤ) - 127 - k + 1) then k else a) 0

/-- The shift of a quad (R49). -/
def groupShift (vs : List Val) (u : ℕ) : ℕ := shiftOf (groupScale vs) (maxMagnitude ((vs.drop (4 * u)).take 4))

/-- The exponent of the unit of an element. -/
def groupUnit (m : ℕ) (vs : List Val) (i : ℕ) : ℤ := (groupScale vs : ℤ) - 127 - groupShift vs (i / 4) - m + 1

/-- The magnitude of an element in units, rounded, and what is left over. -/
def blockUnits (mode : Rounding) (q : ℤ) (v : Val) : ℕ × ℕ :=
  let s := scaled v.magnitude.1 v.magnitude.2.1 v.magnitude.2.2 q
  (roundInt mode v.isNeg s.1 s.2.1 s.2.2, s.2.1)

/-- The field and the flags of a present element whose unit is 2 to the `q` (R49). -/
def presentField (mode : Rounding) (m : ℕ) (q : ℤ) (v : Val) : ℕ × ℕ :=
  (patternOf (m + 1) (toInt v.isNeg (min (blockUnits mode q v).1 (2 ^ m - 1))),
    joinFlags [if v = .inf true ∨ v = .inf false then flagOF else 0, if (blockUnits mode q v).2 = 0 then 0 else flagNX,
      if (blockUnits mode q v).1 = 0 ∧ v.magnitude.1 ≠ 0 then flagUF else 0])

/-- The field and the flags of an element (R49). -/
def groupField (mode : Rounding) (m : ℕ) (q : ℤ) : Val → ℕ × ℕ
  | .absent => (2 ^ m, 0)
  | v => presentField mode m q v

/-- The fields and flags of a group, element by element. -/
def groupFields (mode : Rounding) (m : ℕ) (vs : List Val) : List (ℕ × ℕ) :=
  vs.zipIdx.map fun p => groupField mode m (groupUnit m vs p.2) p.1

/-- The invalid flag where a value is a NaN. -/
def nanFlag (vs : List Val) : ℕ := if vs.any Val.isNaN then flagNV else 0

/-- The number of a group: the exponent byte, the shifts, and the fields above them. -/
def groupNumber (mode : Rounding) (m : ℕ) (vs : List Val) : ℕ :=
  groupScale vs + 256 * (groupShift vs 0 + 4 * groupShift vs 1 + 16 * groupShift vs 2 + 64 * groupShift vs 3)
    + 65536 * ((groupFields mode m vs).map Prod.fst).foldr (fun d acc => d + 2 ^ (m + 1) * acc) 0

theorem orAbsent_eq : (fun v : Val => if v.isNaN then Val.absent else v) = Val.orAbsent := by
  funext v
  cases v <;> rfl

theorem encodeBlock_eq (f : Format) (mode : Rounding) (vs : List Val) :
    encodeBlock f mode vs = if (vs.map Val.orAbsent).all fun v => !v.present then (255, nanFlag vs)
      else (groupNumber mode (Format.mant f) (vs.map Val.orAbsent),
        orFlags (nanFlag vs) (joinFlags ((groupFields mode (Format.mant f) (vs.map Val.orAbsent)).map Prod.snd))) := by
  rw [← orAbsent_eq]
  simp only [groupNumber, List.foldr_map]
  rfl

end Sys2Proof.Machine

/-! SUPPORT. The fields of a group's number and what each element's field holds (R47 to R49). -/

namespace Sys2Proof.Machine

open Sys2Proof

/-! Flags. -/

theorem testBit_joinFlags (l : List ℕ) (i : ℕ) : (joinFlags l).testBit i = true ↔ ∃ x ∈ l, x.testBit i = true := by
  have h (a : ℕ) : (l.foldl orFlags a).testBit i = true ↔ a.testBit i = true ∨ ∃ x ∈ l, x.testBit i = true := by
    induction l generalizing a with
    | nil => simp
    | cons y l ih =>
      have hor : (orFlags a y).testBit i = (a.testBit i || y.testBit i) := Nat.testBit_or a y i
      simp [ih, hor, or_assoc]
  simpa [joinFlags] using h 0

theorem joinFlags_lt {l : List ℕ} {n : ℕ} (h : ∀ x ∈ l, x < 2 ^ n) : joinFlags l < 2 ^ n := by
  refine Nat.lt_pow_two_of_testBit _ fun i hi => ?_
  rw [Bool.eq_false_iff, ne_eq, testBit_joinFlags]
  rintro ⟨x, hx, hb⟩
  rw [Nat.testBit_lt_two_pow ((h x hx).trans_le (Nat.pow_le_pow_right two_pos hi))] at hb
  exact Bool.false_ne_true hb

theorem testBit_ite (p : Prop) [Decidable p] (n i : ℕ) : (if p then n else 0).testBit i = true ↔ p ∧ n.testBit i = true := by
  split <;> simp_all

theorem testBit_ite_zero (p : Prop) [Decidable p] (n i : ℕ) : (if p then 0 else n).testBit i = true ↔ ¬p ∧ n.testBit i = true := by
  split <;> simp_all

/-! Digits. -/

theorem foldr_digits_lt {B : ℕ} {l : List ℕ} (h : ∀ d ∈ l, d < B) : l.foldr (fun d acc => d + B * acc) 0 < B ^ l.length := by
  induction l with
  | nil => simp
  | cons d l ih =>
    have hd : d < B := h d (by simp)
    have hacc := ih fun x hx => h x (by simp [hx])
    rw [List.foldr_cons, List.length_cons, pow_succ']
    calc d + B * l.foldr (fun d acc => d + B * acc) 0 < B * (l.foldr (fun d acc => d + B * acc) 0 + 1) := by rw [mul_add]; omega
      _ ≤ B * B ^ l.length := Nat.mul_le_mul_left B hacc

theorem foldr_digits_div_mod {B : ℕ} (l : List ℕ) (h : ∀ d ∈ l, d < B) (i : ℕ) :
    l.foldr (fun d acc => d + B * acc) 0 / B ^ i % B = l.getD i 0 := by
  induction l generalizing i with
  | nil => simp
  | cons d l ih =>
    have hd : d < B := h d (by simp)
    cases i with
    | zero => simp [Nat.add_mul_mod_self_left, Nat.mod_eq_of_lt hd]
    | succ i =>
      rw [List.foldr_cons, pow_succ', ← Nat.div_div_eq_div_mul, Nat.add_mul_div_left _ _ (by omega), Nat.div_eq_of_lt hd,
        Nat.zero_add, ih fun x hx => h x (by simp [hx])]
      rfl

/-! The scale and the shifts. -/

theorem groupScale_le (vs : List Val) : groupScale vs ≤ 254 := by
  simp only [groupScale]
  omega

theorem cast_groupScale (vs : List Val) : (groupScale vs : ℤ) = max 0 (min 254 ((if (maxMagnitude vs).1 = 0 then -127
    else leadExp (maxMagnitude vs).1 (maxMagnitude vs).2.1 (maxMagnitude vs).2.2) + 127)) := by
  simp only [groupScale]
  omega

theorem shiftOf_le (x : ℕ) (q : ℕ × ℕ × ℤ) : shiftOf x q ≤ 3 := by
  simp only [shiftOf, List.foldl_cons, List.foldl_nil]
  split_ifs <;> omega

/-- Of the numbers to 3, the last that has a property which each number below one that has it has too. -/
theorem le_last_iff {p : ℕ → Prop} [DecidablePred p] (mono : ∀ i j, i ≤ j → p j → p i) {k : ℕ} (hk : k ≤ 3) :
    k ≤ ([1, 2, 3] : List ℕ).foldl (fun a k => if p k then k else a) 0 ↔ k = 0 ∨ p k := by
  have h12 := mono 1 2 (by omega)
  have h23 := mono 2 3 (by omega)
  simp only [List.foldl_cons, List.foldl_nil]
  by_cases h3 : p 3
  · rw [if_pos h3]
    exact ⟨fun _ => .inr (mono k 3 hk h3), fun _ => hk⟩
  · rw [if_neg h3]
    interval_cases k <;> split_ifs <;> simp_all

/-- The shift is the largest that keeps the magnitude below the scale. -/
theorem le_shiftOf_iff (x : ℕ) {q : ℕ × ℕ × ℤ} (hq : q.2.1 ≠ 0) {k : ℕ} (hk : k ≤ 3) :
    k ≤ shiftOf x q ↔ k = 0 ∨ magnitudeOf q < 2 ^ ((x : ℤ) - 127 - k + 1) := by
  have fits (k : ℕ) : magLt q (1, 1, (x : ℤ) - 127 - k + 1) = true ↔ magnitudeOf q < 2 ^ ((x : ℤ) - 127 - k + 1) := by
    rw [magLt_iff hq one_ne_zero]
    simp [magnitudeOf]
  simp only [shiftOf, fits]
  exact le_last_iff (p := fun k => magnitudeOf q < 2 ^ ((x : ℤ) - 127 - k + 1))
    (fun i j hij h => h.trans_le (zpow_le_zpow_right₀ one_le_two (by omega))) hk

/-! The fields of the number. -/

section Fields

variable (mode : Rounding) (m : ℕ) (vs : List Val)

theorem groupField_absent (q : ℤ) : groupField mode m q .absent = (2 ^ m, 0) := rfl

theorem groupField_of_present {v : Val} (q : ℤ) (h : v.present = true) : groupField mode m q v = presentField mode m q v := by
  cases v with
  | absent => exact absurd h (by decide)
  | _ => rfl

theorem patternOf_lt (w : ℕ) (x : ℤ) : patternOf w x < 2 ^ w := by
  have h0 := Int.emod_nonneg x (show (2 : ℤ) ^ w ≠ 0 by positivity)
  have h1 := Int.emod_lt_of_pos x (show (0 : ℤ) < 2 ^ w by positivity)
  rw [patternOf]
  zify
  rwa [Int.toNat_of_nonneg h0]

theorem groupField_lt (q : ℤ) (v : Val) : (groupField mode m q v).1 < 2 ^ (m + 1) := by
  by_cases h : v.present = true
  · rw [groupField_of_present mode m q h]
    exact patternOf_lt _ _
  · obtain rfl : v = .absent := by cases v <;> simp_all [Val.present]
    exact Nat.pow_lt_pow_right (by omega) (by omega)

theorem groupFields_length : (groupFields mode m vs).length = vs.length := by simp [groupFields]

theorem groupFields_getElem {i : ℕ} (hi : i < vs.length) :
    (groupFields mode m vs)[i]? = some (groupField mode m (groupUnit m vs i) vs[i]) := by
  simp [groupFields, hi]

theorem mem_groupFields {p : ℕ × ℕ} :
    p ∈ groupFields mode m vs ↔ ∃ (i : ℕ) (hi : i < vs.length), p = groupField mode m (groupUnit m vs i) vs[i] := by
  rw [List.mem_iff_getElem?]
  constructor
  · rintro ⟨i, hi⟩
    have hlt : i < vs.length := groupFields_length mode m vs ▸ (List.getElem?_eq_some_iff.mp hi).1
    rw [groupFields_getElem mode m vs hlt, Option.some_inj] at hi
    exact ⟨i, hlt, hi.symm⟩
  · rintro ⟨i, hi, rfl⟩
    exact ⟨i, groupFields_getElem mode m vs hi⟩

theorem digits_lt : ∀ d ∈ (groupFields mode m vs).map Prod.fst, d < 2 ^ (m + 1) := by
  intro d hd
  obtain ⟨p, hp, rfl⟩ := List.mem_map.mp hd
  obtain ⟨i, hi, rfl⟩ := (mem_groupFields mode m vs).mp hp
  exact groupField_lt mode m _ _

theorem groupShift_le (u : ℕ) : groupShift vs u ≤ 3 := shiftOf_le _ _

theorem shiftByte_lt : groupShift vs 0 + 4 * groupShift vs 1 + 16 * groupShift vs 2 + 64 * groupShift vs 3 < 256 := by
  have h0 := groupShift_le vs 0
  have h1 := groupShift_le vs 1
  have h2 := groupShift_le vs 2
  have h3 := groupShift_le vs 3
  omega

theorem groupNumber_scale : groupNumber mode m vs % 256 = groupScale vs := by
  have := groupScale_le vs
  rw [groupNumber]
  omega

theorem groupNumber_shift {u : ℕ} (hu : u < 4) : groupNumber mode m vs / 2 ^ (8 + 2 * u) % 4 = groupShift vs u := by
  have := groupScale_le vs
  have h0 := groupShift_le vs 0
  have h1 := groupShift_le vs 1
  have h2 := groupShift_le vs 2
  have h3 := groupShift_le vs 3
  rw [groupNumber]
  interval_cases u <;> norm_num <;> omega

theorem groupNumber_body : groupNumber mode m vs / 65536
    = ((groupFields mode m vs).map Prod.fst).foldr (fun d acc => d + 2 ^ (m + 1) * acc) 0 := by
  have := groupScale_le vs
  have := shiftByte_lt vs
  rw [groupNumber]
  omega

theorem groupNumber_field {i : ℕ} (hi : i < vs.length) :
    groupNumber mode m vs / 2 ^ (16 + (m + 1) * i) % 2 ^ (m + 1) = (groupField mode m (groupUnit m vs i) vs[i]).1 := by
  rw [pow_add 2 16, ← Nat.div_div_eq_div_mul, show (2 : ℕ) ^ 16 = 65536 from rfl, groupNumber_body, pow_mul,
    foldr_digits_div_mod _ (digits_lt mode m vs), List.getD_eq_getElem?_getD, List.getElem?_map, groupFields_getElem mode m vs hi]
  rfl

theorem groupNumber_lt (hlen : vs.length = 16) : groupNumber mode m vs < 256 ^ (2 * (m + 1) + 2) := by
  have hbody := foldr_digits_lt (digits_lt mode m vs)
  rw [← groupNumber_body, List.length_map, groupFields_length, hlen, Nat.div_lt_iff_lt_mul (by norm_num)] at hbody
  have hpow : (256 : ℕ) ^ (2 * (m + 1) + 2) = (2 ^ (m + 1)) ^ 16 * 65536 := by
    rw [show (256 : ℕ) = 2 ^ 8 from rfl, ← pow_mul, ← pow_mul, show (65536 : ℕ) = 2 ^ 16 from rfl, ← pow_add]
    congr 1
    ring
  rwa [hpow]

end Fields

/-! What an element's field holds. -/

theorem clamp_sign (neg : Bool) (n : ℕ) {N : ℤ} (hN : 0 ≤ N) :
    max (-N) (min N ((if neg then -1 else 1) * (n : ℤ))) = if neg then -min (n : ℤ) N else min (n : ℤ) N := by
  cases neg <;> simp <;> omega

section Element

variable (mode : Rounding) (m : ℕ) (q : ℤ) {v : Val} (hv : v.divides)

include hv

/-- The units of an element are its value over its unit, rounded; nothing is left over where that is an integer. -/
theorem blockUnits_spec : RoundsTo mode ((blockValue v / 2 ^ q : ℚ) : ℝ)
    ((if v.isNeg then -1 else 1) * ((blockUnits mode q v).1 : ℤ))
    ∧ ((blockUnits mode q v).2 = 0 ↔ ∃ k : ℤ, (k : ℚ) = blockValue v / 2 ^ q) := by
  obtain ⟨hround, hexact⟩ := round_scaled (num := v.magnitude.1) (exp := v.magnitude.2.2) (q := q) mode v.isNeg hv rfl
  refine ⟨hround, hexact.trans ⟨fun h => ⟨_, h⟩, ?_⟩⟩
  rintro ⟨k, hk⟩
  have hk' : ((realOf v.isNeg v.magnitude.1 v.magnitude.2.1 v.magnitude.2.2 / 2 ^ q : ℚ) : ℝ) = k := by exact_mod_cast hk.symm
  rw [hround.eq_of_eq hk']
  exact hk

theorem presentField_fst {k : ℤ} (hk : RoundsTo mode ((blockValue v / 2 ^ q : ℚ) : ℝ) k) :
    (presentField mode m q v).1 = (max (-(2 ^ m - 1)) (min (2 ^ m - 1) k) % 2 ^ (m + 1)).toNat := by
  obtain rfl := hk.unique (blockUnits_spec mode q hv).1
  have hm : (1 : ℤ) ≤ 2 ^ m := by exact_mod_cast Nat.one_le_two_pow
  have hc : ((min (blockUnits mode q v).1 (2 ^ m - 1) : ℕ) : ℤ) = min ((blockUnits mode q v).1 : ℤ) (2 ^ m - 1) := by
    rw [Nat.cast_min, Nat.cast_sub Nat.one_le_two_pow]
    push_cast
    rfl
  rw [presentField, patternOf, toInt, hc, clamp_sign _ _ (by omega)]

omit hv in
theorem presentField_flag (i : ℕ) : (presentField mode m q v).2.testBit i = true ↔
    ((v = .inf true ∨ v = .inf false) ∧ flagOF.testBit i = true) ∨ ((blockUnits mode q v).2 ≠ 0 ∧ flagNX.testBit i = true)
      ∨ ((blockUnits mode q v).1 = 0 ∧ v.magnitude.1 ≠ 0) ∧ flagUF.testBit i = true := by
  simp only [presentField, testBit_joinFlags, List.mem_cons, List.not_mem_nil, or_false, exists_eq_or_imp, exists_eq_left,
    testBit_ite, testBit_ite_zero, ne_eq]

theorem presentField_inexact : (presentField mode m q v).2.testBit 0 = true ↔ ∀ k : ℤ, (k : ℚ) ≠ blockValue v / 2 ^ q := by
  rw [presentField_flag, (show (blockUnits mode q v).2 ≠ 0 ↔ _ from (blockUnits_spec mode q hv).2.not), not_exists]
  simp [flagOF, flagNX, flagUF, Nat.testBit]

theorem blockValue_eq_zero_iff : blockValue v = 0 ↔ v.magnitude.1 = 0 := realOf_eq_zero_iff hv

theorem presentField_underflow : (presentField mode m q v).2.testBit 1 = true ↔
    blockValue v ≠ 0 ∧ RoundsTo mode ((blockValue v / 2 ^ q : ℚ) : ℝ) 0 := by
  have hround := (blockUnits_spec mode q hv).1
  have h0 : (blockUnits mode q v).1 = 0 ↔ RoundsTo mode ((blockValue v / 2 ^ q : ℚ) : ℝ) 0 := by
    constructor
    · intro h
      simpa [h] using hround
    · intro h
      have := hround.unique h
      cases hneg : v.isNeg <;> simpa [hneg] using this
  rw [presentField_flag, ← h0]
  simp [flagOF, flagNX, flagUF, Nat.testBit, blockValue_eq_zero_iff hv, and_comm]

omit hv in
theorem presentField_overflow : (presentField mode m q v).2.testBit 2 = true ↔ v = .inf true ∨ v = .inf false := by
  rw [presentField_flag]
  simp [flagOF, flagNX, flagUF, Nat.testBit]

omit hv in
theorem groupField_flags_lt (v : Val) : (groupField mode m q v).2 < 2 ^ 3 := by
  by_cases h : v.present = true
  · rw [groupField_of_present mode m q h]
    refine joinFlags_lt fun x hx => ?_
    simp only [List.mem_cons, List.not_mem_nil, or_false] at hx
    rcases hx with rfl | rfl | rfl <;> split_ifs <;> decide
  · obtain rfl : v = .absent := by cases v <;> simp_all [Val.present]
    exact Nat.two_pow_pos 3

end Element

end Sys2Proof.Machine

/-! SUPPORT. Sixteen fp32 patterns as the operands of a block group, and what their group holds (R47 to R49). -/

namespace Sys2Proof.Machine

open Sys2Proof

/-! Operands. -/

/-- A pattern of fp32 that a group takes as a value: it is neither absent nor a NaN (R49). -/
def BlockPresent (x : ℕ) : Prop := IsFinite .fp32 x ∨ IsInf .fp32 x

/-- The number of a pattern in a group: an infinity counts as 2 to the 128 (R49). -/
def blockNumber (fz : Bool) (x : ℕ) : ℚ :=
  if x = 0x7F800000 then 2 ^ 128 else if x = 0xFF800000 then -2 ^ 128 else valueRead .fp32 fz x

/-- A pattern decoded for a group. -/
def blockOperand (fz : Bool) (x : ℕ) : Val := (decodeFloat .fp32 fz x).orAbsent

theorem isInf_fp32_iff {x : ℕ} : IsInf .fp32 x ↔ x = 0x7F800000 ∨ x = 0xFF800000 := by
  constructor
  · intro h
    have h' : x = infPattern .fp32 (minusSign .fp32 x) := h
    cases hs : minusSign .fp32 x <;> rw [hs] at h'
    · exact .inl h'
    · exact .inr h'
  · rintro (rfl | rfl)
    · exact isInf_infPattern .fp32 false
    · exact isInf_infPattern .fp32 true

theorem blockNumber_of_isFinite (fz : Bool) {x : ℕ} (h : IsFinite .fp32 x) : blockNumber fz x = valueRead .fp32 fz x := by
  have hinf : ¬(x = 0x7F800000 ∨ x = 0xFF800000) := fun h' => (isInf_fp32_iff.mpr h').not_isFinite h
  rw [not_or] at hinf
  rw [blockNumber, if_neg hinf.1, if_neg hinf.2]

theorem blockOperand_of_isFinite (fz : Bool) {x : ℕ} (h : IsFinite .fp32 x) : (blockOperand fz x).present = true
    ∧ (blockOperand fz x).divides ∧ blockValue (blockOperand fz x) = blockNumber fz x ∧ ∀ s, blockOperand fz x ≠ .inf s := by
  obtain ⟨m, e, hd, hv, -, -⟩ := decodeFloat_of_isFinite rfl fz h
  have hop : blockOperand fz x = .real (minusSign .fp32 x) m 1 e := by
    rw [blockOperand, hd, Val.orAbsent]
    simp
  rw [hop, blockNumber_of_isFinite fz h]
  exact ⟨rfl, one_ne_zero, hv, by simp⟩

theorem blockOperand_of_isInf (fz : Bool) {x : ℕ} (h : IsInf .fp32 x) : (blockOperand fz x).present = true
    ∧ (blockOperand fz x).divides ∧ blockValue (blockOperand fz x) = blockNumber fz x
    ∧ (blockOperand fz x = .inf true ∨ blockOperand fz x = .inf false) := by
  have hop : blockOperand fz x = .inf (minusSign .fp32 x) := by
    rw [blockOperand, decodeFloat_of_isInf rfl fz h, Val.orAbsent]
    simp
  rw [hop]
  refine ⟨rfl, one_ne_zero, ?_, by cases minusSign .fp32 x <;> simp⟩
  have hnum : blockNumber fz x = if minusSign .fp32 x then -2 ^ 128 else 2 ^ 128 := by
    rcases isInf_fp32_iff.mp h with rfl | rfl <;> rfl
  rw [hnum]
  cases minusSign .fp32 x <;> norm_num [blockValue, realOf, Val.isNeg, Val.magnitude]

theorem blockOperand_of_not_present (fz : Bool) {x : ℕ} (hx : x ≤ absentPattern .fp32) (h : ¬BlockPresent x) :
    blockOperand fz x = .absent := by
  rcases pattern_cases hx with rfl | hfin | hinf | hnan
  · rw [blockOperand, decodeFloat_absent rfl, Val.orAbsent]
    simp
  · exact absurd (.inl hfin) h
  · exact absurd (.inr hinf) h
  · rw [blockOperand, decodeFloat_of_isNaN rfl fz hnan, Val.orAbsent]

theorem isNaN_decodeFloat (fz : Bool) {x : ℕ} (hx : x ≤ absentPattern .fp32) :
    (decodeFloat .fp32 fz x).isNaN = true ↔ IsNaN .fp32 x := by
  rcases pattern_cases hx with rfl | hfin | hinf | hnan
  · rw [decodeFloat_absent rfl]
    exact ⟨fun h => absurd h (by decide), fun h => absurd rfl h.ne_absent⟩
  · obtain ⟨m, e, hd, -⟩ := decodeFloat_of_isFinite rfl fz hfin
    rw [hd]
    exact ⟨fun h => absurd h (by simp [Val.isNaN]), fun h => absurd hfin h.not_isFinite⟩
  · rw [decodeFloat_of_isInf rfl fz hinf]
    exact ⟨fun h => absurd h (by simp [Val.isNaN]), fun h => absurd hinf h.not_isInf⟩
  · rw [decodeFloat_of_isNaN rfl fz hnan]
    exact ⟨fun _ => hnan, fun _ => rfl⟩

section Operand

variable (fz : Bool) {x : ℕ} (hx : x ≤ absentPattern .fp32)

theorem BlockPresent.operand (h : BlockPresent x) :
    (blockOperand fz x).present = true ∧ (blockOperand fz x).divides ∧ blockValue (blockOperand fz x) = blockNumber fz x := by
  rcases h with h | h
  · obtain ⟨h1, h2, h3, -⟩ := blockOperand_of_isFinite fz h
    exact ⟨h1, h2, h3⟩
  · obtain ⟨h1, h2, h3, -⟩ := blockOperand_of_isInf fz h
    exact ⟨h1, h2, h3⟩

include hx

theorem blockOperand_present_iff : (blockOperand fz x).present = true ↔ BlockPresent x := by
  refine ⟨fun h => ?_, fun h => (h.operand fz).1⟩
  by_contra hn
  rw [blockOperand_of_not_present fz hx hn] at h
  exact absurd h (by decide)

theorem blockOperand_divides : (blockOperand fz x).divides := by
  by_cases h : BlockPresent x
  · exact (h.operand fz).2.1
  · rw [blockOperand_of_not_present fz hx h]
    exact one_ne_zero

theorem blockOperand_isInf_iff : (blockOperand fz x = .inf true ∨ blockOperand fz x = .inf false) ↔ IsInf .fp32 x := by
  constructor
  · intro h
    have hp : BlockPresent x := (blockOperand_present_iff fz hx).mp (by rcases h with h | h <;> rw [h] <;> rfl)
    refine hp.resolve_left fun hfin => ?_
    obtain ⟨-, -, -, hne⟩ := blockOperand_of_isFinite fz hfin
    rcases h with h | h
    · exact hne _ h
    · exact hne _ h
  · exact fun h => (blockOperand_of_isInf fz h).2.2.2

end Operand

/-! A group of sixteen. -/

section Group

variable (f : Format) (mode : Rounding) (fz : Bool) {xs : List ℕ} (hlen : xs.length = 16) (hxs : ∀ x ∈ xs, x ≤ absentPattern .fp32)

include hxs

theorem operands_divide : ∀ v ∈ xs.map (blockOperand fz), v.divides := by
  intro v hv
  obtain ⟨x, hx, rfl⟩ := List.mem_map.mp hv
  exact blockOperand_divides fz (hxs x hx)

/-- The largest magnitude of some of the operands lies below a positive number as all their numbers do. -/
theorem maxMagnitude_operands_lt_iff {t : ℚ} (ht : 0 < t) : magnitudeOf (maxMagnitude (xs.map (blockOperand fz))) < t
    ↔ ∀ x ∈ xs, BlockPresent x → |blockNumber fz x| < t := by
  rw [maxMagnitude_lt_iff (operands_divide fz hxs) ht, List.forall_mem_map]
  refine forall₂_congr fun x hx => ?_
  rw [blockOperand_present_iff fz (hxs x hx)]
  exact forall_congr' fun hp => by rw [(hp.operand fz).2.2]

theorem nanFlag_decoded : nanFlag (xs.map (decodeFloat .fp32 fz)) = 16 ∧ (∃ x ∈ xs, IsNaN .fp32 x)
    ∨ nanFlag (xs.map (decodeFloat .fp32 fz)) = 0 ∧ ¬∃ x ∈ xs, IsNaN .fp32 x := by
  have h : (xs.map (decodeFloat .fp32 fz)).any Val.isNaN = true ↔ ∃ x ∈ xs, IsNaN .fp32 x := by
    rw [List.any_map, List.any_eq_true]
    exact exists_congr fun x => and_congr_right fun hx => isNaN_decodeFloat fz (hxs x hx)
  rw [← h, nanFlag]
  by_cases hany : (xs.map (decodeFloat .fp32 fz)).any Val.isNaN = true
  · exact .inl ⟨if_pos hany, hany⟩
  · exact .inr ⟨if_neg hany, hany⟩

theorem all_absent_iff : ((xs.map (blockOperand fz)).all fun v => !v.present) = true ↔ ∀ x ∈ xs, ¬BlockPresent x := by
  rw [List.all_map, List.all_eq_true]
  refine forall₂_congr fun x hx => ?_
  rw [← blockOperand_present_iff fz (hxs x hx)]
  simp

theorem encodeBlock_of_absent (h : ∀ x ∈ xs, ¬BlockPresent x) :
    encodeBlock f mode (xs.map (decodeFloat .fp32 fz)) = (255, nanFlag (xs.map (decodeFloat .fp32 fz))) := by
  rw [encodeBlock_eq, List.map_map]
  exact if_pos ((all_absent_iff fz hxs).mpr h)

theorem encodeBlock_of_present (h : ∃ x ∈ xs, BlockPresent x) :
    encodeBlock f mode (xs.map (decodeFloat .fp32 fz)) = (groupNumber mode (Format.mant f) (xs.map (blockOperand fz)),
      orFlags (nanFlag (xs.map (decodeFloat .fp32 fz)))
        (joinFlags ((groupFields mode (Format.mant f) (xs.map (blockOperand fz))).map Prod.snd))) := by
  rw [encodeBlock_eq, List.map_map]
  refine if_neg fun hall => ?_
  obtain ⟨x, hx, hp⟩ := h
  exact (all_absent_iff fz hxs).mp hall x hx hp

/-- The exponent byte of a group is that of the binade of the largest magnitude, within the byte's range. -/
theorem groupScale_of_binade {e : ℤ} (hlt : ∀ x ∈ xs, BlockPresent x → |blockNumber fz x| < 2 ^ (e + 1))
    (hge : ∃ x ∈ xs, BlockPresent x ∧ (2 : ℚ) ^ e ≤ |blockNumber fz x|) :
    (groupScale (xs.map (blockOperand fz)) : ℤ) = max 0 (min 254 (e + 127)) := by
  obtain ⟨hd, -, -⟩ := maxMagnitude_spec (operands_divide fz hxs)
  have hu := (maxMagnitude_operands_lt_iff fz hxs (t := 2 ^ (e + 1)) (by positivity)).mpr hlt
  have hl : (2 : ℚ) ^ e ≤ magnitudeOf (maxMagnitude (xs.map (blockOperand fz))) := by
    rw [← not_lt, maxMagnitude_operands_lt_iff fz hxs (by positivity)]
    intro h
    obtain ⟨x, hx, hp, hle⟩ := hge
    exact (h x hx hp).not_ge hle
  have hn : (maxMagnitude (xs.map (blockOperand fz))).1 ≠ 0 := by
    intro h0
    rw [magnitudeOf, h0, Nat.cast_zero, zero_div, zero_mul] at hl
    exact (show (0 : ℚ) < 2 ^ e by positivity).not_ge hl
  obtain ⟨h1, h2⟩ := leadExp_spec (maxMagnitude (xs.map (blockOperand fz))).2.2 hn hd
  rw [cast_groupScale, if_neg hn, binade_unique h1 h2 hl hu]

theorem groupScale_of_zero (h0 : ∀ x ∈ xs, BlockPresent x → blockNumber fz x = 0) : groupScale (xs.map (blockOperand fz)) = 0 := by
  obtain ⟨hd, -, hex⟩ := maxMagnitude_spec (operands_divide fz hxs)
  have hn : (maxMagnitude (xs.map (blockOperand fz))).1 = 0 := by
    rcases hex with h | ⟨v, hv, hp, he⟩
    · rw [h]
    · obtain ⟨x, hx, rfl⟩ := List.mem_map.mp hv
      have hp' := (blockOperand_present_iff fz (hxs x hx)).mp hp
      rw [he, ← blockValue_eq_zero_iff (blockOperand_divides fz (hxs x hx)), (hp'.operand fz).2.2, h0 x hx hp']
  have h := cast_groupScale (xs.map (blockOperand fz))
  rw [if_pos hn] at h
  omega

include hlen

omit hxs in
theorem forall_mem_quad {u : ℕ} (hu : u < 4) (p : ℕ → Prop) :
    (∀ x ∈ (xs.drop (4 * u)).take 4, p x) ↔ ∀ i < 4, p (xs.getD (4 * u + i) 0) := by
  rw [List.forall_mem_iff_getElem]
  have hl : ((xs.drop (4 * u)).take 4).length = 4 := by simp [hlen]; omega
  constructor
  · intro h i hi
    have := h i (by omega)
    rwa [List.getElem_take, List.getElem_drop, ← List.getD_eq_getElem _ 0] at this
  · intro h i hi
    have := h i (by omega)
    rwa [List.getElem_take, List.getElem_drop, ← List.getD_eq_getElem _ 0]

/-- The shift of a quad is the largest up to 3 that keeps its numbers below the scale. -/
theorem le_groupShift_iff {u k : ℕ} (hu : u < 4) (hk : k ≤ 3) : k ≤ groupShift (xs.map (blockOperand fz)) u ↔ k = 0 ∨
    ∀ i < 4, BlockPresent (xs.getD (4 * u + i) 0) → |blockNumber fz (xs.getD (4 * u + i) 0)|
      < 2 ^ ((groupScale (xs.map (blockOperand fz)) : ℤ) - 127 - k + 1) := by
  have hquad : ∀ x ∈ (xs.drop (4 * u)).take 4, x ≤ absentPattern .fp32 := fun x hx =>
    hxs x (List.mem_of_mem_drop (List.mem_of_mem_take hx))
  have hd := (maxMagnitude_spec (operands_divide fz hquad)).1
  rw [groupShift, ← List.map_drop, ← List.map_take, le_shiftOf_iff _ hd hk,
    maxMagnitude_operands_lt_iff fz hquad (by positivity), forall_mem_quad hlen hu]

end Group

end Sys2Proof.Machine

/-! SUPPORT. The fields and flags of a group of sixteen patterns, and the values of any group (R47 to R49). -/

namespace Sys2Proof.Machine

open Sys2Proof

/-- The exponent of an element's unit, read from the number of its group (R48). -/
def unitExp (m n i : ℕ) : ℤ := (n % 256 : ℕ) - 127 - (n / 2 ^ (8 + 2 * (i / 4)) % 4 : ℕ) - m + 1

/-- The number and the flags of the group of sixteen patterns. -/
abbrev encodedGroup (f : Format) (mode : Rounding) (fz : Bool) (xs : List ℕ) : ℕ × ℕ :=
  encodeBlock f mode (xs.map (decodeFloat .fp32 fz))

section Group

variable (f : Format) (mode : Rounding) (fz : Bool) {xs : List ℕ} (hlen : xs.length = 16) (hxs : ∀ x ∈ xs, x ≤ absentPattern .fp32)

include hlen

theorem getD_le_absentPattern (hxs : ∀ x ∈ xs, x ≤ absentPattern .fp32) {i : ℕ} (hi : i < 16) :
    xs.getD i 0 ≤ absentPattern .fp32 := by
  rw [List.getD_eq_getElem _ _ (by omega)]
  exact hxs _ (List.getElem_mem _)

theorem exists_mem_iff (p : ℕ → Prop) : (∃ x ∈ xs, p x) ↔ ∃ i < 16, p (xs.getD i 0) := by
  rw [List.exists_mem_iff_getElem]
  constructor
  · rintro ⟨i, hi, h⟩
    exact ⟨i, by omega, by rwa [List.getD_eq_getElem _ _ (by omega)]⟩
  · rintro ⟨i, hi, h⟩
    exact ⟨i, by omega, by rwa [List.getD_eq_getElem _ _ (by omega)] at h⟩

/-- The field and the flags of each element. -/
theorem groupNumber_operand (m : ℕ) {i : ℕ} (hi : i < 16) :
    groupNumber mode m (xs.map (blockOperand fz)) / 2 ^ (16 + (m + 1) * i) % 2 ^ (m + 1)
      = (groupField mode m (groupUnit m (xs.map (blockOperand fz)) i) (blockOperand fz (xs.getD i 0))).1 := by
  rw [groupNumber_field mode m _ (by simpa [hlen] using hi), List.getElem_map, List.getD_eq_getElem _ _ (by omega)]

/-- A flag of a group is a flag of one of its elements. -/
theorem exists_flag_iff (m b : ℕ) :
    (joinFlags ((groupFields mode m (xs.map (blockOperand fz))).map Prod.snd)).testBit b = true ↔ ∃ i < 16,
      (groupField mode m (groupUnit m (xs.map (blockOperand fz)) i) (blockOperand fz (xs.getD i 0))).2.testBit b = true := by
  rw [testBit_joinFlags]
  constructor
  · rintro ⟨x, hx, h⟩
    obtain ⟨p, hp, rfl⟩ := List.mem_map.mp hx
    obtain ⟨i, hi, rfl⟩ := (mem_groupFields mode m _).mp hp
    rw [List.length_map, hlen] at hi
    exact ⟨i, hi, by rwa [List.getElem_map, ← List.getD_eq_getElem _ 0 (by omega)] at h⟩
  · rintro ⟨i, hi, h⟩
    refine ⟨_, List.mem_map_of_mem ((mem_groupFields mode m _).mpr ⟨i, by simpa [hlen] using hi, rfl⟩), ?_⟩
    rwa [List.getElem_map, ← List.getD_eq_getElem _ 0 (by omega)]

end Group

theorem joinFlags_groupFields_lt (mode : Rounding) (m : ℕ) (vs : List Val) :
    joinFlags ((groupFields mode m vs).map Prod.snd) < 2 ^ 3 := by
  refine joinFlags_lt fun x hx => ?_
  obtain ⟨p, hp, rfl⟩ := List.mem_map.mp hx
  obtain ⟨i, hi, rfl⟩ := (mem_groupFields mode m vs).mp hp
  exact groupField_flags_lt mode m _ _

/-- The flags of elements stand below those of NaNs. -/
theorem orFlags_invalid {n F : ℕ} (hn : n = 16 ∨ n = 0) (hF : F < 2 ^ 3) : (orFlags n F).testBit 4 = decide (n = 16)
    ∧ (orFlags n F).testBit 3 = false ∧ orFlags n F < 32 ∧ ∀ b < 3, (orFlags n F).testBit b = F.testBit b := by
  rcases hn with rfl | rfl <;> interval_cases F <;> decide

/-- The invalid flag, and that no other stands above the elements' flags, whatever the group holds. -/
theorem encodeBlock_invalid (f : Format) (mode : Rounding) (fz : Bool) {xs : List ℕ} (hxs : ∀ x ∈ xs, x ≤ absentPattern .fp32) :
    ((encodedGroup f mode fz xs).2.testBit 4 = true ↔ ∃ x ∈ xs, IsNaN .fp32 x) ∧ (encodedGroup f mode fz xs).2.testBit 3 = false
      ∧ (encodedGroup f mode fz xs).2 < 32 := by
  have hn := nanFlag_decoded fz hxs
  have hn' := hn.imp And.left And.left
  obtain ⟨F, hF, h2⟩ : ∃ F < 2 ^ 3, (encodedGroup f mode fz xs).2
      = orFlags (nanFlag (xs.map (decodeFloat .fp32 fz))) F := by
    by_cases h : ∃ x ∈ xs, BlockPresent x
    · exact ⟨_, joinFlags_groupFields_lt _ _ _, by rw [encodedGroup, encodeBlock_of_present f mode fz hxs h]⟩
    · push Not at h
      exact ⟨0, by norm_num, by rw [encodedGroup, encodeBlock_of_absent f mode fz hxs h]; exact (Nat.or_zero _).symm⟩
  obtain ⟨h4, h3, hlt, -⟩ := orFlags_invalid hn' hF
  rw [h2]
  refine ⟨?_, h3, hlt⟩
  rw [h4, decide_eq_true_iff]
  rcases hn with ⟨h, hex⟩ | ⟨h, hex⟩
  · exact ⟨fun _ => hex, fun _ => h⟩
  · exact ⟨fun h' => absurd (h.symm.trans h') (by norm_num), fun h' => absurd h' hex⟩

theorem encodeBlock_lt (f : Format) (mode : Rounding) (fz : Bool) {xs : List ℕ} (hlen : xs.length = 16)
    (hxs : ∀ x ∈ xs, x ≤ absentPattern .fp32) :
    (encodedGroup f mode fz xs).1 < 256 ^ (2 * (Format.mant f + 1) + 2) := by
  by_cases h : ∃ x ∈ xs, BlockPresent x
  · rw [encodedGroup, encodeBlock_of_present f mode fz hxs h]
    exact groupNumber_lt mode _ _ (by simpa using hlen)
  · push Not at h
    rw [encodedGroup, encodeBlock_of_absent f mode fz hxs h]
    exact (show 255 < 256 ^ 1 by norm_num).trans_le (Nat.pow_le_pow_right (by norm_num) (by omega))

section Present

variable (f : Format) (mode : Rounding) (fz : Bool) {xs : List ℕ} (hlen : xs.length = 16) (hxs : ∀ x ∈ xs, x ≤ absentPattern .fp32)
  (hp : ∃ x ∈ xs, BlockPresent x)

include hxs hp

theorem encodedGroup_scale : (encodedGroup f mode fz xs).1 % 256 = groupScale (xs.map (blockOperand fz)) := by
  rw [encodedGroup, encodeBlock_of_present f mode fz hxs hp]
  exact groupNumber_scale mode _ _

theorem encodedGroup_shift {u : ℕ} (hu : u < 4) :
    (encodedGroup f mode fz xs).1 / 2 ^ (8 + 2 * u) % 4 = groupShift (xs.map (blockOperand fz)) u := by
  rw [encodedGroup, encodeBlock_of_present f mode fz hxs hp]
  exact groupNumber_shift mode _ _ hu

theorem encodedGroup_unitExp {i : ℕ} (hi : i < 16) :
    unitExp (Format.mant f) (encodedGroup f mode fz xs).1 i = groupUnit (Format.mant f) (xs.map (blockOperand fz)) i := by
  rw [unitExp, encodedGroup_scale f mode fz hxs hp, encodedGroup_shift f mode fz hxs hp (by omega)]
  rfl

include hlen

theorem encodedGroup_field {i : ℕ} (hi : i < 16) :
    (encodedGroup f mode fz xs).1 / 2 ^ (16 + (Format.mant f + 1) * i) % 2 ^ (Format.mant f + 1)
      = (groupField mode (Format.mant f) (groupUnit (Format.mant f) (xs.map (blockOperand fz)) i)
        (blockOperand fz (xs.getD i 0))).1 := by
  rw [encodedGroup, encodeBlock_of_present f mode fz hxs hp]
  exact groupNumber_operand mode fz hlen _ hi

theorem encodedGroup_field_absent {i : ℕ} (hi : i < 16) (h : ¬BlockPresent (xs.getD i 0)) :
    (encodedGroup f mode fz xs).1 / 2 ^ (16 + (Format.mant f + 1) * i) % 2 ^ (Format.mant f + 1) = 2 ^ Format.mant f := by
  rw [encodedGroup_field f mode fz hlen hxs hp hi, blockOperand_of_not_present fz (getD_le_absentPattern hlen hxs hi) h]
  rfl

theorem encodedGroup_field_present {i : ℕ} (hi : i < 16) (h : BlockPresent (xs.getD i 0)) {k : ℤ}
    (hk : RoundsTo mode ((blockNumber fz (xs.getD i 0) / 2 ^ unitExp (Format.mant f) (encodedGroup f mode fz xs).1 i : ℚ) : ℝ) k) :
    (encodedGroup f mode fz xs).1 / 2 ^ (16 + (Format.mant f + 1) * i) % 2 ^ (Format.mant f + 1)
      = (max (-(2 ^ Format.mant f - 1)) (min (2 ^ Format.mant f - 1) k) % 2 ^ (Format.mant f + 1)).toNat := by
  obtain ⟨h1, h2, h3⟩ := h.operand fz
  rw [encodedGroup_field f mode fz hlen hxs hp hi, groupField_of_present mode _ _ h1]
  rw [← h3, encodedGroup_unitExp f mode fz hxs hp hi] at hk
  exact presentField_fst mode _ _ h2 hk

/-- A flag of the group below invalid is that of a present element. -/
theorem encodedGroup_flag {b : ℕ} (hb : b < 3) : (encodedGroup f mode fz xs).2.testBit b = true ↔ ∃ i < 16,
    BlockPresent (xs.getD i 0)
    ∧ (presentField mode (Format.mant f) (groupUnit (Format.mant f) (xs.map (blockOperand fz)) i)
        (blockOperand fz (xs.getD i 0))).2.testBit b = true := by
  have hn := (nanFlag_decoded fz hxs).imp And.left And.left
  obtain ⟨-, -, -, hlow⟩ := orFlags_invalid hn (joinFlags_groupFields_lt mode (Format.mant f) (xs.map (blockOperand fz)))
  rw [encodedGroup, encodeBlock_of_present f mode fz hxs hp, hlow b hb, exists_flag_iff mode fz hlen]
  refine exists_congr fun i => and_congr_right fun hi => ?_
  have hx := getD_le_absentPattern hlen hxs hi
  by_cases h : BlockPresent (xs.getD i 0)
  · rw [groupField_of_present mode _ _ (h.operand fz).1]
    exact (and_iff_right h).symm
  · rw [blockOperand_of_not_present fz hx h, groupField_absent, Nat.zero_testBit]
    exact ⟨fun h' => absurd h' Bool.false_ne_true, fun h' => absurd h'.1 h⟩

theorem encodedGroup_overflow : (encodedGroup f mode fz xs).2.testBit 2 = true ↔ ∃ x ∈ xs, IsInf .fp32 x := by
  rw [encodedGroup_flag f mode fz hlen hxs hp (by norm_num), exists_mem_iff hlen]
  refine exists_congr fun i => and_congr_right fun hi => ?_
  rw [presentField_overflow, blockOperand_isInf_iff fz (getD_le_absentPattern hlen hxs hi)]
  exact ⟨And.right, fun h => ⟨.inr h, h⟩⟩

theorem encodedGroup_inexact : (encodedGroup f mode fz xs).2.testBit 0 = true ↔ ∃ i < 16, BlockPresent (xs.getD i 0)
    ∧ ∀ k : ℤ, (k : ℚ) ≠ blockNumber fz (xs.getD i 0) / 2 ^ unitExp (Format.mant f) (encodedGroup f mode fz xs).1 i := by
  rw [encodedGroup_flag f mode fz hlen hxs hp (by norm_num)]
  refine exists_congr fun i => and_congr_right fun hi => and_congr_right fun h => ?_
  obtain ⟨-, h2, h3⟩ := h.operand fz
  rw [presentField_inexact mode _ _ h2, h3, encodedGroup_unitExp f mode fz hxs hp hi]

theorem encodedGroup_underflow : (encodedGroup f mode fz xs).2.testBit 1 = true ↔ ∃ i < 16, BlockPresent (xs.getD i 0)
    ∧ blockNumber fz (xs.getD i 0) ≠ 0
    ∧ RoundsTo mode ((blockNumber fz (xs.getD i 0) / 2 ^ unitExp (Format.mant f) (encodedGroup f mode fz xs).1 i : ℚ) : ℝ) 0 := by
  rw [encodedGroup_flag f mode fz hlen hxs hp (by norm_num)]
  refine exists_congr fun i => and_congr_right fun hi => and_congr_right fun h => ?_
  obtain ⟨-, h2, h3⟩ := h.operand fz
  rw [presentField_underflow mode _ _ h2, h3, encodedGroup_unitExp f mode fz hxs hp hi]

end Present

/-! Decoding. -/

theorem blockElem_absent {f : Format} {n i : ℕ}
    (h : n % 256 = 255 ∨ n / 2 ^ (16 + (Format.mant f + 1) * i) % 2 ^ (Format.mant f + 1) = 2 ^ Format.mant f) :
    blockElem f n i = .absent := by
  have hx : field n 0 8 = n % 256 := by simp [field]
  rw [blockElem]
  simp only [hx]
  exact if_pos h

theorem blockElem_present {f : Format} {n i : ℕ} (hx : n % 256 ≠ 255)
    (hfl : n / 2 ^ (16 + (Format.mant f + 1) * i) % 2 ^ (Format.mant f + 1) ≠ 2 ^ Format.mant f) :
    ∃ (neg : Bool) (num den : ℕ) (exp : ℤ), blockElem f n i = .real neg num den exp ∧ den ≠ 0
      ∧ (if neg then -1 else 1) * ((num : ℚ) / den) * 2 ^ exp
        = sextNat (n / 2 ^ (16 + (Format.mant f + 1) * i) % 2 ^ (Format.mant f + 1)) (Format.mant f + 1)
          * (2 : ℚ) ^ unitExp (Format.mant f) n i := by
  have hx' : field n 0 8 = n % 256 := by simp [field]
  refine ⟨_, _, 1, _, ?_, one_ne_zero, realOf_of_int _ _⟩
  rw [blockElem]
  simp only [hx']
  exact if_neg (not_or.mpr ⟨hx, hfl⟩)

/-- Settles O31: the group's number is its fields side by side (`groupNumber_field`), each field its value over its unit rounded
(`presentField_fst`), and each flag that of an element. -/
theorem blockGroupsEncodeAndDecodeTheirValues : Obligations.BlockGroupsEncodeAndDecodeTheirValues := by
  unfold Obligations.BlockGroupsEncodeAndDecodeTheirValues
  intro f mode fz xs _ hlen hxs
  obtain ⟨hnv, hdz, h32⟩ := encodeBlock_invalid f mode fz hxs
  refine ⟨encodeBlock_lt f mode fz hlen hxs, hnv, hdz, h32, fun habs => ?_, fun hp => ⟨fun e hlt hge => ?_, fun h0 => ?_,
    fun u hu k hk => ?_, fun i hi => encodedGroup_field_absent f mode fz hlen hxs hp hi,
    fun i hi h k hk => encodedGroup_field_present f mode fz hlen hxs hp hi h hk, encodedGroup_overflow f mode fz hlen hxs hp,
    encodedGroup_inexact f mode fz hlen hxs hp, encodedGroup_underflow f mode fz hlen hxs hp⟩,
    fun n i _ => ⟨blockElem_absent, blockElem_present⟩⟩
  · rw [encodeBlock_of_absent f mode fz hxs habs]
    rcases nanFlag_decoded fz hxs with ⟨h, -⟩ | ⟨h, -⟩ <;> rw [h] <;> decide
  · exact (congrArg Nat.cast (encodedGroup_scale f mode fz hxs hp)).trans (groupScale_of_binade fz hxs hlt hge)
  · exact (encodedGroup_scale f mode fz hxs hp).trans (groupScale_of_zero fz hxs h0)
  · have h := le_groupShift_iff fz hlen hxs hu hk
    rw [← encodedGroup_scale f mode fz hxs hp, ← encodedGroup_shift f mode fz hxs hp hu] at h
    exact h

end Sys2Proof.Machine

/-! SUPPORT. Absent, NaN and infinite operands of class I (R43, R44, R53, R54, R56, R267, R269, R270). -/

namespace Sys2Proof.Machine

open Sys2Proof

/-! Quieting and changing a sign. -/

theorem fracField_infPattern_add (f : Format) (neg : Bool) {k : ℕ} (hk : k < 2 ^ (ieeeBits f).2) :
    fracField f (infPattern f neg + k) = k := by
  have hlt : infPattern f false + k < 2 ^ magBits f := by have := infPattern_add f; omega
  rw [fracField_eq, infPattern_eq, Nat.add_assoc, zeroPattern_add_mod f neg hlt, infPattern_false_eq, Nat.add_comm,
    Nat.add_mul_mod_self_right, Nat.mod_eq_of_lt hk]

/-- The fraction bits that fit, from the top (R56). -/
theorem kept_eq (m src fb : ℕ) : (if fb ≤ src then m / 2 ^ (src - fb) else m * 2 ^ (fb - src)) = m * 2 ^ fb / 2 ^ src := by
  split
  · next h => rw [← Nat.sub_add_cancel h, pow_add, Nat.mul_div_mul_right _ _ (by positivity), Nat.add_sub_cancel]
  · next h =>
    rw [show fb = fb - src + src by omega, pow_add, ← Nat.mul_assoc, Nat.mul_div_cancel _ (by positivity), Nat.add_sub_cancel]

theorem quietNaN_eq {f : Format} (hf : f.isFloat = true) {src : ℕ} (neg : Bool) {m : ℕ} (hm : m < 2 ^ src) :
    quietNaN f src neg m = quieted f (infPattern f neg + m * 2 ^ (ieeeBits f).2 / 2 ^ src) := by
  set k := m * 2 ^ (ieeeBits f).2 / 2 ^ src with hk
  have hlt : k < 2 ^ (ieeeBits f).2 := by
    rw [hk, Nat.div_lt_iff_lt_mul (by positivity), Nat.mul_comm]
    exact Nat.mul_lt_mul_of_pos_left hm (by positivity)
  have hbit := testBit_of_lt_two_pow_succ (m := k) (k := (ieeeBits f).2 - 1) (by rwa [Nat.sub_add_cancel (one_le_ieeeBits_frac f)])
  have htop : neg.toNat * 2 ^ (f.width - 1) + (2 ^ (ieeeBits f).1 - 1) * 2 ^ (ieeeBits f).2 = infPattern f neg := by
    rw [infPattern_eq, zeroPattern_eq, magBits, width_of_isFloat hf, infPattern_false_eq, Nat.add_sub_cancel]
  simp only [quietNaN, expBits_eq, fracBits_eq, kept_eq, ← hk, hbit, htop, absentCode_of_isFloat hf, canonical_eq, quieted,
    fracField_infPattern_add f neg hlt, decide_eq_true_iff]
  by_cases h : 2 ^ ((ieeeBits f).2 - 1) ≤ k
  · rw [if_pos h, if_neg (not_lt.mpr h)]
  · rw [if_neg h, if_pos (not_le.mp h), Nat.add_assoc]

theorem IsNaN.eq_add {f : Format} {x : ℕ} (h : IsNaN f x) : x = infPattern f (minusSign f x) + fracField f x := by
  have hd := Nat.div_add_mod' (x % 2 ^ magBits f) (2 ^ (ieeeBits f).2)
  rw [← expField_eq, ← fracField_eq, h.2.1, ← infPattern_false_eq] at hd
  rw [infPattern_eq, Nat.add_assoc, hd, sign_add_magnitude h.1.le]

theorem IsNaN.quietNaN {f : Format} (hf : f.isFloat = true) {x : ℕ} (h : IsNaN f x) :
    quietNaN f (ieeeBits f).2 (minusSign f x) (fracField f x) = quieted f x := by
  have hm : fracField f x < 2 ^ (ieeeBits f).2 := Nat.mod_lt _ (by positivity)
  rw [quietNaN_eq hf _ hm, Nat.mul_div_cancel _ (by positivity), ← h.eq_add]

/-- A pattern with another sign, the absent code becoming the canonical NaN (R43, R270). -/
def signedPattern (f : Format) (x : ℕ) (neg : Bool) : ℕ :=
  let p := (if neg then 2 ^ (f.width - 1) else 0) + x % 2 ^ (f.width - 1)
  if p = absentPattern f then canonicalNaN f else p

theorem withSign_eq_signedPattern {f : Format} (hf : f.isFloat = true) (x : ℕ) (neg : Bool) :
    withSign f x neg = signedPattern f x neg := by
  rw [withSign_eq hf, signedPattern, width_of_isFloat hf, Nat.add_sub_cancel, zeroPattern]
  rfl

theorem flushInput_of_nonzero {f : Format} {env : Env} {x m d : ℕ} {n : Bool} {e : ℤ} (hd : decodeFloat f env.fz x = .real n m d e)
    (hm : m ≠ 0) : flushInput f env x = x := by
  obtain ⟨k, rfl⟩ := Nat.exists_eq_succ_of_ne_zero hm
  rw [flushInput, hd]
  rfl

theorem flushInput_of_zero {f : Format} (hf : f.isFloat = true) {env : Env} {x d : ℕ} {n : Bool} {e : ℤ}
    (hd : decodeFloat f env.fz x = .real n 0 d e) : flushInput f env x = zeroPattern f n := by
  rw [flushInput, hd, zeroPattern_eq, magBits, width_of_isFloat hf, Nat.add_sub_cancel]
  rfl

/-- What an operation reads a pattern as, where FZ replaces nothing but subnormals. -/
theorem flushInput_eq {f : Format} (hf : f.isFloat = true) (env : Env) {x : ℕ} (hx : x ≤ absentPattern f)
    (hne : x ≠ absentPattern f) :
    flushInput f env x = asRead f env.fz x := by
  rcases (pattern_cases hx).resolve_left hne with hfin | hinf | hnan
  · obtain ⟨m, e, hd, hv, -, -⟩ := decodeFloat_of_isFinite hf env.fz hfin
    rcases eq_or_ne m 0 with rfl | hm
    · rw [flushInput_of_zero hf hd]
      exact eq_of_finiteValue_eq (isFinite_zeroPattern f _) (isFinite_asRead env.fz hfin)
        (by rw [minusSign_zeroPattern, minusSign_asRead]) (by rw [finiteValue_zeroPattern, ← realOf_zero, hv]; rfl)
    · have hread : ¬(env.fz = true ∧ expField f x = 0) := by
        rintro ⟨hz, he⟩
        rw [decodeFloat_eq hf, if_neg hne, if_neg hfin.2, if_pos he, if_pos hz] at hd
        simp only [Val.real.injEq] at hd
        exact hm hd.2.1.symm
      rw [flushInput_of_nonzero hd hm, asRead, if_neg hread]
  · rw [flushInput, decodeFloat_of_isInf hf env.fz hinf, asRead_of_expField env.fz (by rw [hinf.expField]; cases f <;> decide)]
  · rw [flushInput, decodeFloat_of_isNaN hf env.fz hnan, asRead_of_expField env.fz (by rw [hnan.2.1]; cases f <;> decide)]

theorem negated_eq {f : Format} (hf : f.isFloat = true) (env : Env) {x : ℕ} (hx : x ≤ absentPattern f)
    (hne : x ≠ absentPattern f) :
    negated f env x = signedPattern f (asRead f env.fz x) !minusSign f x := by
  rw [negated, flushInput_eq hf env hx hne, withSign_eq_signedPattern hf, signBit_eq hf, minusSign_asRead]

/-! Absent operands. -/

section Absent

variable {f : Format} (hf : f.isFloat = true) (env : Env)

include hf

/-- An absent first operand leaves the second, and makes a quotient absent (R44). -/
theorem elemBin_absent_left (b : ℕ) : elemBin .add f env (absentPattern f) b = (b, 0)
    ∧ elemBin .mul f env (absentPattern f) b = (b, 0)
    ∧ elemBin .min f env (absentPattern f) b = (b, 0) ∧ elemBin .max f env (absentPattern f) b = (b, 0)
    ∧ elemBin .div f env (absentPattern f) b = (absentPattern f, 0) := by
  simp [elemBin, hf, floatAdd, floatMul, floatMinMax, floatDiv, isAbsent_absentPattern hf, absentCode_of_isFloat hf]

/-- An absent second operand leaves the first, and makes a quotient absent (R44). -/
theorem elemBin_absent_right (a : ℕ) : elemBin .add f env a (absentPattern f) = (a, 0)
    ∧ elemBin .sub f env a (absentPattern f) = (a, 0)
    ∧ elemBin .mul f env a (absentPattern f) = (a, 0) ∧ elemBin .min f env a (absentPattern f) = (a, 0)
    ∧ elemBin .max f env a (absentPattern f) = (a, 0) ∧ elemBin .div f env a (absentPattern f) = (absentPattern f, 0)
    ∧ elemSgnj f a (absentPattern f) = (a, 0) := by
  by_cases ha : a = absentPattern f
  · subst ha
    simp [elemBin, hf, floatAdd, floatSub, floatMul, floatMinMax, floatDiv, elemSgnj, isAbsent_absentPattern hf,
      absentCode_of_isFloat hf]
  · simp [elemBin, hf, floatAdd, floatSub, floatMul, floatMinMax, floatDiv, elemSgnj, isAbsent_absentPattern hf,
      isAbsent_of_ne hf ha, absentCode_of_isFloat hf]

/-- An absent operand is the result of the forms of one operand (R44). -/
theorem unary_absent (mode : Rounding) (b : ℕ) : floatSqrt f env (absentPattern f) = (absentPattern f, 0)
    ∧ floatRcp f env (absentPattern f) = (absentPattern f, 0) ∧ floatIntegral f env mode (absentPattern f) = (absentPattern f, 0)
    ∧ elemAbs f (absentPattern f) = (absentPattern f, 0) ∧ elemNeg f (absentPattern f) = (absentPattern f, 0)
    ∧ floatScale f env (absentPattern f) b = (absentPattern f, 0) ∧ elemSgnj f (absentPattern f) b = (absentPattern f, 0) := by
  simp [floatSqrt, floatRcp, floatIntegral, elemAbs, elemNeg, floatScale, elemSgnj, isAbsent_absentPattern hf]

theorem elemBin_sub_absent_left {b : ℕ} (hb : b ≤ absentPattern f) (hne : b ≠ absentPattern f) :
    elemBin .sub f env (absentPattern f) b = (signedPattern f (asRead f env.fz b) !minusSign f b, 0) := by
  rw [← negated_eq hf env hb hne]
  simp [elemBin, hf, floatSub, isAbsent_absentPattern hf, isAbsent_of_ne hf hne]

/-- An absent factor of a fused form leaves the third operand, with its sign flipped where the form subtracts it (R44). -/
theorem elemFma_absent_factor {a b c : ℕ} (hab : a = absentPattern f ∨ b = absentPattern f) (hc : c ≤ absentPattern f)
    (na : Bool) :
    elemFma na false f env a b c = (c, 0) ∧ (c = absentPattern f → elemFma na true f env a b c = (absentPattern f, 0))
      ∧ (c ≠ absentPattern f → elemFma na true f env a b c = (signedPattern f (asRead f env.fz c) !minusSign f c, 0)) := by
  have hgone : (isAbsent f a || isAbsent f b) = true := by simpa [isAbsent_of_isFloat hf] using hab
  have heq (nc : Bool) : elemFma na nc f env a b c = (if nc && !isAbsent f c then negated f env c else c, 0) := by
    simp only [elemFma, hf, if_true, floatFma, hgone]
  refine ⟨by rw [heq]; rfl, ?_, fun hne => ?_⟩
  · rintro rfl
    rw [heq, isAbsent_absentPattern hf]
    rfl
  · rw [heq, isAbsent_of_ne hf hne, ← negated_eq hf env hc hne]
    rfl

/-- An absent third operand of a fused form leaves the product (R44). -/
theorem elemFma_absent_addend {a b : ℕ} (ha : a ≠ absentPattern f) (hb : b ≠ absentPattern f) :
    elemFma false false f env a b (absentPattern f) = elemBin .mul f env a b := by
  rw [elemBin_mul_of_present hf env ha hb]
  simp [elemFma, hf, floatFma, isAbsent_of_ne hf ha, isAbsent_of_ne hf hb, isAbsent_absentPattern hf]

end Absent

/-! NaN operands. -/

/-- The invalid flag of a signalling NaN among the operands (R53). -/
def signallingFlag : Val → ℕ
  | .nan _ _ true => 16
  | _ => 0

theorem signalling_pair (x y : Val) : signalling [x, y] = max (signallingFlag x) (signallingFlag y) := by
  rcases x with _ | ⟨_, _, _ | _⟩ | _ | _ <;> rcases y with _ | ⟨_, _, _ | _⟩ | _ | _ <;> rfl

theorem signalling_single (x : Val) : signalling [x] = signallingFlag x := by
  rcases x with _ | ⟨_, _, _ | _⟩ | _ | _ <;> rfl

section NaN

variable {f : Format} (hf : f.isFloat = true) (env : Env) {a b : ℕ}

include hf

theorem IsNaN.signallingFlag (fz : Bool) (h : IsNaN f a) : signallingFlag (decodeFloat f fz a) = invalidIf f a := by
  rw [decodeFloat_of_isNaN hf fz h, invalidIf]
  by_cases hs : fracField f a < 2 ^ ((ieeeBits f).2 - 1) <;> simp [hs, Machine.signallingFlag]

/-- A present operand that is no NaN is finite or infinite; it is no operand that propagates, and it is encoded as it is read. -/
theorem decodeFloat_of_not_isNaN (fz : Bool) (ha : a ≤ absentPattern f) (hp : a ≠ absentPattern f) (hn : ¬IsNaN f a) :
    firstNaN [decodeFloat f fz a] = none ∧ signallingFlag (decodeFloat f fz a) = 0
      ∧ (encodeFloat f Env.plain (ieeeBits f).2 (decodeFloat f fz a)).1 = asRead f fz a
      ∧ ∀ n m s, decodeFloat f fz a ≠ .nan n m s := by
  rcases (pattern_cases ha).resolve_left hp with hfin | hinf | hnan
  · refine ⟨?_, ?_, encodeFloat_decodeFloat_of_isFinite hf fz _ hfin, ?_⟩
    all_goals
      obtain ⟨m, e, hd, -⟩ := decodeFloat_of_isFinite hf fz hfin
      rw [hd]
    · rfl
    · rfl
    · simp
  · have hread : asRead f fz a = a := asRead_of_expField fz (by rw [hinf.expField]; cases f <;> decide)
    rw [decodeFloat_of_isInf hf fz hinf, hread]
    refine ⟨rfl, rfl, ?_, by simp⟩
    rw [hinf, minusSign_infPattern, infPattern_eq, zeroPattern_eq, infPattern_false_eq]
    simp [encodeFloat, width_of_isFloat hf, magBits]
  · exact absurd hnan hn

theorem ieeeOp_of_isNaN (ha : IsNaN f a) (vs : List Val) (op : Unit → ℕ × ℕ) :
    ieeeOp f (decodeFloat f env.fz a :: vs) op = (quieted f a, signalling (decodeFloat f env.fz a :: vs)) := by
  rw [← ha.quietNaN hf, decodeFloat_of_isNaN hf env.fz ha, ieeeOp, firstNaN, fracBits_eq]

/-- A sum, a difference, a product and a quotient of present operands give what the NaN operands give. -/
theorem arith_of_ieeeOp (ha : a ≠ absentPattern f) (hb : b ≠ absentPattern f) {r : ℕ × ℕ}
    (h : ∀ op, ieeeOp f [decodeFloat f env.fz a, decodeFloat f env.fz b] op = r) : elemBin .add f env a b = r
      ∧ elemBin .sub f env a b = r ∧ elemBin .mul f env a b = r ∧ elemBin .div f env a b = r := by
  rw [elemBin_add_of_present hf env ha hb, elemBin_sub_of_present hf env ha hb, elemBin_mul_of_present hf env ha hb,
    elemBin_div_of_present hf env ha hb]
  exact ⟨h _, h _, h _, h _⟩

theorem elemBin_min : elemBin .min f env a b = floatMinMax f env false a b := by rw [elemBin, if_pos hf]

theorem elemBin_max : elemBin .max f env a b = floatMinMax f env true a b := by rw [elemBin, if_pos hf]

theorem floatMinMax_nan_left (ha : IsNaN f a) (hb : b ≤ absentPattern f) (hp : b ≠ absentPattern f) (hn : ¬IsNaN f b)
    (larger : Bool) :
    floatMinMax f env larger a b = (asRead f env.fz b, invalidIf f a) := by
  obtain ⟨-, hs, henc, hne⟩ := decodeFloat_of_not_isNaN hf env.fz hb hp hn
  have hfl : signalling [decodeFloat f env.fz a, decodeFloat f env.fz b] = invalidIf f a := by
    rw [signalling_pair, ha.signallingFlag hf, hs, Nat.max_zero]
  rw [floatMinMax, isAbsent_of_ne hf ha.ne_absent, isAbsent_of_ne hf hp]
  simp only [hfl]
  rw [decodeFloat_of_isNaN hf env.fz ha, ← henc, fracBits_eq]
  generalize decodeFloat f env.fz b = y at hne
  cases y with
  | nan n m s => exact absurd rfl (hne n m s)
  | _ => rfl

theorem floatMinMax_nan_right (ha : a ≤ absentPattern f) (hp : a ≠ absentPattern f) (hn : ¬IsNaN f a) (hb : IsNaN f b)
    (larger : Bool) :
    floatMinMax f env larger a b = (asRead f env.fz a, invalidIf f b) := by
  obtain ⟨-, hs, henc, hne⟩ := decodeFloat_of_not_isNaN hf env.fz ha hp hn
  have hfl : signalling [decodeFloat f env.fz a, decodeFloat f env.fz b] = invalidIf f b := by
    rw [signalling_pair, hb.signallingFlag hf, hs, Nat.zero_max]
  rw [floatMinMax, isAbsent_of_ne hf hp, isAbsent_of_ne hf hb.ne_absent]
  simp only [hfl]
  rw [decodeFloat_of_isNaN hf env.fz hb, ← henc, fracBits_eq]
  generalize decodeFloat f env.fz a = x at hne
  cases x with
  | nan n m s => exact absurd rfl (hne n m s)
  | _ => rfl

theorem floatMinMax_nan_both (ha : IsNaN f a) (hb : IsNaN f b) (larger : Bool) :
    floatMinMax f env larger a b = (quieted f a, max (invalidIf f a) (invalidIf f b)) := by
  have hfl : signalling [decodeFloat f env.fz a, decodeFloat f env.fz b] = max (invalidIf f a) (invalidIf f b) := by
    rw [signalling_pair, ha.signallingFlag hf, hb.signallingFlag hf]
  rw [floatMinMax, isAbsent_of_ne hf ha.ne_absent, isAbsent_of_ne hf hb.ne_absent]
  simp only [hfl]
  rw [decodeFloat_of_isNaN hf env.fz ha, decodeFloat_of_isNaN hf env.fz hb, ← ha.quietNaN hf, fracBits_eq]

theorem ieeeOp_nan_left (ha : IsNaN f a) (hb : b ≤ absentPattern f) (hp : b ≠ absentPattern f) (hn : ¬IsNaN f b)
    (op : Unit → ℕ × ℕ) : ieeeOp f [decodeFloat f env.fz a, decodeFloat f env.fz b] op = (quieted f a, invalidIf f a) := by
  rw [ieeeOp_of_isNaN hf env ha, signalling_pair, ha.signallingFlag hf, (decodeFloat_of_not_isNaN hf env.fz hb hp hn).2.1,
    Nat.max_zero]

theorem ieeeOp_nan_both (ha : IsNaN f a) (hb : IsNaN f b) (op : Unit → ℕ × ℕ) :
    ieeeOp f [decodeFloat f env.fz a, decodeFloat f env.fz b] op = (quieted f a, max (invalidIf f a) (invalidIf f b)) := by
  rw [ieeeOp_of_isNaN hf env ha, signalling_pair, ha.signallingFlag hf, hb.signallingFlag hf]

theorem ieeeOp_nan_right (ha : a ≤ absentPattern f) (hp : a ≠ absentPattern f) (hn : ¬IsNaN f a) (hb : IsNaN f b)
    (op : Unit → ℕ × ℕ) : ieeeOp f [decodeFloat f env.fz a, decodeFloat f env.fz b] op = (quieted f b, invalidIf f b) := by
  obtain ⟨-, hs, -, hne⟩ := decodeFloat_of_not_isNaN hf env.fz ha hp hn
  have hskip : firstNaN [decodeFloat f env.fz a, decodeFloat f env.fz b] = firstNaN [decodeFloat f env.fz b] := by
    generalize decodeFloat f env.fz a = x at hne
    cases x with
    | nan n m s => exact absurd rfl (hne n m s)
    | _ => rfl
  rw [ieeeOp, hskip, signalling_pair, hs, hb.signallingFlag hf, Nat.zero_max, decodeFloat_of_isNaN hf env.fz hb, firstNaN,
    fracBits_eq, ← hb.quietNaN hf]

theorem ieeeOp_nan_single (ha : IsNaN f a) (op : Unit → ℕ × ℕ) :
    ieeeOp f [decodeFloat f env.fz a] op = (quieted f a, invalidIf f a) := by
  rw [ieeeOp_of_isNaN hf env ha, signalling_single, ha.signallingFlag hf]

theorem floatIntegral_of_isNaN (mode : Rounding) (ha : IsNaN f a) : floatIntegral f env mode a = (quieted f a, invalidIf f a) := by
  rw [floatIntegral, isAbsent_of_ne hf ha.ne_absent]
  exact (if_neg Bool.false_ne_true).trans (ieeeOp_nan_single hf env ha _)

end NaN

/-! Infinities and zeros. -/

theorem IsInf.pattern_eq {f : Format} {x : ℕ} (h : IsInf f x) : infPattern f (minusSign f x) = x := Eq.symm h

section Inf

variable {f : Format} (hf : f.isFloat = true) (env : Env) {a b : ℕ}

include hf

theorem encodeFloat_inf (src : ℕ) (neg : Bool) : encodeFloat f env src (.inf neg) = (infPattern f neg, 0) := by
  rw [encodeFloat, infPattern_eq, zeroPattern_eq, infPattern_false_eq, magBits, width_of_isFloat hf, Nat.add_sub_cancel,
    expBits_eq, fracBits_eq]

theorem deliverVal_inf (neg : Bool) : deliverVal f env (some (.inf neg)) = (infPattern f neg, 0) :=
  encodeFloat_inf hf env (Format.fracBits f) neg

omit hf in
theorem deliverVal_none : deliverVal f env none = (canonicalNaN f, 16) := by rw [deliverVal, canonical_eq]; rfl

theorem deliverQuotient_inf (neg : Bool) (fl : ℕ) : deliverQuotient f env (some (.inf neg, fl)) = (infPattern f neg, fl) := by
  rw [deliverQuotient, encodeFloat_inf hf]
  exact congrArg (Prod.mk _) (Nat.zero_or fl)

theorem deliverQuotient_zero (neg : Bool) : deliverQuotient f env (some (.real neg 0 1 0, 0)) = (zeroPattern f neg, 0) := by
  rw [deliverQuotient, encodeFloat, roundReal_zero hf]
  exact congrArg (Prod.mk _) (Nat.or_zero 0)

theorem decodeFloat_of_zero (fz : Bool) (ha : IsFinite f a) (h0 : valueRead f fz a = 0) :
    ∃ e, decodeFloat f fz a = .real (minusSign f a) 0 1 e := by
  obtain ⟨m, e, hd, hv, -, -⟩ := decodeFloat_of_isFinite hf fz ha
  obtain rfl : m = 0 := (realOf_eq_zero_iff).mp (hv.trans h0)
  exact ⟨e, hd⟩

theorem decodeFloat_of_nonzero (fz : Bool) (ha : IsFinite f a) (h0 : valueRead f fz a ≠ 0) :
    ∃ m e, m ≠ 0 ∧ decodeFloat f fz a = .real (minusSign f a) m 1 e := by
  obtain ⟨m, e, hd, hv, -, -⟩ := decodeFloat_of_isFinite hf fz ha
  exact ⟨m, e, fun hm => h0 (by rw [← hv, hm, realOf_zero]), hd⟩

theorem elemBin_inf_finite (ha : IsInf f a) (hb : IsFinite f b) : elemBin .add f env a b = (a, 0) ∧ elemBin .sub f env a b = (a, 0)
    ∧ elemBin .div f env a b = (infPattern f (minusSign f a != minusSign f b), 0) := by
  obtain ⟨m, e, hd, -⟩ := decodeFloat_of_isFinite hf env.fz hb
  have hp := And.intro ha.ne_absent hb.ne_absent
  rw [elemBin_add_of_present hf env hp.1 hp.2, elemBin_sub_of_present hf env hp.1 hp.2,
    elemBin_div_of_present hf env hp.1 hp.2, hd,
    decodeFloat_of_isInf hf env.fz ha]
  have hinf := deliverVal_inf hf env (minusSign f a)
  rw [ha.pattern_eq] at hinf
  exact ⟨hinf, hinf, deliverQuotient_inf hf env _ 0⟩

theorem elemBin_finite_inf (ha : IsFinite f a) (hb : IsInf f b) : elemBin .add f env a b = (b, 0)
    ∧ elemBin .sub f env a b = (infPattern f !minusSign f b, 0)
    ∧ elemBin .div f env a b = (zeroPattern f (minusSign f a != minusSign f b), 0) := by
  obtain ⟨m, e, hd, -⟩ := decodeFloat_of_isFinite hf env.fz ha
  have hp := And.intro ha.ne_absent hb.ne_absent
  rw [elemBin_add_of_present hf env hp.1 hp.2, elemBin_sub_of_present hf env hp.1 hp.2,
    elemBin_div_of_present hf env hp.1 hp.2, hd,
    decodeFloat_of_isInf hf env.fz hb]
  have hinf := deliverVal_inf hf env (minusSign f b)
  rw [hb.pattern_eq] at hinf
  exact ⟨hinf, deliverVal_inf hf env _, deliverQuotient_zero hf env _⟩

theorem elemBin_inf_inf (ha : IsInf f a) (hb : IsInf f b) : elemBin .div f env a b = (canonicalNaN f, 16)
    ∧ elemBin .mul f env a b = (infPattern f (minusSign f a != minusSign f b), 0)
    ∧ (minusSign f a = minusSign f b → elemBin .add f env a b = (a, 0) ∧ elemBin .sub f env a b = (canonicalNaN f, 16))
    ∧ (minusSign f a ≠ minusSign f b → elemBin .add f env a b = (canonicalNaN f, 16) ∧ elemBin .sub f env a b = (a, 0)) := by
  have hp := And.intro ha.ne_absent hb.ne_absent
  rw [elemBin_add_of_present hf env hp.1 hp.2, elemBin_sub_of_present hf env hp.1 hp.2, elemBin_div_of_present hf env hp.1 hp.2,
    elemBin_mul_of_present hf env hp.1 hp.2, decodeFloat_of_isInf hf env.fz ha, decodeFloat_of_isInf hf env.fz hb]
  have hinf := deliverVal_inf hf env (minusSign f a)
  rw [ha.pattern_eq] at hinf
  have hbad := deliverVal_none (f := f) env
  have hsub : ieeeOp f [.inf (minusSign f a), .inf (minusSign f b)] (fun _ => deliverVal f env
      (addVal env.mode (.inf (minusSign f a)) (Val.inf (minusSign f b)).neg))
      = deliverVal f env (if minusSign f a = !minusSign f b then some (.inf (minusSign f a)) else none) := rfl
  have hadd : ieeeOp f [.inf (minusSign f a), .inf (minusSign f b)] (fun _ => deliverVal f env
      (addVal env.mode (.inf (minusSign f a)) (.inf (minusSign f b))))
      = deliverVal f env (if minusSign f a = minusSign f b then some (.inf (minusSign f a)) else none) := rfl
  rw [hadd, hsub]
  refine ⟨rfl, deliverVal_inf hf env _, fun h => ?_, fun h => ?_⟩
  · rw [if_pos h, if_neg (by simp [h])]
    exact ⟨hinf, hbad⟩
  · rw [if_neg h, if_pos (Bool.eq_not.mpr h)]
    exact ⟨hbad, hinf⟩

/-- An infinity times a nonzero number. -/
theorem elemBin_mul_inf_nonzero (ha : IsInf f a) (hb : IsFinite f b) (h0 : valueRead f env.fz b ≠ 0) :
    elemBin .mul f env a b = (infPattern f (minusSign f a != minusSign f b), 0) := by
  obtain ⟨m, e, hm, hd⟩ := decodeFloat_of_nonzero hf env.fz hb h0
  rw [elemBin_mul_of_present hf env ha.ne_absent hb.ne_absent, hd, decodeFloat_of_isInf hf env.fz ha, ieeeOp_of_none rfl,
    mulVal, if_neg hm, deliverVal_inf hf]

theorem elemBin_mul_nonzero_inf (ha : IsFinite f a) (h0 : valueRead f env.fz a ≠ 0) (hb : IsInf f b) :
    elemBin .mul f env a b = (infPattern f (minusSign f a != minusSign f b), 0) := by
  obtain ⟨m, e, hm, hd⟩ := decodeFloat_of_nonzero hf env.fz ha h0
  rw [elemBin_mul_of_present hf env ha.ne_absent hb.ne_absent, hd, decodeFloat_of_isInf hf env.fz hb, ieeeOp_of_none rfl,
    mulVal, if_neg hm, deliverVal_inf hf]

/-- Zero and infinity are present, no NaNs, and have no product. -/
theorem mulVal_zero_inf
    (h : IsInf f a ∧ IsFinite f b ∧ valueRead f env.fz b = 0 ∨ (IsFinite f a ∧ valueRead f env.fz a = 0) ∧ IsInf f b) :
    (a ≠ absentPattern f ∧ b ≠ absentPattern f) ∧ firstNaN [decodeFloat f env.fz a, decodeFloat f env.fz b] = none
      ∧ (∀ v, firstNaN [decodeFloat f env.fz a, decodeFloat f env.fz b, v] = firstNaN [v])
      ∧ mulVal (decodeFloat f env.fz a) (decodeFloat f env.fz b) = none := by
  rcases h with ⟨ha, hb, h0⟩ | ⟨⟨ha, h0⟩, hb⟩
  · obtain ⟨e, hd⟩ := decodeFloat_of_zero hf env.fz hb h0
    rw [hd, decodeFloat_of_isInf hf env.fz ha]
    exact ⟨⟨ha.ne_absent, hb.ne_absent⟩, rfl, fun _ => rfl, rfl⟩
  · obtain ⟨e, hd⟩ := decodeFloat_of_zero hf env.fz ha h0
    rw [hd, decodeFloat_of_isInf hf env.fz hb]
    exact ⟨⟨ha.ne_absent, hb.ne_absent⟩, rfl, fun _ => rfl, rfl⟩

theorem elemBin_mul_zero_inf
    (h : IsInf f a ∧ IsFinite f b ∧ valueRead f env.fz b = 0 ∨ (IsFinite f a ∧ valueRead f env.fz a = 0) ∧ IsInf f b) :
    elemBin .mul f env a b = (canonicalNaN f, 16) := by
  obtain ⟨⟨hpa, hpb⟩, hnan, -, hmul⟩ := mulVal_zero_inf hf env h
  rw [elemBin_mul_of_present hf env hpa hpb, ieeeOp_of_none hnan, hmul, deliverVal_none]

/-- The fused form of 0 × ∞: the NaN c quieted, or the canonical NaN, with invalid (R54). -/
theorem elemFma_zero_inf {c : ℕ}
    (h : IsInf f a ∧ IsFinite f b ∧ valueRead f env.fz b = 0 ∨ (IsFinite f a ∧ valueRead f env.fz a = 0) ∧ IsInf f b) :
    (IsNaN f c → elemFma false false f env a b c = (quieted f c, 16))
      ∧ (IsFinite f c ∨ IsInf f c → elemFma false false f env a b c = (canonicalNaN f, 16)) := by
  obtain ⟨⟨hpa, hpb⟩, hnan, hskip, hmul⟩ := mulVal_zero_inf hf env h
  constructor
  · intro hc
    simp only [elemFma, hf, if_true, floatFma, isAbsent_of_ne hf hpa, isAbsent_of_ne hf hpb, isAbsent_of_ne hf hc.ne_absent,
      Bool.or_false, Bool.false_and, Bool.false_eq_true, if_false, hnan, hmul, decodeFloat_of_isNaN hf env.fz hc, fracBits_eq,
        hc.quietNaN hf, flagNV]
  · intro hc
    have hcp : c ≠ absentPattern f := by rcases hc with hc | hc <;> exact hc.ne_absent
    have hcle : c ≤ absentPattern f := by
      rcases hc with hc | hc
      · exact hc.1
      · rw [← hc.pattern_eq]
        exact (infPattern_lt_absentPattern f _).le
    have hcn : ¬IsNaN f c := by
      rcases hc with hc | hc
      · exact fun h => h.not_isFinite hc
      · exact fun h => h.not_isInf hc
    obtain ⟨hfirst, -, -, hne⟩ := decodeFloat_of_not_isNaN hf env.fz hcle hcp hcn
    simp only [elemFma, hf, if_true, floatFma, isAbsent_of_ne hf hpa, isAbsent_of_ne hf hpb, isAbsent_of_ne hf hcp, Bool.or_false,
      Bool.false_and, Bool.false_eq_true, if_false, hnan, hmul]
    have hop : ieeeOp f [decodeFloat f env.fz a, decodeFloat f env.fz b, decodeFloat f env.fz c]
      (fun _ => (Format.canonical f, flagNV))
        = (canonicalNaN f, 16) := by
      rw [ieeeOp_of_none ((hskip _).trans hfirst), canonical_eq]
      rfl
    generalize decodeFloat f env.fz c = z at hne hop
    cases z with
    | nan n m s => exact absurd rfl (hne n m s)
    | _ => exact hop

theorem elemBin_div_zero (ha : IsFinite f a) (hb : IsFinite f b) (hb0 : valueRead f env.fz b = 0) :
    (valueRead f env.fz a ≠ 0 → elemBin .div f env a b = (infPattern f (minusSign f a != minusSign f b), 8))
      ∧ (valueRead f env.fz a = 0 → elemBin .div f env a b = (canonicalNaN f, 16)) := by
  obtain ⟨e, hd⟩ := decodeFloat_of_zero hf env.fz hb hb0
  rw [elemBin_div_of_present hf env ha.ne_absent hb.ne_absent, hd]
  constructor
  · intro h0
    obtain ⟨m, e', hm, hd'⟩ := decodeFloat_of_nonzero hf env.fz ha h0
    rw [hd', ieeeOp_of_none rfl, divVal, if_pos rfl, if_neg hm, deliverQuotient_inf hf]
    rfl
  · intro h0
    obtain ⟨e', hd'⟩ := decodeFloat_of_zero hf env.fz ha h0
    rw [hd']
    rfl

theorem floatRcp_of_zero (ha : IsFinite f a) (h0 : valueRead f env.fz a = 0) :
    floatRcp f env a = (infPattern f (minusSign f a), 8) := by
  obtain ⟨e, hd⟩ := decodeFloat_of_zero hf env.fz ha h0
  rw [floatRcp_of_present hf env ha.ne_absent, hd, ieeeOp_of_none rfl, divVal, if_pos rfl, if_neg one_ne_zero,
    deliverQuotient_inf hf, Bool.false_bne]
  rfl

theorem floatRcp_of_isInf (ha : IsInf f a) : floatRcp f env a = (zeroPattern f (minusSign f a), 0) := by
  rw [floatRcp_of_present hf env ha.ne_absent, decodeFloat_of_isInf hf env.fz ha, ieeeOp_of_none rfl, divVal,
    deliverQuotient_zero hf, Bool.false_bne]

theorem floatSqrt_of_neg (ha : IsFinite f a) (h0 : valueRead f env.fz a ≠ 0) (hs : minusSign f a = true) :
    floatSqrt f env a = (canonicalNaN f, 16) := by
  obtain ⟨m, e, hm, hd⟩ := decodeFloat_of_nonzero hf env.fz ha h0
  rw [floatSqrt_of_present hf env ha.ne_absent, hd, ieeeOp_of_none rfl, sqrtVal, if_neg hm, if_pos hs]

theorem floatSqrt_of_isInf (ha : IsInf f a) : floatSqrt f env a = if minusSign f a then (canonicalNaN f, 16) else (a, 0) := by
  have hinf := ha.pattern_eq
  rw [floatSqrt_of_present hf env ha.ne_absent, decodeFloat_of_isInf hf env.fz ha, ieeeOp_of_none rfl]
  cases hs : minusSign f a with
  | false => rw [← hinf, hs]; rfl
  | true => rfl

/-! Signs and conversions. -/

theorem sign_forms (ha : a ≠ absentPattern f) : elemAbs f a = (signedPattern f a false, 0)
    ∧ elemNeg f a = (signedPattern f a !minusSign f a, 0)
    ∧ (b ≠ absentPattern f → elemSgnj f a b = (signedPattern f a (minusSign f b), 0)) := by
  simp only [elemAbs, elemNeg, elemSgnj, isAbsent_of_ne hf ha, hf, if_true, Bool.false_eq_true, if_false,
    withSign_eq_signedPattern hf, signBit_eq hf, Bool.false_or, true_and]
  intro hb
  rw [isAbsent_of_ne hf hb, if_neg Bool.false_ne_true]

variable {g : Format}

theorem convertElem_absent : convertElem g f env (absentPattern f) = (Format.absentCode g, 0) := by
  rw [convertElem, isAbsent_absentPattern hf, if_pos rfl]

theorem convertElem_of_present (ha : a ≠ absentPattern f) : convertElem g f env a =
    if g.isFloat then encodeFloat g env (ieeeBits f).2 (decodeFloat f env.fz a)
    else encodeInt g env.mode (decodeFloat f env.fz a) := by
  simp only [convertElem, isAbsent_of_ne hf ha, Bool.false_eq_true, if_false, hf, if_true, fracBits_eq]

theorem convertElem_float_of_isInf (hg : g.isFloat = true) (ha : IsInf f a) :
    convertElem g f env a = (infPattern g (minusSign f a), 0) := by
  rw [convertElem_of_present hf env ha.ne_absent, if_pos hg, decodeFloat_of_isInf hf env.fz ha, encodeFloat_inf hg]

theorem convertElem_float_of_isNaN (hg : g.isFloat = true) (ha : IsNaN f a) : convertElem g f env a
    = (quieted g (infPattern g (minusSign f a) + fracField f a * 2 ^ (ieeeBits g).2 / 2 ^ (ieeeBits f).2), invalidIf f a) := by
  have hm : fracField f a < 2 ^ (ieeeBits f).2 := Nat.mod_lt _ (by positivity)
  rw [convertElem_of_present hf env ha.ne_absent, if_pos hg, decodeFloat_of_isNaN hf env.fz ha, encodeFloat,
    quietNaN_eq hg _ hm, invalidIf]
  simp only [decide_eq_true_iff, flagNV]

/-- What an integer format takes of an operand that is no number (R56). -/
theorem convertElem_int_special (hi : g.isInt = true) (hg : g.isFloat = false) :
    (a = absentPattern f → convertElem g f env a = (2 ^ (g.width - 1), 0))
      ∧ (IsNaN f a → convertElem g f env a = (2 ^ (g.width - 1), 16))
      ∧ (IsInf f a → convertElem g f env a
          = (if minusSign f a then 2 ^ (g.width - 1) + 1 else 2 ^ (g.width - 1) - 1, 16)) := by
  have hcode : Format.absentCode g = 2 ^ (g.width - 1) := by rw [Format.absentCode, hg, if_neg Bool.false_ne_true]
  refine ⟨?_, fun ha => ?_, fun ha => ?_⟩
  · rintro rfl
    rw [convertElem_absent hf, hcode]
  · rw [convertElem_of_present hf env ha.ne_absent, hg, if_neg Bool.false_ne_true, decodeFloat_of_isNaN hf env.fz ha,
      encodeInt, hcode]
    rfl
  · rw [convertElem_of_present hf env ha.ne_absent, hg, if_neg Bool.false_ne_true, decodeFloat_of_isInf hf env.fz ha, encodeInt]
    cases g <;> simp only [Format.isInt, Bool.false_eq_true] at hi
    all_goals cases minusSign f a <;> decide

end Inf

end Sys2Proof.Machine

/-! SUPPORT. The special functions of fp32: absent and NaN operands, flags, and the results that are stated exactly (R271). -/

namespace Sys2Proof.Machine

open Sys2Proof

/-! The frame that the special functions share. -/

theorem special_absent (env : Env) (op : Val → ℕ × ℕ) : special env (absentPattern .fp32) op = (absentPattern .fp32, 0) := by
  rw [special, isAbsent_absentPattern rfl, if_pos rfl]

theorem special_of_isNaN (env : Env) (op : Val → ℕ × ℕ) {a : ℕ} (ha : IsNaN .fp32 a) :
    special env a op = (quieted .fp32 a, invalidIf .fp32 a) := by
  rw [special, isAbsent_of_ne rfl ha.ne_absent]
  exact (if_neg Bool.false_ne_true).trans (ieeeOp_nan_single rfl env ha _)

/-- An operand that is present and no NaN goes to the function, whose result is flushed under FZ. -/
theorem special_of_decodeFloat (env : Env) (op : Val → ℕ × ℕ) {a : ℕ} (ha : a ≠ absentPattern .fp32) {v : Val}
    (hd : decodeFloat .fp32 env.fz a = v) (hv : firstNaN [v] = none) : special env a op = flushResult env (op v) := by
  rw [special, isAbsent_of_ne rfl ha]
  simp only [Bool.false_eq_true, if_false, hd, ieeeOp_of_none hv]

/-- FZ changes no result that is zero or normal. -/
theorem flushResult_of_normal (env : Env) {r : ℕ × ℕ} (h : r.1 % 2 ^ 31 = 0 ∨ 2 ^ 23 ≤ r.1 % 2 ^ 31) : flushResult env r = r := by
  have hn : (env.fz && (r.1 % 2 ^ 31) != 0 && decide (r.1 % 2 ^ 31 < 2 ^ 23)) = false := by
    rcases h with h | h
    · rw [h]
      cases env.fz <;> rfl
    · rw [decide_eq_false (not_lt.mpr h), Bool.and_false]
  simp only [flushResult, hn, Bool.false_eq_true, if_false]

section Exact

variable (env : Env) (op : Val → ℕ × ℕ) {a : ℕ} {r : ℕ × ℕ}

theorem special_of_isInf (ha : IsInf .fp32 a) (hr : r.1 % 2 ^ 31 = 0 ∨ 2 ^ 23 ≤ r.1 % 2 ^ 31)
    (hop : op (.inf (minusSign .fp32 a)) = r) :
    special env a op = r := by
  rw [special_of_decodeFloat env op ha.ne_absent (decodeFloat_of_isInf rfl env.fz ha) rfl, hop, flushResult_of_normal env hr]

theorem special_of_zero (ha : IsFinite .fp32 a) (h0 : valueRead .fp32 env.fz a = 0) (hr : r.1 % 2 ^ 31 = 0 ∨ 2 ^ 23 ≤ r.1 % 2 ^ 31)
    (hop : ∀ e, op (.real (minusSign .fp32 a) 0 1 e) = r) : special env a op = r := by
  obtain ⟨e, hd⟩ := decodeFloat_of_zero rfl env.fz ha h0
  rw [special_of_decodeFloat env op ha.ne_absent hd rfl, hop, flushResult_of_normal env hr]

theorem special_of_nonzero (ha : IsFinite .fp32 a) (h0 : valueRead .fp32 env.fz a ≠ 0)
    (hr : r.1 % 2 ^ 31 = 0 ∨ 2 ^ 23 ≤ r.1 % 2 ^ 31) (hop : ∀ m e, m ≠ 0 → op (.real (minusSign .fp32 a) m 1 e) = r) :
    special env a op = r := by
  obtain ⟨m, e, hm, hd⟩ := decodeFloat_of_nonzero rfl env.fz ha h0
  rw [special_of_decodeFloat env op ha.ne_absent hd rfl, hop m e hm, flushResult_of_normal env hr]

end Exact

/-! No special function raises inexact. -/

theorem orFlags_even {x y : ℕ} (hx : x % 2 = 0) (hy : y % 2 = 0) : orFlags x y % 2 = 0 := by
  have h : (x ||| y).testBit 0 = false := by rw [Nat.testBit_or, Nat.testBit_zero, Nat.testBit_zero, hx, hy]; rfl
  rw [Nat.testBit_zero, decide_eq_false_iff_not] at h
  exact (Nat.mod_two_eq_zero_or_one _).resolve_right h

theorem flushResult_even (env : Env) {r : ℕ × ℕ} (hr : r.2 % 2 = 0) : (flushResult env r).2 % 2 = 0 := by
  rw [flushResult]
  split
  · exact orFlags_even hr rfl
  · exact hr

theorem tinyResult_even (p : ℕ) : (tinyResult p).2 % 2 = 0 := by
  rw [tinyResult]
  split <;> simp [flagUF]

theorem special_even (env : Env) {op : Val → ℕ × ℕ} (h : ∀ v, (op v).2 % 2 = 0) {a : ℕ} (ha : a ≤ absentPattern .fp32) :
    (special env a op).2 % 2 = 0 := by
  by_cases hp : a = absentPattern .fp32
  · simp [hp, special_absent]
  · by_cases hn : IsNaN .fp32 a
    · rw [special_of_isNaN env op hn, invalidIf]
      split <;> simp
    · rw [special_of_decodeFloat env op hp rfl (decodeFloat_of_not_isNaN rfl env.fz ha hp hn).1]
      exact flushResult_even env (h _)

theorem floatExp2_even (env : Env) {a : ℕ} (ha : a ≤ absentPattern .fp32) : (floatExp2 env a).2 % 2 = 0 := by
  refine special_even env (fun v => ?_) ha
  split
  · rfl
  · rfl
  · split_ifs
    · rfl
    · rfl
    · split
      · split_ifs
        · rfl
        · rfl
        · exact tinyResult_even _
      · exact tinyResult_even _

theorem floatLog2_even (env : Env) {a : ℕ} (ha : a ≤ absentPattern .fp32) : (floatLog2 env a).2 % 2 = 0 := by
  refine special_even env (fun v => ?_) ha
  split
  · rfl
  · rfl
  · split_ifs
    · rfl
    · rfl
    · split <;> rfl
  · rfl

theorem floatRsqrt_even (env : Env) {a : ℕ} (ha : a ≤ absentPattern .fp32) : (floatRsqrt env a).2 % 2 = 0 := by
  refine special_even env (fun v => ?_) ha
  split
  · rfl
  · rfl
  · split_ifs <;> rfl
  · rfl

theorem floatSin_even (env : Env) {a : ℕ} (ha : a ≤ absentPattern .fp32) : (floatSin env a).2 % 2 = 0 := by
  refine special_even env (fun v => ?_) ha
  split
  · rfl
  · split_ifs
    · rfl
    · exact tinyResult_even _
  · rfl

theorem floatCos_even (env : Env) {a : ℕ} (ha : a ≤ absentPattern .fp32) : (floatCos env a).2 % 2 = 0 := by
  refine special_even env (fun v => ?_) ha
  split
  · rfl
  · split_ifs
    · rfl
    · exact tinyResult_even _
  · rfl

theorem floatTanh_even (env : Env) {a : ℕ} (ha : a ≤ absentPattern .fp32) : (floatTanh env a).2 % 2 = 0 := by
  refine special_even env (fun v => ?_) ha
  split
  · rfl
  · split_ifs
    · rfl
    · exact tinyResult_even _
  · rfl

theorem floatSigm_even (env : Env) {a : ℕ} (ha : a ≤ absentPattern .fp32) : (floatSigm env a).2 % 2 = 0 := by
  refine special_even env (fun v => ?_) ha
  split
  · rfl
  · rfl
  · exact tinyResult_even _

/-! Results stated exactly. -/

/-- A value that is an integer is known as that integer. -/
theorem integral_of_eq {neg : Bool} {m : ℕ} {e k : ℤ} (h : realOf neg m 1 e = k) : integral (.real neg m 1 e) = some k := by
  rcases hs : scaled m 1 e 0 with ⟨q, r, d⟩
  obtain ⟨hround, hexact⟩ := round_scaled .rtz neg one_ne_zero hs
  rw [zpow_zero, div_one, h] at hround hexact
  have hk := hround.eq_of_eq (n := k) (by norm_cast)
  have hr : r = 0 := hexact.mpr (by rw [hk])
  subst hr
  simp only [integral, hs, if_true, Option.some_inj]
  rw [← hk, roundInt, if_pos rfl, toInt]
  cases neg <;> simp

/-- 2 to a finite number: overflow from 128 on, underflow below −150, and exact at the integers between the normal powers. -/
theorem floatExp2_of_isFinite (env : Env) {a : ℕ} (ha : IsFinite .fp32 a) :
    (128 ≤ valueRead .fp32 env.fz a → floatExp2 env a = (0x7F800000, 4))
      ∧ (valueRead .fp32 env.fz a < -150 → floatExp2 env a = (0, 2))
      ∧ ∀ k : ℤ, -126 ≤ k → k < 128 → valueRead .fp32 env.fz a = k → floatExp2 env a = (((k + 127) * 2 ^ 23).toNat, 0) := by
  obtain ⟨m, e, hd, hv, -, -⟩ := decodeFloat_of_isFinite rfl env.fz ha
  have htop : ltVal (.real (minusSign .fp32 a) m 1 e) (.real false 128 1 0) = decide (valueRead .fp32 env.fz a < 128) := by
    rw [ltVal_real, hv]
    norm_num [realOf]
  have hlow : ltVal (.real (minusSign .fp32 a) m 1 e) (.real true 150 1 0) = decide (valueRead .fp32 env.fz a < -150) := by
    rw [ltVal_real, hv]
    norm_num [realOf]
  unfold floatExp2
  rw [special_of_decodeFloat env _ ha.ne_absent hd rfl]
  simp only [htop, hlow, Bool.not_eq_true', decide_eq_false_iff_not, not_lt, decide_eq_true_iff]
  refine ⟨fun h => ?_, fun h => ?_, fun k hk1 hk2 h => ?_⟩
  · rw [if_pos h]
    exact flushResult_of_normal env (.inr (by norm_num))
  · rw [if_neg (by linarith), if_pos h]
    exact flushResult_of_normal env (.inl (by norm_num))
  · have h1 : ¬(128 : ℚ) ≤ k := by exact_mod_cast not_le.mpr hk2
    have h2 : ¬(k : ℚ) < -150 := by exact_mod_cast (by omega : ¬k < -150)
    have hnat : ((k + 127) * 2 ^ 23).toNat = (k + 127).toNat * 2 ^ 23 := by omega
    rw [h, if_neg h1, if_neg h2, integral_of_eq (hv.trans h)]
    simp only [if_pos hk1]
    refine flushResult_of_normal env (.inr ?_)
    rw [hnat]
    omega

/-- The result of a function at a zero and at an infinity of either sign. -/
theorem special_at_zero (env : Env) {a : ℕ} (ha : IsFinite .fp32 a) (h0 : valueRead .fp32 env.fz a = 0) :
    floatLog2 env a = (0xFF800000, 8)
      ∧ floatRsqrt env a = (if minusSign .fp32 a then 0xFF800000 else 0x7F800000, 8)
      ∧ floatSin env a = (zeroPattern .fp32 (minusSign .fp32 a), 0) ∧ floatCos env a = (0x3F800000, 0)
      ∧ floatTanh env a = (zeroPattern .fp32 (minusSign .fp32 a), 0) := by
  refine ⟨special_of_zero env _ ha h0 (.inr (by norm_num)) fun _ => rfl, special_of_zero env _ ha h0 (.inr ?_) fun _ => rfl,
    special_of_zero env _ ha h0 (.inl ?_) fun _ => by cases minusSign .fp32 a <;> rfl,
    special_of_zero env _ ha h0 (.inr (by norm_num)) fun _ => rfl,
    special_of_zero env _ ha h0 (.inl ?_) fun _ => by cases minusSign .fp32 a <;> rfl⟩
  all_goals cases minusSign .fp32 a <;> decide

theorem special_at_negative (env : Env) {a : ℕ} (ha : IsFinite .fp32 a) (h0 : valueRead .fp32 env.fz a ≠ 0)
    (hs : minusSign .fp32 a = true) :
    floatLog2 env a = (canonicalNaN .fp32, 16) ∧ floatRsqrt env a = (canonicalNaN .fp32, 16) := by
  refine ⟨special_of_nonzero env _ ha h0 (.inr (by decide)) fun m e hm => ?_,
    special_of_nonzero env _ ha h0 (.inr (by decide)) fun m e hm => ?_⟩
  all_goals
    simp only [if_neg hm, if_pos hs]
    rfl

theorem special_at_infinity (env : Env) {a : ℕ} (ha : IsInf .fp32 a) : floatSin env a = (canonicalNaN .fp32, 16)
    ∧ floatCos env a = (canonicalNaN .fp32, 16) ∧ floatTanh env a = (if minusSign .fp32 a then 0xBF800000 else 0x3F800000, 0)
    ∧ floatSigm env a = (if minusSign .fp32 a then 0 else 0x3F800000, 0) := by
  refine ⟨special_of_isInf env _ ha (.inr (by decide)) rfl, special_of_isInf env _ ha (.inr (by decide)) rfl,
    special_of_isInf env _ ha (.inr ?_) (by cases minusSign .fp32 a <;> rfl),
    special_of_isInf env _ ha ?_ (by cases minusSign .fp32 a <;> rfl)⟩
  all_goals cases minusSign .fp32 a <;> decide

/-- The functions whose results at the two infinities differ in more than a sign. -/
theorem special_at_each_infinity (env : Env) : floatExp2 env 0xFF800000 = (0, 0) ∧ floatExp2 env 0x7F800000 = (0x7F800000, 0)
    ∧ floatLog2 env 0xFF800000 = (canonicalNaN .fp32, 16) ∧ floatLog2 env 0x7F800000 = (0x7F800000, 0)
    ∧ floatRsqrt env 0xFF800000 = (canonicalNaN .fp32, 16) ∧ floatRsqrt env 0x7F800000 = (0, 0) := by
  have hbottom : IsInf .fp32 0xFF800000 := isInf_infPattern .fp32 true
  have htop : IsInf .fp32 0x7F800000 := isInf_infPattern .fp32 false
  have sb : minusSign .fp32 0xFF800000 = true := by decide
  have st : minusSign .fp32 0x7F800000 = false := by decide
  refine ⟨special_of_isInf env _ hbottom (.inl (by decide)) ?_, special_of_isInf env _ htop (.inr (by decide)) ?_,
    special_of_isInf env _ hbottom (.inr (by decide)) ?_, special_of_isInf env _ htop (.inr (by decide)) ?_,
    special_of_isInf env _ hbottom (.inr (by decide)) ?_, special_of_isInf env _ htop (.inl (by decide)) ?_⟩
  all_goals simp only [sb, st]
  all_goals rfl

theorem floatLog2_one (env : Env) : floatLog2 env 0x3F800000 = (0, 0) := by
  have hd : decodeFloat .fp32 env.fz 0x3F800000 = .real false (2 ^ 23) 1 (-23) := by cases env.fz <;> decide
  unfold floatLog2
  rw [special_of_decodeFloat env _ (by decide) hd rfl]
  have hp : powerOfTwo (.real false (2 ^ 23) 1 (-23)) = some 0 := by decide
  simp only [hp]
  exact flushResult_of_normal env (.inl (by decide))

/-- Every special function is the frame of `special` about its own results, of which none raises inexact. -/
theorem special_functions (env : Env) {a : ℕ} (ha : a ≤ absentPattern .fp32) :
    ∀ fn ∈ [floatExp2, floatLog2, floatRsqrt, floatSin, floatCos, floatTanh, floatSigm],
      (a = absentPattern .fp32 → fn env a = (absentPattern .fp32, 0))
        ∧ (IsNaN .fp32 a → fn env a = (quieted .fp32 a, invalidIf .fp32 a)) ∧ (fn env a).2 % 2 = 0 := by
  simp only [List.forall_mem_cons]
  refine ⟨⟨?_, special_of_isNaN env _, floatExp2_even env ha⟩, ⟨?_, special_of_isNaN env _, floatLog2_even env ha⟩,
    ⟨?_, special_of_isNaN env _, floatRsqrt_even env ha⟩, ⟨?_, special_of_isNaN env _, floatSin_even env ha⟩,
    ⟨?_, special_of_isNaN env _, floatCos_even env ha⟩, ⟨?_, special_of_isNaN env _, floatTanh_even env ha⟩,
    ⟨?_, special_of_isNaN env _, floatSigm_even env ha⟩, by simp⟩
  all_goals
    rintro rfl
    exact special_absent env _

/-- Settles O30: every operation first looks for an absent operand, then for a NaN (`arith_of_ieeeOp`), and gives an infinity or a
zero of the exact sign where no number is rounded; the special functions share the frame of `special`. -/
theorem absentNaNAndInfiniteOperandsFollowTheirTables : Obligations.AbsentNaNAndInfiniteOperandsFollowTheirTables := by
  unfold Obligations.AbsentNaNAndInfiniteOperandsFollowTheirTables
  intro f g env a b c hf ha hb hc gone sa sb bad either arith present number zero signed sp functions
  refine ⟨?_, fun hab na => elemFma_absent_factor hf env hab hc na, ?_, ?_,
    fun hp hn hn' => ?_, fun hp hn hn' => ?_, fun hn hn' => ?_,
    elemBin_inf_finite hf env, elemBin_finite_inf hf env, elemBin_inf_inf hf env,
    fun h1 h2 => elemBin_mul_inf_nonzero hf env h1 h2.1 h2.2, fun h1 h2 => elemBin_mul_nonzero_inf hf env h1.1 h1.2 h2,
    fun h => ⟨elemBin_mul_zero_inf hf env h, elemFma_zero_inf hf env h⟩,
    fun h1 h2 => (elemBin_div_zero hf env h1.1 h2.1 h2.2).1 h1.2, fun h1 h2 => (elemBin_div_zero hf env h1.1 h2.1 h2.2).2 h1.2,
    fun h => floatRcp_of_zero hf env h.1 h.2, floatRcp_of_isInf hf env, fun h hs => floatSqrt_of_neg hf env h.1 h.2 hs,
    floatSqrt_of_isInf hf env, fun hn => ?_, fun h => sign_forms hf h, fun hg h => ?_, convertElem_float_of_isInf hf env,
    convertElem_float_of_isNaN hf env, convertElem_int_special hf env, ?_⟩
  · rintro rfl
    obtain ⟨hadd, hmul, hmin, hmax, hdiv⟩ := elemBin_absent_left hf env b
    obtain ⟨hsqrt, hrcp, hround, habs, hneg, hscale, hsgnj⟩ := unary_absent hf env env.mode b
    refine ⟨hadd, hmul, hmin, hmax, hdiv, hsqrt, hrcp, hround, habs, hneg, hscale, hsgnj, ?_, elemBin_sub_absent_left hf env hb⟩
    rintro rfl
    exact (elemBin_absent_right hf env gone).2.1
  · rintro rfl
    exact elemBin_absent_right hf env a
  · rintro ⟨hpa, hpb⟩ rfl
    exact elemFma_absent_addend hf env hpa hpb
  · exact ⟨arith_of_ieeeOp hf env hp.1 hp.2 (ieeeOp_nan_left hf env hn hb hp.2 hn'),
      (elemBin_min hf env).trans (floatMinMax_nan_left hf env hn hb hp.2 hn' false),
      (elemBin_max hf env).trans (floatMinMax_nan_left hf env hn hb hp.2 hn' true)⟩
  · exact ⟨arith_of_ieeeOp hf env hp.1 hp.2 (ieeeOp_nan_right hf env ha hp.1 hn hn'),
      (elemBin_min hf env).trans (floatMinMax_nan_right hf env ha hp.1 hn hn' false),
      (elemBin_max hf env).trans (floatMinMax_nan_right hf env ha hp.1 hn hn' true)⟩
  · exact ⟨arith_of_ieeeOp hf env hn.ne_absent hn'.ne_absent (ieeeOp_nan_both hf env hn hn'),
      (elemBin_min hf env).trans (floatMinMax_nan_both hf env hn hn' false),
      (elemBin_max hf env).trans (floatMinMax_nan_both hf env hn hn' true)⟩
  · exact ⟨(floatSqrt_of_present hf env hn.ne_absent).trans (ieeeOp_nan_single hf env hn _),
      (floatRcp_of_present hf env hn.ne_absent).trans (ieeeOp_nan_single hf env hn _), floatIntegral_of_isNaN hf env env.mode hn⟩
  · rw [h, ← absentCode_of_isFloat hg]
    exact convertElem_absent hf env
  · rintro rfl
    obtain ⟨hexpb, hexpt, hlogb, hlogt, hrsqb, hrsqt⟩ := special_at_each_infinity env
    exact ⟨special_functions env ha, hexpb, hexpt, fun h => (floatExp2_of_isFinite env h).1,
      fun h => (floatExp2_of_isFinite env h).2.1,
      fun k h1 h2 h => (floatExp2_of_isFinite env h).2.2 k h1 h2, fun h => special_at_zero env h.1 h.2,
      fun h hs => special_at_negative env h.1 h.2 hs, hlogb, hlogt, floatLog2_one env, hrsqb, hrsqt, special_at_infinity env⟩

end Sys2Proof.Machine
